-- ==== Sys2Proof/Word.lean ====
section
/-!
DEFINITION. The words of the engine: a register is 32 bits wide (R4), a byte is 8 bits, a codeword is one
RS(544,528) codeword of 5,440 bits (02_lanes, Table: Codeword layout).
-/

namespace Sys2Proof

/-- A register word (R4). -/
abbrev Word := BitVec 32

/-- A byte. -/
abbrev Byte := BitVec 8

end Sys2Proof
end

