-- ==== Sys2Proof/Syntax.lean ====
section
/-!
DEFINITION. The commands of the engine, one constructor for each row of spec/opcode_table.json, with operands of
this model's choosing (the table gives none): who writes or reads (requester ids 0 to 18, R36), what is written, and
for an event of the outside world what it shows the engine (a codeword's bits, a frame's bytes, a temperature).
-/

namespace Sys2Proof

/-- What a receiver takes for a bridge when the line tick before it is assumed to hold a number of codewords: block
0 as received, the 512 bytes decoded and descrambled, and how many sixteenths of a nanosecond ago the first bit of block 0 passed the
lane (R247). -/
structure BridgeView where
  block0 : BitVec 64
  bytes : List Byte
  ago : Nat
  deriving DecidableEq, Repr

/-- Where a burst's delimiter is (R112, R141), in 1/16 block after the launch t_m of downstream line tick m at the head end's
stamp points: nowhere; at a position; or in a run of received bits, earliest first, that begins at a position. -/
inductive Delim where
  | missing
  | found (pos : Int)
  | bits (pos : Int) (bs : List Bool)
  deriving DecidableEq, Repr

/-- What the first payload codeword of a burst holds (R142 to R144): as it was read, whether it decoded, the 32 bytes of the burst
header and the 64 bytes of blocks 4 to 11; or as the codeword stands on the line. -/
inductive BurstHead where
  | read (decoded : Bool) (header message : List Byte)
  | codeword (bits : BitVec 5440)
  deriving DecidableEq, Repr

/-- A burst as a head end receives it: the upstream line tick and START of its window; whether light arrived in it; its delimiter
and first payload codeword; the blocks of frames it held; further delimiters in a discovery window; and the receiver's phase and
baseline at its end (R47). -/
structure BurstRx where
  u : BitVec 32
  start : BitVec 13
  signal : Bool
  delim : Delim
  head : BurstHead
  blocks : Nat
  extra : Nat
  phase : Int
  baseline : Int
  deriving DecidableEq, Repr

/-- A frame on a tree as its receiver takes it: cut out of the line, link header first; or as the blocks that the decoder passed
on, from its Start on, each a sync header (1 for 0b01) and a payload. -/
inductive TreeRx where
  | cut (frame : List Byte)
  | blocks (bs : List (BitVec 2 × BitVec 64))
  deriving DecidableEq, Repr

/-- What is told of a frame on a tree: what spoils it, 1 a codeword, the Terminate block or the end of the payload (R86), 2 an invalid
control block (R83); and how many sixteenths of a nanosecond ago the first bit of its Start block passed the lane (R247). -/
structure TreeMark where
  spoilt : Fin 3
  ago : Nat
  deriving DecidableEq, Repr

/-- Where a Surok frame is: the block of its Start in its lane's line tick; and what is told of it as of a frame on a tree. -/
structure FrameAt where
  block : BitVec 32
  spoilt : Fin 3
  ago : Nat
  deriving DecidableEq, Repr

/-- What a client decoder tells of a frame: whether it is spoilt, and how many codeword times before the last one received its
first block came in; and how many sixteenths of a nanosecond ago the first bit after its SFD passed the lane, its place in the
codeword and the alignment markers ahead of it accounted for (R247). -/
structure ClientMark where
  uncorrectable : Bool
  back : Nat
  ago : Nat
  deriving DecidableEq, Repr

/-- A client channel whose 16 PCS lanes have locked on their alignment markers, with the arrival delay of each in bits of a PCS
lane. -/
structure LockedLanes where
  channel : Fin 64
  arrival : List Nat
  deriving DecidableEq, Repr

/-- The next pass of a pipe list: octants 0 to 7, injection 8, Surok lanes 9 to 16; of an octant, which of the frames in front its
parse pipes make through stage 4 next (R14, R223). -/
structure PassAt where
  pipe : Fin 17
  nth : Fin 3
  deriving DecidableEq, Repr

/-- Which access of a memory channel completes (R302): the n-th of those issued; or the copy of one granule of the service block,
named by a byte of service-core memory in it (R306). -/
inductive DeepAcc where
  | issued (n : Nat)
  | copy (addr : BitVec 30)
  deriving DecidableEq, Repr

/-- How it completes (R301, R302): corrections reported, repetitions of the transfer (at most 2), and the kind of
error if it is one: 0 data, 1 CRC, 2 parity. -/
structure DeepRes where
  corr : Nat
  retries : Fin 3
  err : Option (Fin 3)
  deriving DecidableEq, Repr

/-- A slot as the loader reads it (R353, R356): whether every flash command completed; the bytes of its header, its
certificate and its manifest; and what the cryptographic checks find: the digest of VENDOR_PK is the root hash fused at
manufacture, VENDOR_SIG verifies, the image signature verifies over M, and the sections have their digests. -/
structure SlotImage where
  readable : Bool
  header : List Byte
  cert : List Byte
  manifest : List Byte
  rootOk : Bool
  certOk : Bool
  sigOk : Bool
  digestsOk : Bool
  deriving DecidableEq, Repr

/-- What the reading of frame-store words for a send or delivery finds (R187): the rows, within the slice read, of the
corrected words as (frame read, row) pairs, and the frames read that hold an uncorrectable word; frames are numbered
in the order in which the command reads them. -/
structure FsRead where
  corrected : List (Nat × BitVec 13)
  uncorrectable : List Nat
  deriving DecidableEq, Repr

/-- An atomic operation of the A extension (R307). -/
inductive Amo where
  | lr | sc | swap | add | xor | and | or | min | max | minu | maxu
  deriving DecidableEq, Repr

/-- Where an access goes: a register offset (BAR0), an offset of the table aperture (BAR2, R173), or an address of a service
core's own address space (Table: Service-core address map, R307), of a load or store or of an atomic operation on 8 or 4 bytes of
service-core memory. -/
inductive Addr where
  | reg (off : BitVec 20)
  | table (ofs : BitVec 26)
  | core (a : BitVec 32)
  | atomic (op : Amo) (wide : Bool) (a : BitVec 32)
  deriving DecidableEq, Repr

/-- What brings the PCI Express function up (R269, R271): a link trained to 2^width lanes at a rate, 2.5 GT/s to 32 GT/s; or Bus
Master Enable, with the payload size and the read request size, 128 × 2^n bytes, that the host has set. -/
inductive PcieUp where
  | link (width : Fin 4) (rate : Fin 5)
  | master (payload : Fin 3) (request : Fin 6)
  deriving DecidableEq, Repr

/-- A failed access of a ring (R282): how it ended, and which descriptor from HEAD on it was made for. -/
structure RingFault where
  status : Byte
  desc : BitVec 16
  deriving DecidableEq, Repr

/-- A 156.25 MHz reference input (R261): whether its edges are there, and its frequency against the 10 MHz input in parts in 10^9. -/
structure RefIn where
  present : Bool
  ppb : Int
  deriving DecidableEq, Repr

/-- The commands. -/
inductive Instr where
  | registerWrite (req : Fin 19) (at_ : Addr) (data : List (Option Byte))
  | readClear (req : Fin 19) (at_ : Addr) (len : Fin 4097)
  | devTickLoRead (req : Fin 19)
  | tickCommit (req : Fin 19) (value : Word)
  | commitCutoff
  | coreTickBoundary (bad : BitVec 32) (regs : List (Option (Fin 2 × List Byte)))
  | holdoverTimeout (p : Fin 16)
  | lineTickWork (c : Fin 64)
  | bridgeLaunch (l : Fin 72)
  | codewordReceived (l : Fin 72) (bits : BitVec 5440)
  | signalDetect (l : Fin 72)
  | lossOfSignal (l : Fin 72)
  | cdrLock (l : Fin 72)
  | cdrLockLoss (l : Fin 72)
  | alignmentMarkerLock (a : LockedLanes)
  | lanePllSettled (l : Fin 72)
  | bridgeReceived (c : Fin 64) (short same long : BridgeView)
  | upstreamTickBegin (c : Fin 64)
  | burstLaunch (c : Fin 64) (rd : FsRead)
  | panicAssert (c : Fin 64)
  | panicDeassert (c : Fin 64)
  | burstReceived (c : Fin 64) (b : BurstRx)
  | treeFrameReceived (c : Fin 64) (rx : TreeRx) (ltn : BitVec 32) (block : BitVec 32) (mark : TreeMark)
  | clientFrameReceived (c : Fin 64) (frame : List Byte) (mark : ClientMark)
  | pauseFrameReceived (c : Fin 64) (quanta : BitVec 16)
  | pauseTimerExpiry (c : Fin 64)
  | surokFrameReceived (lane : Fin 8) (rx : TreeRx) (at_ : FrameAt)
  | surokBridgeReceived (lane : Fin 8) (short same long : BridgeView)
  | parsePass (at_ : PassAt)
  | patternRelease (pipe : Fin 17) (n : Nat)
  | clsStale (pipe : Fin 17)
  | epochRetired (e : Fin 4)
  | reorderReleaseLoop (chord : Fin 32) (group : Fin 8)
  | restageRead (queue : Fin 4248)
  | schedSelect (port : Fin 65) (rd : FsRead)
  | timedLaunchDue (queue : Fin 4096)
  | shaperRefill
  | slowPathRefill
  | deepBudgetRefill
  | hostCapRefill
  | gateEntryChange (c : Fin 64)
  | gateListStart (c : Fin 64)
  | statsSuperframeEnd
  | eyeMarginMeasure (l : Fin 72) (v h : Byte)
  | stampTempRead (o : Fin 8) (t : Int)
  | hostTxFetch (descs : List (List Byte × List Byte))
  | ringDelivery (ring : Fin 128) (bufs : List (BitVec 64)) (rd : FsRead)
  | interruptTimer (ring : Fin 256)
  | ringAccessError (ring : Fin 256) (fault : RingFault)
  | coreDelivery (core : Fin 16) (rd : FsRead)
  | pcieReset
  | pcieLinkDown (link : Bool)
  | memCommandSlot (m : Fin 64) (ready : BitVec 16)
  | refreshInterval (m : Fin 64)
  | refreshPayback (m : Fin 64)
  | memTempRead (d : Fin 16) (t : BitVec 8)
  | retrainSlot (m : Fin 64) (outOfReach : Bool)
  | deepAccessComplete (m : Fin 64) (acc : DeepAcc) (res : DeepRes)
  | evacuationRewrite
  | drainDone
  | copyDone
  | mapoutTrainDone (pass : Bool)
  | returnDone
  | heartbeatLost
  | twinAliveEdge (i : Fin 2)
  | twinAliveInputLost (i : Fin 2)
  | declarationEnd
  | firstHeartbeatTimeout
  | ppsEdge (i : Fin 2) (back : Nat)
  | ppsLost (i : Fin 2)
  | ppsOutputEdge (o : Fin 2)
  | todOutSend
  | todMessageReceived (m : List Byte) (ago : Nat)
  | referenceSwitch (a b : RefIn) (r10 : Bool)
  | feedUnhealthy (f : Fin 2) (va vb : BitVec 16)
  | feedHealthy (f : Fin 2) (va vb : BitVec 16)
  | feedReturn
  | lastGasp
  | holdupShutdown
  | powerOnRelease
  | thermalTrip
  | thermalRelease
  | voltageSettled (o : Fin 8)
  | levelChangeAbort (o : Fin 8)
  | saveComplete (o : Fin 8)
  | wakeEvent (o : Fin 8) (src : Fin 7) (c : Fin 64)
  | wakePatternMatch (c : Fin 64) (frame : List Byte) (tid : Fin 32) (bc prot : Bool)
  | octTimerWake (o : Fin 8)
  | dsExit (badBanks : BitVec 32)
  | lastingEnd (src : Fin 16) (inst : Fin 256)
  | inputTransition (i : Fin 20) (active held : Bool)
  | chatterEnd (i : Fin 20)
  | inputStuck (i : Fin 20)
  | resetInput
  | resetRelease (pairId : Fin 4) (feedMain : Bool)
  | resetPhaseDone
  | headerChecked (slot : SlotImage)
  | sectionsChecked (readable digestsOk : Bool) (sections : List (List Byte))
  | memTrainingDone (failed : BitVec 64) (temps : List (BitVec 8))
  | apply
  | taskWake
  | preemptTimeout (core : Fin 16)
  | reportReady
  | txPost (req : Fin 19)
  | rxPop (req : Fin 19)
  | chTermEqdWrite (req : Fin 19) (value : Word)
  | chTrecStateWrite (req : Fin 19) (t : Fin 32) (value : Word)
  | measPop (req : Fin 19)
  | pop (req : Fin 19)
  | capture (req : Fin 19)
  | set (req : Fin 19)
  | step (req : Fin 19)
  | pegSrvFwofsHiWrite (req : Fin 19) (value : Word)
  | tableWordWrite (req : Fin 19) (ofs : BitVec 26) (data : List (Option Byte))
  | insert (req : Fin 19)
  | delete (req : Fin 19)
  | search (req : Fin 19)
  | update (req : Fin 19)
  | tstEnableWrite (req : Fin 19) (reg : Fin 3) (value : Word)
  | fire (req : Fin 19)
  | eyeScanStart (req : Fin 19)
  | tdsTaskWWrite (req : Fin 19) (k : Fin 8) (value : Word)
  | arm (req : Fin 19)
  | kick (req : Fin 19)
  | suspend (req : Fin 19)
  | resume (req : Fin 19)
  | delay (req : Fin 19) (ticks : BitVec 16)
  | free (req : Fin 19)
  | tdsNextRead (req : Fin 19)
  | endRun (req : Fin 19)
  | yield (req : Fin 19)
  | sleep (req : Fin 19) (ticks : BitVec 16)
  | tdsEvRaise (req : Fin 19) (idx : Fin 64)
  | postIn (req : Fin 19)
  | postOut (req : Fin 19)
  | popIn (req : Fin 19)
  | popOut (req : Fin 19)
  | offline (req : Fin 19) (core : Fin 16)
  | tdsInjGo (req : Fin 19)
  | twnSwitch (req : Fin 19) (c : Fin 64) (toActive force : Bool)
  | twnLanesWrite (req : Fin 19) (out : Byte)
  | imgVerify (req : Fin 19)
  | imgVerifyDone (slot : SlotImage)
  | flashRead (req : Fin 19)
  | flashProgram (req : Fin 19)
  | flashErase (req : Fin 19)
  | flashCommandDone (ok : Bool) (data : List Byte)
  | advance (req : Fin 19)
  | fuseAdvanceDone
  | restart (req : Fin 19) (key : Byte)
  | attestationRequest (req : Fin 19)
  | writeSlot (req : Fin 19)
  | eraseSlot (req : Fin 19)
  | eraseTid (req : Fin 19)
  | eraseChannel (req : Fin 19)
  | change (req : Fin 19) (t : Fin 32)
  | goOut (req : Fin 19) (d : Fin 16)
  | goIn (req : Fin 19)
  | octPwrReq (req : Fin 19) (target : Fin 16)
  | dsRequest (req : Fin 19)
  | doze (req : Fin 19)
  | undoze (req : Fin 19)
  | clear (req : Fin 19)
  | undo (req : Fin 19)
  | bistRequest (req : Fin 19) (kind : Fin 8) (idx : Fin 16)
  | testFinished (pass : Bool) (addr : Word)
  | tailWrite (req : Fin 19) (tail : BitVec 16)
  | ringEnable (req : Fin 19)
  | imgRdigLatch (req : Fin 19)
  | prbsCheckerLock (l : Fin 72)
  | prbsCheckerLoss (l : Fin 72) (errs : Nat)
  | continuousInjection (l : Fin 72)
  | eyeScanDone (l : Fin 72) (errs : Nat)
  | alignmentMarkerLockLoss (c : Fin 64)
  | emOperationDone (noPlace : Bool)
  | injectionReadDone (core : Fin 16) (failed : Bool)
  | voltageRampDownDone (o : Fin 8)
  | dozeTxReady (c : Fin 64)
  | pcieLinkUp (up : PcieUp)
  | ppsOutputPulseEnd (o : Fin 2)
  | twinAlivePulseEnd
  | recirculationRefill (pipe : Fin 9)
  deriving DecidableEq, Repr

end Sys2Proof
end

