-- ==== Sys2Proof/Decode.lean ====
section
/-!
DEFINITION. The words of spec/opcode_table.json: the table gives no row any bits (every row's fields are empty), so no
word spells a command, and there is nothing to encode.
-/

namespace Sys2Proof

/-- The command that a word spells by the table's bits: none, for the table has none. -/
def decodeTableWord (_nbits _w : Nat) : Option Instr := none

end Sys2Proof
end

