-- ==== Sys2Proof/Config.lean ====
section
/-!
DEFINITION. What the spec leaves open or takes from other standards, as constants without a body: a statement
about one of these holds whatever it is. The free values (log entry 3) and the cryptographic functions that the
spec names by their standards and does not define (log entry 4).
-/

namespace Sys2Proof.Config

/-- The free values: value n is the n-th one a run takes. Nothing constrains them. -/
opaque freeValue : Nat → Nat

/-- SHA3-512 (R355, R362): 64 bytes from a message. The spec names the standard function and does not define it. -/
opaque sha3_512 : List Byte → List Byte

/-- ML-DSA-87 signing with the identity key (R364). -/
opaque mlDsaSign : List Byte → List Byte

/-- The identity's public key and the root's signature over its certificate (R364), which the vendor puts into each device. -/
opaque identityPk : List Byte
opaque identitySig : List Byte

/-- AES-256-GCM sealing (R366 to R368): key, initialisation vector, additional data, plaintext; the answer is the
ciphertext followed by the tag. -/
opaque gcmSeal : List Byte → List Byte → List Byte → List Byte → List Byte

/-- AES-256-GCM opening (R368, R371): key, initialisation vector, additional data, ciphertext with its tag; none
where the tag fails. -/
opaque gcmOpen : List Byte → List Byte → List Byte → List Byte → Option (List Byte)

/-- The fixed pattern of a whole-codeword injection (R65): one that the decoder reports as uncorrectable. The spec
does not give it. -/
opaque wholeCodewordPattern : BitVec 5440

end Sys2Proof.Config
end

