-- ==== Sys2Proof/Machine/Coding.lean ====
section
/-!
DEFINITION. The codes of the lanes and frames: the CRC-16 (R69) and CRC-32 (R72) of tick frames, the CRC-32 of
Ethernet frames, the RS(544,528) and RS(544,514) codes (R42, R58), the self-synchronous scrambler (R41), PRBS31
(R64) and the Gray code of PAM4 symbols (R39).
-/

namespace Sys2Proof.Machine

/-! ### CRCs, most significant bit of each byte first -/

/-- One bit shifted through a CRC register of a width. -/
def crcBit (width poly : Nat) (crc : Nat) (b : Bool) : Nat :=
  let top := crc / 2 ^ (width - 1) % 2 == 1
  let sh := crc * 2 % 2 ^ width
  if top != b then sh ^^^ poly else sh

/-- One byte shifted through, most significant bit first. -/
def crcByte (width poly crc : Nat) (b : Nat) : Nat :=
  (List.range 8).foldl (fun c i => crcBit width poly c (b / 2 ^ (7 - i) % 2 == 1)) crc

/-- The CRC-16 of R69: polynomial 0x1021, initial value 0xFFFF, no final XOR. -/
def crc16 (bs : List Byte) : Nat := bs.foldl (fun c b => crcByte 16 0x1021 c b.toNat) 0xFFFF

/-- The CRC-32 of R72: polynomial 0x04C11DB7, initial value and final XOR all ones, not reflected. -/
def crc32 (bs : List Byte) : Nat := bs.foldl (fun c b => crcByte 32 0x04C11DB7 c b.toNat) 0xFFFFFFFF ^^^ 0xFFFFFFFF

/-- One byte through the reflected CRC-32 of IEEE 802.3. -/
def fcsByte (crc : Nat) (b : Nat) : Nat :=
  (List.range 8).foldl (fun c _ => if c % 2 = 1 then c / 2 ^^^ 0xEDB88320 else c / 2) (crc ^^^ b)

/-- The frame check sequence of IEEE 802.3 (R263), as the number whose byte 0 is sent first. -/
def fcs32 (bs : List Byte) : Nat := bs.foldl (fun c b => fcsByte c b.toNat) 0xFFFFFFFF ^^^ 0xFFFFFFFF

/-- The four FCS bytes in the order sent. -/
def fcsBytes (bs : List Byte) : List Byte :=
  let f := fcs32 bs
  (List.range 4).map (fun i => BitVec.ofNat 8 (f / 2 ^ (8 * i)))

/-! ### GF(2^10) with x^10 + x^3 + 1 (R42) -/

/-- Multiplication by α. -/
def gfX (a : Nat) : Nat := let d := a * 2; if 1024 ≤ d then (d - 1024) ^^^ 9 else d

/-- The product of two field elements. -/
def gfMul (a b : Nat) : Nat :=
  ((List.range 10).foldl (fun (acc : Nat × Nat) i =>
    (if b / 2 ^ i % 2 = 1 then acc.1 ^^^ acc.2 else acc.1, gfX acc.2)) (0, a)).1

/-- A power of a field element, the exponent in 10 bits. -/
def gfPow (a e : Nat) : Nat :=
  ((List.range 10).foldl (fun (acc : Nat × Nat) i =>
    (if e / 2 ^ i % 2 = 1 then gfMul acc.1 acc.2 else acc.1, gfMul acc.2 acc.2)) (1, a)).1

/-- The inverse of a field element that is not 0. -/
def gfInv (a : Nat) : Nat := gfPow a 1022

/-- α to a power. -/
def alpha (e : Nat) : Nat := gfPow 2 (e % 1023)

/-- A polynomial, coefficient of x^0 first, at a point. -/
def polyEval (p : List Nat) (x : Nat) : Nat := p.foldr (fun c acc => gfMul acc x ^^^ c) 0

/-- A word of 544 symbols, symbol 0 the coefficient of x^543, at a point. -/
def wordEval (w : List Nat) (x : Nat) : Nat := w.foldl (fun acc c => gfMul acc x ^^^ c) 0

/-- The syndromes of a word for a code with a number of parity symbols: its values at α^0, α^1 and so on (R42). -/
def syndromes (par : Nat) (w : List Nat) : List Nat := (List.range par).map (fun i => wordEval w (alpha i))

/-- Sum of two polynomials. -/
def polyAdd : List Nat → List Nat → List Nat
  | [], q => q
  | p, [] => p
  | a :: p, b :: q => (a ^^^ b) :: polyAdd p q

/-- A polynomial times a constant. -/
def polyScale (c : Nat) (p : List Nat) : List Nat := p.map (gfMul c)

/-- The working state of the Berlekamp-Massey iteration: connection polynomial, previous polynomial, length, gap
and previous discrepancy. -/
structure Bm where
  c : List Nat
  b : List Nat
  len : Nat
  m : Nat
  d : Nat
  deriving Repr

/-- One step of the iteration for syndrome n. -/
def bmStep (syn : List Nat) (st : Bm) (n : Nat) : Bm :=
  let disc := (List.range (st.len + 1)).foldl (fun a i => a ^^^ gfMul (st.c.getD i 0) (syn.getD (n - i) 0)) 0
  if disc = 0 then { st with m := st.m + 1 }
  else
    let c' := polyAdd st.c (List.replicate st.m 0 ++ polyScale (gfMul disc (gfInv st.d)) st.b)
    if 2 * st.len ≤ n then { c := c', b := st.c, len := n + 1 - st.len, m := 1, d := disc }
    else { st with c := c', m := st.m + 1 }

/-- The error locator of a list of syndromes, with its length. -/
def locator (syn : List Nat) : List Nat × Nat :=
  let r := (List.range syn.length).foldl (bmStep syn) { c := [1], b := [1], len := 0, m := 1, d := 1 }
  (r.c, r.len)

/-- The degrees below 544 at which the error locator has its roots. -/
def errorDegrees (loc : List Nat) : List Nat :=
  (List.range 544).filter (fun d => polyEval loc (alpha (1023 - d)) == 0)

/-- The product of two polynomials. -/
def polyMul (p q : List Nat) : List Nat :=
  p.foldr (fun a acc => polyAdd (polyScale a q) (0 :: acc)) []

/-- The error value at a degree (Forney, first root α^0). -/
def errorValue (syn loc : List Nat) (d : Nat) : Nat :=
  let omega := (polyMul syn loc).take syn.length
  let xi := alpha (1023 - d)
  let deriv := (List.range loc.length).map (fun i => if i % 2 = 0 then loc.getD (i + 1) 0 else 0)
  gfMul (gfMul (alpha d) (polyEval omega xi)) (gfInv (polyEval deriv xi))

/-- What the decoder makes of a word: the corrected word and the (position, error) pairs it corrected, or none if
the word is uncorrectable. -/
def rsDecode (par : Nat) (w : List Nat) : Option (List Nat × List (Nat × Nat)) :=
  let syn := syndromes par w
  if syn.all (· == 0) then some (w, [])
  else
    let (loc, len) := locator syn
    let degs := errorDegrees loc
    if par / 2 < len || degs.length != len then none
    else
      let errs := degs.map (fun d => (543 - d, errorValue syn loc d))
      let w' := errs.foldl (fun w e => w.set e.1 (w.getD e.1 0 ^^^ e.2)) w
      if (syndromes par w').all (· == 0) then some (w', errs) else none

/-- How many bits the decoder corrected. -/
def correctedBits (errs : List (Nat × Nat)) : Nat :=
  (errs.map (fun e => ((List.range 10).filter (fun i => e.2 / 2 ^ i % 2 == 1)).length)).sum

/-- The generator polynomial for a number of parity symbols, coefficient of x^0 first (R42). -/
def rsGenerator (par : Nat) : List Nat :=
  (List.range par).foldl (fun g i => polyMul g [alpha i, 1]) [1]

/-- The parity symbols of a message, from the coefficient of x^(par-1) down (R42). -/
def rsParity (par : Nat) (msg : List Nat) : List Nat :=
  let g := ((rsGenerator par).take par).reverse
  msg.foldl (fun reg m =>
    let fb := m ^^^ reg.headD 0
    List.zipWith (fun r c => r ^^^ gfMul fb c) (reg.drop 1 ++ [0]) g) (List.replicate par 0)

/-! ### Codewords as bits, bit i the i-th in transmission order -/

/-- The 544 symbols of a codeword; the first bit sent of each group is symbol bit 0 (R41). -/
def cwSymbols (cw : Nat) : List Nat := (List.range 544).map (fun j => cw / 2 ^ (10 * j) % 1024)

/-- A codeword from its symbols. -/
def ofSymbols (l : List Nat) : Nat := l.foldr (fun x acc => x + 1024 * acc) 0

/-- The sync header of block k: bit 0 is sent first (R41). -/
def cwHeader (cw k : Nat) : Nat := cw / 2 ^ (66 * k) % 4

/-- The payload of block k as it stands on the line. -/
def cwPayload (cw k : Nat) : Nat := cw / 2 ^ (66 * k + 2) % 2 ^ 64

/-- How many of a codeword's 80 sync headers are valid, 0b01 or 0b10 (R44). -/
def validHeaders (cw : Nat) : Nat :=
  ((List.range 80).filter (fun k => cwHeader cw k == 1 || cwHeader cw k == 2)).length

/-- The payload bits descrambled (R41): x^58 + x^39 + 1 over the last 58 received bits, the newest in bit 0. The
answer is the payload in bit order of transmission and the new register. -/
def descramble (reg payload : Nat) : Nat × Nat :=
  (List.range 64).foldl (fun (st : Nat × Nat) i =>
    let b := payload / 2 ^ i % 2
    let o := (b + st.2 / 2 ^ 38 % 2 + st.2 / 2 ^ 57 % 2) % 2
    (st.1 + o * 2 ^ i, (st.2 * 2 + b) % 2 ^ 58)) (0, reg)

/-- The payload bits scrambled (R41): the register holds the last 58 bits sent, the newest in bit 0. -/
def scramble (reg payload : Nat) : Nat × Nat :=
  (List.range 64).foldl (fun (st : Nat × Nat) i =>
    let o := (payload / 2 ^ i % 2 + st.2 / 2 ^ 38 % 2 + st.2 / 2 ^ 57 % 2) % 2
    (st.1 + o * 2 ^ i, (st.2 * 2 + o) % 2 ^ 58)) (0, reg)

/-- The last 58 bits of a codeword's payload stream: the descrambler's register after the codeword. -/
def scrAfter (reg cw : Nat) : Nat :=
  (List.range 80).foldl (fun r k => (descramble r (cwPayload cw k)).2) reg

/-- The PRBS31 sequence from a state whose newest bit is bit 0 (R64): n bits, earliest first. -/
def prbs31 : Nat → Nat → List Bool
  | 0, _ => []
  | n + 1, st =>
    let b := (st / 2 ^ 27 % 2 + st / 2 ^ 30 % 2) % 2
    (b == 1) :: prbs31 n ((st * 2 + b) % 2 ^ 31)

/-- The PAM4 level of a pair of bits, the earlier bit the more significant (R39). -/
def pam4 (first second : Bool) : Nat :=
  match first, second with
  | false, false => 0
  | false, true => 1
  | true, true => 2
  | true, false => 3

/-! ### What a transmitter sends -/

/-- One codeword of tree coding from 80 blocks, each its sync header (1 for 0b01, a data block; 2 for 0b10, a control block)
and its 64 payload bits, and the scrambler's register after it (R41, R42). -/
def encodeCodeword (reg : Nat) (blocks : List (Nat × Nat)) : Nat × Nat :=
  let r := blocks.foldl (fun (st : List Nat × Nat) b =>
    let p := scramble st.2 b.2
    (st.1 ++ [b.1 + 4 * p.1], p.2)) (([] : List Nat), reg)
  let msg := r.1.foldr (fun x acc => x + 2 ^ 66 * acc) 0
  (msg + 2 ^ 5280 * ofSymbols (rsParity 16 ((List.range 528).map (fun j => msg / 2 ^ (10 * j) % 1024))), r.2)

/-- The PAM4 levels of n symbols of a stream of bits, bit i the i-th in transmission order (R39). -/
def pam4Levels (n bits : Nat) : List Nat :=
  (List.range n).map (fun i => pam4 (bits / 2 ^ (2 * i) % 2 == 1) (bits / 2 ^ (2 * i + 1) % 2 == 1))

/-- The preamble pattern of n blocks from block b of a burst on, 33 symbols a block: level 3 at every even symbol, 0 at every odd
one, counted from symbol 0 of block 0 (R140). -/
def preambleLevels (b n : Nat) : List Nat := (List.range (33 * n)).map (fun i => if (33 * b + i) % 2 = 0 then 3 else 0)

/-- A run of bits, earliest first, as a number with the earliest in bit 0. -/
def ofBits (l : List Bool) : Nat := l.foldr (fun b acc => (if b then 1 else 0) + 2 * acc) 0

/-- The bits of a number, bit 0 first. -/
def toBits (n v : Nat) : List Bool := (List.range n).map (fun i => v / 2 ^ i % 2 == 1)

/-- The delimiter: the first 1,056 bits of PRBS31 from the all-ones state (R141). -/
def delimiter : List Bool := prbs31 1056 (2 ^ 31 - 1)

/-- In how many positions a run of received bits differs from the delimiter. -/
def delimiterErrors (bits : List Bool) : Nat := ((delimiter.zip bits).filter (fun p => p.1 != p.2)).length

/-- The one of some bit offsets, in rising order, at which received bits match the delimiter: the fewest errors, at most 64, the
earliest on a tie (R141). -/
def delimiterAt (bits : List Bool) (offsets : List Nat) : Option Nat :=
  let best := offsets.foldl (fun (b : Option (Nat × Nat)) o =>
    let e := delimiterErrors ((bits.drop o).take 1056)
    if 64 < e then b
    else match b with
      | none => some (o, e)
      | some (p, f) => if e < f then some (o, e) else some (p, f)) none
  best.map (·.1)

/-- One period of the square wave of TST_PRBS_CFG (R63). -/
def squareWave (half : Nat) : List Nat := List.replicate (half + 1) 3 ++ List.replicate (half + 1) 0

/-- A level inverted (CH_LANE_CFG.TX_POL). -/
def invertLevels (on : Bool) (l : List Nat) : List Nat := if on then l.map (fun x => 3 - x) else l

/-- The mask of bits that an injection inverts in the next codeword sent (R65). -/
def injectMask (mode burstLen symOfs bitNo wholeCw : Nat) : Nat :=
  let so := min symOfs 543
  if mode = 2 then wholeCw
  else if mode = 1 then
    (List.range (burstLen + 1)).foldl (fun m i => if so + i ≤ 543 then m ||| (1023 <<< (10 * (so + i))) else m) 0
  else 1 <<< (10 * so + min bitNo 9)

/-! ### Blocks (R68, R83) -/

/-- A 64b/66b block as (sync header, payload): 1 is 0b01, a data block; 2 is 0b10, a control block; 0 a block of an
uncorrectable codeword (R43). -/
abbrev Block := Nat × Nat

/-- The eight bytes of a payload (R68). -/
def payloadBytes (p : Nat) : List Byte := (List.range 8).map (fun j => BitVec.ofNat 8 (p / 2 ^ (8 * j)))

/-- A payload of at most eight bytes, the rest 0. -/
def ofBytes (l : List Byte) : Nat := l.foldr (fun b acc => b.toNat + 256 * acc) 0

/-- Bytes as data blocks, eight to a block. -/
def dataBlocks (bs : List Byte) : List Block := (List.range (bs.length / 8)).map (fun i => (1, ofBytes ((bs.drop (8 * i)).take 8)))

/-- The Idle block (R83). -/
def idleBlock : Block := (2, 0x1E)

/-- The block types of Terminate, by the number of frame bytes that it carries (R83). -/
def termTypes : List Nat := [0x87, 0x99, 0xAA, 0xB4, 0xCC, 0xD2, 0xE1, 0xFF]

/-- How many bytes a Terminate of a block type carries; none where the type is no Terminate. -/
def termLen (t : Nat) : Option Nat := (List.range 8).find? (fun k => termTypes.getD k 0 == t)

/-- A frame as blocks: Start with 7 bytes, data blocks, Terminate with what is left (R83). -/
def frameToBlocks (bs : List Byte) : List Block :=
  let rest := bs.drop 7
  let k := rest.length % 8
  [(2, 0x78 + 256 * ofBytes (bs.take 7))] ++ dataBlocks rest ++
    [(2, termTypes.getD k 0 + 256 * ofBytes (rest.drop (rest.length - k)))]

/-- The blocks behind a Start read on to the Terminate: the bytes, and 0 where it came, 1 where a block of an uncorrectable
codeword, another Start, an Idle or the end came first, 2 where an invalid control block did (R83, R86). A sync header of 0b11,
which neither kind of block has, spoils the frame as an uncorrectable codeword does (DESIGN CHOICE, log entry 123). -/
def readBlocks : List Block → List Byte → List Byte × Nat
  | [], acc => (acc, 1)
  | (h, p) :: l, acc =>
    if h = 1 then readBlocks l (acc ++ payloadBytes p)
    else if h = 2 then
      match termLen (p % 256) with
      | some k => (acc ++ ((payloadBytes p).drop 1).take k, 0)
      | none => (acc, if p % 256 = 0x78 ∨ p % 256 = 0x1E then 1 else 2)
    else (acc, 1)

/-- The frame of some blocks from its Start on, and how it ended. -/
def readFrame : List Block → List Byte × Nat
  | [] => ([], 1)
  | (h, p) :: l =>
    if h = 2 ∧ p % 256 = 0x78 then readBlocks l ((payloadBytes p).drop 1)
    else ([], if h = 2 ∧ p % 256 ≠ 0x1E ∧ termLen (p % 256) = none then 2 else 1)

/-- n blocks of payload from a block on: the items where they start, Idle blocks between and behind them (R85). -/
def layBlocks (base n : Nat) (items : List (Nat × List Block)) : List Block :=
  let l := items.foldl (fun (acc : List Block) i => acc ++ List.replicate (i.1 - base - acc.length) idleBlock ++ i.2) []
  l ++ List.replicate (n - l.length) idleBlock

/-- The codewords of a run of blocks, 80 to a codeword, with the bits of `masks` (codeword, mask) inverted after coding (R41,
R65), and the scrambler's register behind them. -/
def lineCodewords (reg : Nat) (blocks : List Block) (masks : List (Nat × Nat)) : List Nat × Nat :=
  (List.range (blocks.length / 80)).foldl (fun (acc : List Nat × Nat) k =>
    let r := encodeCodeword acc.2 ((blocks.drop (80 * k)).take 80)
    (acc.1 ++ [(masks.filter (fun m => m.1 == k)).foldl (fun w m => w ^^^ m.2) r.1], r.2)) ([], reg)

/-- The blocks that the decoder passes on of a codeword: corrected and descrambled, with sync header 0b00 where it could not be
corrected (R43); and the descrambler's register behind it. -/
def passOn (reg cw : Nat) (dec : Option (List Nat × List (Nat × Nat))) : List Block × Nat :=
  let w := match dec with | some d => ofSymbols d.1 | none => cw
  (List.range 80).foldl (fun (acc : List Block × Nat) k =>
    let p := descramble acc.2 (cwPayload w k)
    (acc.1 ++ [(if dec.isSome then cwHeader w k else 0, p.1)], p.2)) ([], reg)

/-! ### Test patterns (R63, R64) -/

/-- The next bit of a pattern generator, 1 for PRBS31 and otherwise PRBS13Q, whose newest bit is bit 0. PRBS13Q is the sequence
of x^13 + x^12 + x^2 + x + 1, two bits a symbol under the Gray map: IEEE 802.3 clause 120 as this model knows it, for the spec
names it alone (PRESUMED, log entry 112). -/
def prbsNext (pat reg : Nat) : Nat :=
  if pat = 1 then (reg / 2 ^ 27 + reg / 2 ^ 30) % 2 else (reg + reg / 2 + reg / 2 ^ 11 + reg / 2 ^ 12) % 2

/-- n bits of a pattern, the first in bit 0, and the generator's register behind them. -/
def prbsBits (pat : Nat) : Nat → Nat → Nat × Nat
  | 0, reg => (0, reg)
  | n + 1, reg =>
    let b := prbsNext pat reg
    let r := prbsBits pat n ((reg * 2 + b) % 2 ^ 31)
    (b + 2 * r.1, r.2)

/-- The checker of a lane (R63): the last 31 bits of its pattern, how many symbols in a row were right while it seeks lock, and
in lock the symbols of the 1,024 under way and those of them in error. -/
structure Checker where
  reg : Nat
  run : Nat
  n : Nat
  bad : Nat
  deriving DecidableEq, Repr

def Checker.reset : Checker := { reg := 0, run := 0, n := 0, bad := 0 }

/-- One symbol at a checker (R63): the checker, whether it is locked, and the bit errors that it counts. Unlocked it seeds itself
from what it receives and locks after 1,024 symbols in a row without error; locked it loses lock as soon as 256 of the 1,024
symbols under way are in error, the runs of 1,024 counted from lock on (DESIGN CHOICE, log entry 124). -/
def Checker.symbol (pat : Nat) (k : Checker) (locked : Bool) (first second : Nat) : Checker × Bool × Nat :=
  let p := prbsNext pat k.reg
  if locked then
    let r := (k.reg * 2 + p) % 2 ^ 31
    let q := prbsNext pat r
    let errs := (if p = first then 0 else 1) + (if q = second then 0 else 1)
    let bad := if errs = 0 then k.bad else k.bad + 1
    if 256 ≤ bad then ({ Checker.reset with reg := k.reg }, false, errs)
    else if 1024 ≤ k.n + 1 then ({ reg := (r * 2 + q) % 2 ^ 31, run := 0, n := 0, bad := 0 }, true, errs)
    else ({ reg := (r * 2 + q) % 2 ^ 31, run := 0, n := k.n + 1, bad }, true, errs)
  else
    let r := (k.reg * 2 + first) % 2 ^ 31
    let run := if p = first ∧ prbsNext pat r = second then k.run + 1 else 0
    ({ reg := (r * 2 + second) % 2 ^ 31, run, n := 0, bad := 0 }, decide (1024 ≤ run), 0)

/-- The symbols of a stretch of received bits at a checker. -/
def Checker.bits (pat : Nat) (k : Checker) (locked : Bool) (n bits : Nat) : Checker × Bool × Nat :=
  (List.range n).foldl (fun (st : Checker × Bool × Nat) i =>
    let r := st.1.symbol pat st.2.1 (bits / 2 ^ (2 * i) % 2) (bits / 2 ^ (2 * i + 1) % 2)
    (r.1, r.2.1, st.2.2 + r.2.2)) (k, locked, 0)

/-! ### The client coding (R58, R59)

The spec names IEEE 802.3 clause 119 and does not set it out; what of it stands here is that standard as this model knows it
(PRESUMED, log entry 112). -/

/-- The bits of PCS lane i among the bits of a codeword time: one bit of each of the 16 lanes in turn (R58). -/
def pcsLane (bits i : Nat) : Nat := ofBits ((List.range 340).map (fun k => bits / 2 ^ (16 * k + i) % 2 == 1))

/-- The 340 bits of PCS lane i for the newest codeword time, delayed by a number of bits, out of the codeword times received,
newest first. -/
def deskewed (hist : List Nat) (i delay : Nat) : Nat :=
  let stream := hist.foldr (fun (bits : Nat) (acc : Nat × Nat) => (acc.1 + 2 ^ acc.2 * pcsLane bits i, acc.2 + 340)) (0, 0)
  if stream.2 < 340 + delay then 0 else stream.1 / 2 ^ (stream.2 - 340 - delay) % 2 ^ 340

/-- Codeword A (0) or B (1) of a pair out of the 680 bits of each PCS lane: the two alternate between the even and the odd lanes
from symbol column to symbol column. -/
def clientWord (lanes : List Nat) (which : Nat) : List Nat :=
  (List.range 68).flatMap (fun k => (List.range 8).map (fun j =>
    lanes.getD (2 * j + (k + which) % 2) 0 / 2 ^ (10 * k) % 1024))

/-- The 40 blocks of 257 bits of a pair of corrected codewords, their message symbols in turn. -/
def clientBlocks (a b : List Nat) : List Nat :=
  let bits := ofSymbols ((List.range 514).flatMap (fun i => [a.getD i 0, b.getD i 0]))
  (List.range 40).map (fun k => bits / 2 ^ (257 * k) % 2 ^ 257)

/-- The 257 bits of a block descrambled, and the register behind them. -/
def descramble257 (reg v : Nat) : Nat × Nat :=
  (List.range 257).foldl (fun (st : Nat × Nat) i =>
    let b := v / 2 ^ i % 2
    let o := (b + st.2 / 2 ^ 38 % 2 + st.2 / 2 ^ 57 % 2) % 2
    (st.1 + o * 2 ^ i, (st.2 * 2 + b) % 2 ^ 58)) (0, reg)

/-- The high half of a control block's type by its low half, which transcoding leaves out of the first control block. -/
def typeHigh (low : Nat) : Nat :=
  (([0x1E, 0x2D, 0x33, 0x4B, 0x55, 0x66, 0x78, 0x87, 0x99, 0xAA, 0xB4, 0xCC, 0xD2, 0xE1, 0xFF].find? (fun t => t % 16 == low)).getD 0) / 16

/-- The four 66-bit blocks of a block of 257 bits (256b/257b transcoding). -/
def transcoded (v : Nat) : List Block :=
  if v % 2 = 1 then (List.range 4).map (fun i => (1, v / 2 ^ (1 + 64 * i) % 2 ^ 64))
  else
    let isData (i : Nat) : Bool := v / 2 ^ (1 + i) % 2 == 1
    match (List.range 4).find? (fun i => !isData i) with
    | none => List.replicate 4 (3, 0)
    | some c =>
      let body := v / 2 ^ 5
      let at_ := 64 * c + 4
      let full := body % 2 ^ at_ + typeHigh (body / 2 ^ (64 * c) % 16) * 2 ^ at_ + body / 2 ^ at_ * 2 ^ (at_ + 4)
      (List.range 4).map (fun i => (if isData i then 1 else 2, full / 2 ^ (64 * i) % 2 ^ 64))

end Sys2Proof.Machine
end

