-- ==== Sys2Proof/Machine/Fields.lean ====
section
/-!
DEFINITION. The fields of the registers by name, REGISTER_FIELD, as the field tables of the chapters give them
(R3, R4): the BAR0 offset of the register and the field's bits. A register whose one field is the whole of it
is named by the register alone. Index arguments stand in the order in which the register's name has them.
-/

namespace Sys2Proof.Machine

/-- A field of a register: the register's BAR0 offset and the field's highest and lowest bit. -/
structure Fld where
  off : Nat
  hi : Nat
  lo : Nat
  deriving DecidableEq, Repr

namespace F

def DEV_ID : Fld := ⟨0x0, 31, 0⟩
def DEV_ID_PART : Fld := ⟨0x0, 31, 16⟩
def DEV_ID_FAMILY : Fld := ⟨0x0, 15, 8⟩
def DEV_STEP : Fld := ⟨0x4, 31, 0⟩
def DEV_STEP_MAJOR : Fld := ⟨0x4, 7, 4⟩
def DEV_STEP_MINOR : Fld := ⟨0x4, 3, 0⟩
def DEV_WHOAMI : Fld := ⟨0x8, 4, 0⟩
def DEV_TICK_LO : Fld := ⟨0x10, 31, 0⟩
def DEV_TICK_HI : Fld := ⟨0x14, 15, 0⟩
def DEV_TICK_STEPS : Fld := ⟨0x18, 15, 0⟩
def TICK_COMMIT : Fld := ⟨0x100, 31, 0⟩
def TICK_COMMIT_CH_BY_OCT : Fld := ⟨0x100, 17, 17⟩
def TICK_COMMIT_CH_BY_MASK : Fld := ⟨0x100, 16, 16⟩
def TICK_COMMIT_OCT_MASK : Fld := ⟨0x100, 15, 8⟩
def TICK_COMMIT_DEV : Fld := ⟨0x100, 0, 0⟩
def TICK_COMMIT_CHM0 : Fld := ⟨0x104, 31, 0⟩
def TICK_COMMIT_CHM1 : Fld := ⟨0x108, 31, 0⟩
def TICK_COMMIT_STAT : Fld := ⟨0x10C, 31, 0⟩
def TICK_COMMIT_STAT_PENDING : Fld := ⟨0x10C, 31, 31⟩
def TICK_COMMIT_STAT_LATE : Fld := ⟨0x10C, 30, 30⟩
def TICK_COMMIT_STAT_REFUSED_OCT : Fld := ⟨0x10C, 23, 16⟩
def TICK_COMMIT_STAT_DEFERRED_OCT : Fld := ⟨0x10C, 15, 8⟩
def TICK_COMMIT_STAT_SEQ : Fld := ⟨0x10C, 7, 0⟩
def TICK_COMMIT_TICK : Fld := ⟨0x110, 31, 0⟩
def DEV_DESC_FULL : Fld := ⟨0x200, 31, 0⟩
def IMG_STAT : Fld := ⟨0x10000, 31, 0⟩
def IMG_STAT_PHASE : Fld := ⟨0x10000, 31, 28⟩
def IMG_STAT_SLOT : Fld := ⟨0x10000, 27, 27⟩
def IMG_STAT_FALLBACK : Fld := ⟨0x10000, 26, 26⟩
def IMG_STAT_DEGRADED : Fld := ⟨0x10000, 25, 25⟩
def IMG_STAT_FUSE_SVN : Fld := ⟨0x10000, 22, 16⟩
def IMG_STAT_SVN : Fld := ⟨0x10000, 14, 8⟩
def IMG_CAUSE : Fld := ⟨0x10004, 31, 0⟩
def IMG_CAUSE_CAUSE_B : Fld := ⟨0x10004, 15, 8⟩
def IMG_CAUSE_CAUSE_A : Fld := ⟨0x10004, 7, 0⟩
def IMG_BUILD : Fld := ⟨0x10008, 31, 0⟩
def IMG_FUSE_CTL : Fld := ⟨0x1000C, 31, 0⟩
def IMG_FUSE_CTL_ADVANCE : Fld := ⟨0x1000C, 31, 31⟩
def IMG_FUSE_CTL_BUSY : Fld := ⟨0x1000C, 30, 30⟩
def IMG_FUSE_CTL_REFUSED : Fld := ⟨0x1000C, 29, 29⟩
def IMG_VERIFY : Fld := ⟨0x10010, 31, 0⟩
def IMG_VERIFY_GO : Fld := ⟨0x10010, 31, 31⟩
def IMG_VERIFY_BUSY : Fld := ⟨0x10010, 30, 30⟩
def IMG_VERIFY_PASS : Fld := ⟨0x10010, 29, 29⟩
def IMG_VERIFY_SLOT : Fld := ⟨0x10010, 28, 28⟩
def IMG_VERIFY_SVN : Fld := ⟨0x10010, 22, 16⟩
def IMG_VERIFY_CAUSE : Fld := ⟨0x10010, 7, 0⟩
def IMG_CTL : Fld := ⟨0x10014, 31, 0⟩
def IMG_CTL_RESTART : Fld := ⟨0x10014, 31, 31⟩
def IMG_CTL_KEY : Fld := ⟨0x10014, 7, 0⟩
def IMG_REC_SKIP : Fld := ⟨0x10018, 31, 0⟩
def IMG_RDIG_CNT_LO : Fld := ⟨0x1001C, 31, 0⟩
def IMG_RDIG_CNT_HI : Fld := ⟨0x10020, 31, 0⟩
def IMG_MDIG_W (k : Nat) : Fld := ⟨0x10040 + 4 * k, 31, 0⟩
def IMG_RDIG_W (k : Nat) : Fld := ⟨0x10080 + 4 * k, 31, 0⟩
def IMG_FL_CTL : Fld := ⟨0x10100, 31, 0⟩
def IMG_FL_CTL_GO : Fld := ⟨0x10100, 31, 31⟩
def IMG_FL_CTL_BUSY : Fld := ⟨0x10100, 30, 30⟩
def IMG_FL_CTL_ERR : Fld := ⟨0x10100, 29, 29⟩
def IMG_FL_CTL_OP : Fld := ⟨0x10100, 28, 27⟩
def IMG_FL_CTL_LEN : Fld := ⟨0x10100, 7, 0⟩
def IMG_FL_ADDR : Fld := ⟨0x10104, 31, 0⟩
def IMG_FL_BUF (k : Nat) : Fld := ⟨0x10200 + 4 * k, 31, 0⟩
def IMG_ATT_CTL : Fld := ⟨0x10300, 31, 0⟩
def IMG_ATT_CTL_GO : Fld := ⟨0x10300, 31, 31⟩
def IMG_ATT_CTL_BUSY : Fld := ⟨0x10300, 30, 30⟩
def IMG_ATT_CTL_DONE : Fld := ⟨0x10300, 29, 29⟩
def IMG_ATT_NONCE_W (k : Nat) : Fld := ⟨0x10304 + 4 * k, 31, 0⟩
def IMG_ATT_BIND_W (k : Nat) : Fld := ⟨0x10324 + 4 * k, 31, 0⟩
def IMG_ATT_BUF (k : Nat) : Fld := ⟨0x11000 + 4 * k, 31, 0⟩
def IMG_IDC_BUF (k : Nat) : Fld := ⟨0x13000 + 4 * k, 31, 0⟩
def PWR_FEED_STAT : Fld := ⟨0x20000, 31, 0⟩
def PWR_FEED_STAT_MAIN : Fld := ⟨0x20000, 31, 31⟩
def PWR_FEED_STAT_USE : Fld := ⟨0x20000, 30, 30⟩
def PWR_FEED_STAT_A_OK : Fld := ⟨0x20000, 29, 29⟩
def PWR_FEED_STAT_B_OK : Fld := ⟨0x20000, 28, 28⟩
def PWR_FEED_STAT_HOLDUP : Fld := ⟨0x20000, 27, 27⟩
def PWR_FEED_STAT_MAIN_OK_S : Fld := ⟨0x20000, 15, 0⟩
def PWR_FEED_V : Fld := ⟨0x20004, 31, 0⟩
def PWR_FEED_V_VB : Fld := ⟨0x20004, 31, 16⟩
def PWR_FEED_V_VA : Fld := ⟨0x20004, 15, 0⟩
def PWR_FEED_CFG : Fld := ⟨0x20008, 7, 0⟩
def PWR_FEED_SW : Fld := ⟨0x2000C, 31, 0⟩
def PWR_INPUT : Fld := ⟨0x20010, 31, 0⟩
def PWR_INPUT_PEAK_W : Fld := ⟨0x20010, 31, 16⟩
def PWR_INPUT_NOW_W : Fld := ⟨0x20010, 15, 0⟩
def PWR_RET_FAIL : Fld := ⟨0x20014, 31, 0⟩
def PWR_SLEEP_DROP : Fld := ⟨0x20018, 31, 0⟩
def PWR_DS_CTL : Fld := ⟨0x20020, 31, 0⟩
def PWR_DS_CTL_GO : Fld := ⟨0x20020, 31, 31⟩
def PWR_DS_CTL_REFUSER : Fld := ⟨0x20020, 18, 16⟩
def PWR_DS_CTL_RESULT : Fld := ⟨0x20020, 1, 0⟩
def PWR_VETO : Fld := ⟨0x20024, 5, 0⟩
def PWR_ACCT (s k : Nat) : Fld := ⟨0x20400 + 64 * s + 4 * k, 31, 0⟩
def PEGSEL : Fld := ⟨0x30000, 3, 0⟩
def PEG_CTL : Fld := ⟨0x30100, 31, 0⟩
def PEG_CTL_CAPTURE : Fld := ⟨0x30100, 31, 31⟩
def PEG_CTL_SET : Fld := ⟨0x30100, 30, 30⟩
def PEG_CTL_STEP : Fld := ⟨0x30100, 29, 29⟩
def PEG_CAP_SL : Fld := ⟨0x30104, 31, 0⟩
def PEG_CAP_SH : Fld := ⟨0x30108, 15, 0⟩
def PEG_CAP_NS : Fld := ⟨0x3010C, 29, 0⟩
def PEG_CAP_FR : Fld := ⟨0x30110, 15, 0⟩
def PEG_CAP0_SL : Fld := ⟨0x30114, 31, 0⟩
def PEG_CAP0_SH : Fld := ⟨0x30118, 15, 0⟩
def PEG_CAP0_NS : Fld := ⟨0x3011C, 29, 0⟩
def PEG_CAP0_FR : Fld := ⟨0x30120, 15, 0⟩
def PEG_SET_SL : Fld := ⟨0x30124, 31, 0⟩
def PEG_SET_SH : Fld := ⟨0x30128, 15, 0⟩
def PEG_SET_NS : Fld := ⟨0x3012C, 29, 0⟩
def PEG_RATE_SET : Fld := ⟨0x30130, 31, 0⟩
def PEG_RATE_NOW : Fld := ⟨0x30134, 31, 0⟩
def PEG_SRV_CFG : Fld := ⟨0x30138, 31, 0⟩
def PEG_SRV_CFG_EN : Fld := ⟨0x30138, 31, 31⟩
def PEG_SRV_CFG_STEP_EN : Fld := ⟨0x30138, 30, 30⟩
def PEG_SRV_CFG_FREE_LOCKED : Fld := ⟨0x30138, 29, 29⟩
def PEG_SRV_CFG_SOURCE : Fld := ⟨0x30138, 28, 26⟩
def PEG_SRV_CFG_SRC_IDX : Fld := ⟨0x30138, 25, 20⟩
def PEG_SRV_CFG_LOCK_N : Fld := ⟨0x30138, 15, 8⟩
def PEG_SRV_KP : Fld := ⟨0x3013C, 31, 0⟩
def PEG_SRV_KI : Fld := ⟨0x30140, 31, 0⟩
def PEG_SRV_THR : Fld := ⟨0x30144, 31, 0⟩
def PEG_SRV_THR_STEP_THR : Fld := ⟨0x30144, 31, 16⟩
def PEG_SRV_THR_LOCK_THR : Fld := ⟨0x30144, 15, 0⟩
def PEG_SRV_TMO : Fld := ⟨0x30148, 19, 0⟩
def PEG_SRV_FWOFS_LO : Fld := ⟨0x3014C, 31, 0⟩
def PEG_SRV_FWOFS_HI : Fld := ⟨0x30150, 31, 0⟩
def PEG_SRV_STAT : Fld := ⟨0x30154, 31, 0⟩
def PEG_SRV_STAT_STATE : Fld := ⟨0x30154, 31, 30⟩
def PEG_SRV_STAT_SRC_ERR : Fld := ⟨0x30154, 29, 29⟩
def PEG_SRV_STAT_TMV : Fld := ⟨0x30154, 28, 28⟩
def PEG_SRV_LAST : Fld := ⟨0x30158, 31, 0⟩
def PEG_SRV_INTEG : Fld := ⟨0x3015C, 31, 0⟩
def PEG_SRV_STEPS : Fld := ⟨0x30160, 31, 0⟩
def PEG_SRV_SAMPLES : Fld := ⟨0x30164, 31, 0⟩
def PEG_PPSIN_CFG (i : Nat) : Fld := ⟨0x30800 + 32 * i, 31, 0⟩
def PEG_PPSIN_CFG_EN (i : Nat) : Fld := ⟨0x30800 + 32 * i, 31, 31⟩
def PEG_PPSIN_CFG_POL (i : Nat) : Fld := ⟨0x30800 + 32 * i, 30, 30⟩
def PEG_PPSIN_CFG_PEG (i : Nat) : Fld := ⟨0x30800 + 32 * i, 29, 26⟩
def PEG_PPSIN_DLY (i : Nat) : Fld := ⟨0x30804 + 32 * i, 31, 0⟩
def PEG_PPSIN_STAT (i : Nat) : Fld := ⟨0x30808 + 32 * i, 31, 31⟩
def PEG_PPSIN_EXTRA (i : Nat) : Fld := ⟨0x3080C + 32 * i, 31, 0⟩
def PEG_PPSIN_EDGE_SL (i : Nat) : Fld := ⟨0x30810 + 32 * i, 31, 0⟩
def PEG_PPSIN_EDGE_SH (i : Nat) : Fld := ⟨0x30814 + 32 * i, 15, 0⟩
def PEG_PPSIN_EDGE_NS (i : Nat) : Fld := ⟨0x30818 + 32 * i, 29, 0⟩
def PEG_PPSOUT_CFG (o : Nat) : Fld := ⟨0x30840 + 16 * o, 31, 0⟩
def PEG_PPSOUT_CFG_EN (o : Nat) : Fld := ⟨0x30840 + 16 * o, 31, 31⟩
def PEG_PPSOUT_CFG_POL (o : Nat) : Fld := ⟨0x30840 + 16 * o, 30, 30⟩
def PEG_PPSOUT_CFG_SQUELCH (o : Nat) : Fld := ⟨0x30840 + 16 * o, 29, 28⟩
def PEG_PPSOUT_CFG_PEG (o : Nat) : Fld := ⟨0x30840 + 16 * o, 27, 24⟩
def PEG_PPSOUT_CFG_WIDTH_US (o : Nat) : Fld := ⟨0x30840 + 16 * o, 23, 0⟩
def PEG_PPSOUT_OFS (o : Nat) : Fld := ⟨0x30844 + 16 * o, 29, 0⟩
def PEG_PPSOUT_CAL (o : Nat) : Fld := ⟨0x30848 + 16 * o, 15, 0⟩
def PEG_TOD_CFG : Fld := ⟨0x30860, 31, 0⟩
def PEG_TOD_CFG_OUT_EN : Fld := ⟨0x30860, 31, 31⟩
def PEG_TOD_CFG_IN_EN : Fld := ⟨0x30860, 30, 30⟩
def PEG_TOD_CFG_AUTO : Fld := ⟨0x30860, 29, 29⟩
def PEG_TOD_CFG_PPSIN : Fld := ⟨0x30860, 28, 28⟩
def PEG_TOD_CFG_PPSOUT : Fld := ⟨0x30860, 27, 27⟩
def PEG_TOD_CFG_BAUD : Fld := ⟨0x30860, 25, 24⟩
def PEG_TOD_CFG_OUT_DLY : Fld := ⟨0x30860, 23, 16⟩
def PEG_TOD_OUT : Fld := ⟨0x30864, 31, 0⟩
def PEG_TOD_OUT_UTC_OFS : Fld := ⟨0x30864, 31, 16⟩
def PEG_TOD_OUT_DOMAIN : Fld := ⟨0x30864, 15, 8⟩
def PEG_TOD_OUT_LEAP : Fld := ⟨0x30864, 1, 0⟩
def PEG_TOD_IN (k : Nat) : Fld := ⟨0x30868 + 4 * k, 31, 0⟩
def PEG_TOD_STAT : Fld := ⟨0x30878, 31, 0⟩
def PEG_TOD_STAT_NEW : Fld := ⟨0x30878, 31, 31⟩
def PEG_TOD_STAT_ASSOC : Fld := ⟨0x30878, 30, 30⟩
def PEG_TOD_ERR : Fld := ⟨0x3087C, 31, 0⟩
def PEG_TOD_STEPS : Fld := ⟨0x30880, 31, 0⟩
def PEG_REF_CFG : Fld := ⟨0x30890, 31, 0⟩
def PEG_REF_CFG_REVERT : Fld := ⟨0x30890, 31, 31⟩
def PEG_REF_CFG_PREFER : Fld := ⟨0x30890, 30, 30⟩
def PEG_REF_CFG_USE10 : Fld := ⟨0x30890, 29, 29⟩
def PEG_REF_STAT : Fld := ⟨0x30894, 31, 0⟩
def PEG_REF_STAT_SEL : Fld := ⟨0x30894, 31, 30⟩
def PEG_REF_STAT_A_OK : Fld := ⟨0x30894, 29, 29⟩
def PEG_REF_STAT_B_OK : Fld := ⟨0x30894, 28, 28⟩
def PEG_REF_STAT_R10_OK : Fld := ⟨0x30894, 27, 27⟩
def PEG_REF_SW : Fld := ⟨0x30898, 31, 0⟩
def CHSEL : Fld := ⟨0x40000, 31, 0⟩
def CHSEL_BCAST : Fld := ⟨0x40000, 9, 8⟩
def CHSEL_CH : Fld := ⟨0x40000, 5, 0⟩
def CH_ROLE : Fld := ⟨0x40100, 31, 0⟩
def CH_ROLE_ROLE_NOW : Fld := ⟨0x40100, 5, 4⟩
def CH_ROLE_ROLE : Fld := ⟨0x40100, 1, 0⟩
def CH_LTICK_OFS : Fld := ⟨0x40104, 31, 0⟩
def CH_LTICK_OFS_VALID : Fld := ⟨0x40104, 31, 31⟩
def CH_LTICK_OFS_OFS : Fld := ⟨0x40104, 17, 0⟩
def CH_LTICK_NUM : Fld := ⟨0x40108, 31, 0⟩
def CH_LTICK_WRAP : Fld := ⟨0x4010C, 15, 0⟩
def CH_ROLE_DISC : Fld := ⟨0x40110, 31, 0⟩
def CH_LANE_STAT : Fld := ⟨0x40200, 31, 0⟩
def CH_LANE_STAT_LOCK_LOSS : Fld := ⟨0x40200, 31, 24⟩
def CH_LANE_STAT_SB_CLAMP : Fld := ⟨0x40200, 17, 17⟩
def CH_LANE_STAT_EQ_CLAMP : Fld := ⟨0x40200, 16, 16⟩
def CH_LANE_STAT_PWR : Fld := ⟨0x40200, 11, 10⟩
def CH_LANE_STAT_FEC : Fld := ⟨0x40200, 3, 3⟩
def CH_LANE_STAT_CWL : Fld := ⟨0x40200, 2, 2⟩
def CH_LANE_STAT_CDR : Fld := ⟨0x40200, 1, 1⟩
def CH_LANE_STAT_SIG : Fld := ⟨0x40200, 0, 0⟩
def CH_LANE_CFG : Fld := ⟨0x40204, 31, 0⟩
def CH_LANE_CFG_DEEP_OFF : Fld := ⟨0x40204, 5, 5⟩
def CH_LANE_CFG_TX_SQUELCH : Fld := ⟨0x40204, 4, 4⟩
def CH_LANE_CFG_RX_POL : Fld := ⟨0x40204, 1, 1⟩
def CH_LANE_CFG_TX_POL : Fld := ⟨0x40204, 0, 0⟩
def CH_EQ_TX : Fld := ⟨0x40208, 31, 0⟩
def CH_EQ_TX_POST1 : Fld := ⟨0x40208, 31, 24⟩
def CH_EQ_TX_MAIN : Fld := ⟨0x40208, 23, 16⟩
def CH_EQ_TX_PRE1 : Fld := ⟨0x40208, 15, 8⟩
def CH_EQ_TX_PRE2 : Fld := ⟨0x40208, 7, 0⟩
def CH_EQ_RX0 : Fld := ⟨0x4020C, 31, 0⟩
def CH_EQ_RX0_DFE1 : Fld := ⟨0x4020C, 31, 24⟩
def CH_EQ_RX0_VGA : Fld := ⟨0x4020C, 21, 16⟩
def CH_EQ_RX0_CTLE_LF : Fld := ⟨0x4020C, 11, 8⟩
def CH_EQ_RX0_CTLE_PEAK : Fld := ⟨0x4020C, 4, 0⟩
def CH_EQ_RX1 : Fld := ⟨0x40210, 31, 0⟩
def CH_EQ_RX1_DFE5 : Fld := ⟨0x40210, 31, 24⟩
def CH_EQ_RX1_DFE4 : Fld := ⟨0x40210, 23, 16⟩
def CH_EQ_RX1_DFE3 : Fld := ⟨0x40210, 15, 8⟩
def CH_EQ_RX1_DFE2 : Fld := ⟨0x40210, 7, 0⟩
def CH_SB_CFG : Fld := ⟨0x40214, 31, 0⟩
def CH_SB_CFG_RR_POL : Fld := ⟨0x40214, 31, 31⟩
def CH_SB_CFG_BE_POL : Fld := ⟨0x40214, 30, 30⟩
def CH_SB_CFG_RST_LEN : Fld := ⟨0x40214, 29, 24⟩
def CH_SB_CFG_RST_OFS : Fld := ⟨0x40214, 21, 16⟩
def CH_SB_CFG_EN_LAG : Fld := ⟨0x40214, 13, 8⟩
def CH_SB_CFG_EN_LEAD : Fld := ⟨0x40214, 6, 0⟩
def CH_EYE : Fld := ⟨0x40218, 31, 0⟩
def CH_EYE_THR_V : Fld := ⟨0x40218, 31, 24⟩
def CH_EYE_MARGIN_H : Fld := ⟨0x40218, 15, 8⟩
def CH_EYE_MARGIN_V : Fld := ⟨0x40218, 7, 0⟩
def CH_FEC_CORR : Fld := ⟨0x4021C, 31, 0⟩
def CH_FEC_UNCORR : Fld := ⟨0x40220, 31, 0⟩
def CH_TF_CFG : Fld := ⟨0x40300, 31, 0⟩
def CH_TF_CFG_MAX_LEN : Fld := ⟨0x40300, 29, 16⟩
def CH_TF_CFG_DOMAIN : Fld := ⟨0x40300, 15, 8⟩
def CH_TF_CFG_TID_VALID : Fld := ⟨0x40300, 5, 5⟩
def CH_TF_CFG_TID : Fld := ⟨0x40300, 4, 0⟩
def CH_TF_STAT : Fld := ⟨0x40304, 31, 0⟩
def CH_TF_STAT_ALIGN : Fld := ⟨0x40304, 31, 30⟩
def CH_TF_STAT_SFP : Fld := ⟨0x40304, 15, 10⟩
def CH_TF_STAT_LAST_J : Fld := ⟨0x40304, 1, 0⟩
def CH_SRQ_TX : Fld := ⟨0x40308, 31, 0⟩
def CH_SRQ_TX_SRQ1 : Fld := ⟨0x40308, 15, 8⟩
def CH_SRQ_TX_SRQ2 : Fld := ⟨0x40308, 7, 0⟩
def CH_DEF_STAT : Fld := ⟨0x4030C, 31, 0⟩
def CH_DEF_STAT_SRQ_INC : Fld := ⟨0x4030C, 10, 10⟩
def CH_DEF_STAT_LOB_ANY : Fld := ⟨0x4030C, 9, 9⟩
def CH_DEF_STAT_RDI : Fld := ⟨0x4030C, 8, 8⟩
def CH_DEF_STAT_SF : Fld := ⟨0x4030C, 7, 7⟩
def CH_DEF_STAT_SD_MARGIN : Fld := ⟨0x4030C, 6, 6⟩
def CH_DEF_STAT_SD_BER : Fld := ⟨0x4030C, 5, 5⟩
def CH_DEF_STAT_SD : Fld := ⟨0x4030C, 4, 4⟩
def CH_DEF_STAT_LOSF : Fld := ⟨0x4030C, 3, 3⟩
def CH_DEF_STAT_LOF : Fld := ⟨0x4030C, 2, 2⟩
def CH_DEF_STAT_LOCW : Fld := ⟨0x4030C, 1, 1⟩
def CH_DEF_STAT_LOS : Fld := ⟨0x4030C, 0, 0⟩
def CH_DEF_LATCH : Fld := ⟨0x40310, 10, 0⟩
def CH_DEF_LOB : Fld := ⟨0x40314, 31, 0⟩
def CH_DEF_RDIT : Fld := ⟨0x40318, 31, 0⟩
def CH_DEF_THR : Fld := ⟨0x4031C, 31, 0⟩
def CH_DEF_THR_SF_UNC : Fld := ⟨0x4031C, 23, 16⟩
def CH_DEF_THR_SD_EXP : Fld := ⟨0x4031C, 11, 8⟩
def CH_DEF_THR_SD_MANT : Fld := ⟨0x4031C, 3, 0⟩
def CH_DEF_INT_LOS : Fld := ⟨0x40320, 31, 0⟩
def CH_DEF_INT_LOS_CLEAR : Fld := ⟨0x40320, 31, 16⟩
def CH_DEF_INT_LOS_SET : Fld := ⟨0x40320, 15, 0⟩
def CH_DEF_INT_LOCW : Fld := ⟨0x40324, 31, 0⟩
def CH_DEF_INT_LOCW_CLEAR : Fld := ⟨0x40324, 31, 16⟩
def CH_DEF_INT_LOCW_SET : Fld := ⟨0x40324, 15, 0⟩
def CH_DEF_INT_LOF : Fld := ⟨0x40328, 31, 0⟩
def CH_DEF_INT_LOF_CLEAR : Fld := ⟨0x40328, 31, 16⟩
def CH_DEF_INT_LOF_SET : Fld := ⟨0x40328, 15, 0⟩
def CH_DEF_INT_LOSF : Fld := ⟨0x4032C, 31, 0⟩
def CH_DEF_INT_LOSF_CLEAR : Fld := ⟨0x4032C, 31, 16⟩
def CH_DEF_INT_LOSF_SET : Fld := ⟨0x4032C, 15, 0⟩
def CH_DEF_INT_SD : Fld := ⟨0x40330, 31, 0⟩
def CH_DEF_INT_SD_CLEAR : Fld := ⟨0x40330, 31, 16⟩
def CH_DEF_INT_SD_SET : Fld := ⟨0x40330, 15, 0⟩
def CH_DEF_INT_SF : Fld := ⟨0x40334, 31, 0⟩
def CH_DEF_INT_SF_CLEAR : Fld := ⟨0x40334, 31, 16⟩
def CH_DEF_INT_SF_SET : Fld := ⟨0x40334, 15, 0⟩
def CH_DEF_INT_LOB : Fld := ⟨0x40338, 31, 0⟩
def CH_DEF_INT_LOB_CLEAR : Fld := ⟨0x40338, 31, 16⟩
def CH_DEF_INT_LOB_SET : Fld := ⟨0x40338, 15, 0⟩
def CH_DEF_INT_RDI : Fld := ⟨0x4033C, 31, 0⟩
def CH_DEF_INT_RDI_CLEAR : Fld := ⟨0x4033C, 31, 16⟩
def CH_DEF_INT_RDI_SET : Fld := ⟨0x4033C, 15, 0⟩
def CH_BM_CTL : Fld := ⟨0x40340, 31, 0⟩
def CH_BM_CTL_TX_POST : Fld := ⟨0x40340, 31, 31⟩
def CH_BM_CTL_RX_POP : Fld := ⟨0x40340, 30, 30⟩
def CH_BM_CTL_TX_LEVEL : Fld := ⟨0x40340, 28, 24⟩
def CH_BM_CTL_RX_LEVEL : Fld := ⟨0x40340, 20, 16⟩
def CH_BM_CTL_RX_DROP : Fld := ⟨0x40340, 15, 8⟩
def CH_BM_CTL_TX_FULL : Fld := ⟨0x40340, 7, 0⟩
def CH_TF_FAW_MISS : Fld := ⟨0x40344, 31, 0⟩
def CH_TF_FALSE_CAND : Fld := ⟨0x40348, 31, 0⟩
def CH_TF_HCRC_ERR : Fld := ⟨0x4034C, 31, 0⟩
def CH_TF_BCRC_ERR : Fld := ⟨0x40350, 31, 0⟩
def CH_TF_JC_POS : Fld := ⟨0x40354, 31, 0⟩
def CH_TF_JC_NEG : Fld := ⟨0x40358, 31, 0⟩
def CH_TF_JC_UNDEC : Fld := ⟨0x4035C, 31, 0⟩
def CH_TF_LHDR_ERR : Fld := ⟨0x40360, 31, 0⟩
def CH_TF_FRM_DISC : Fld := ⟨0x40364, 31, 0⟩
def CH_TF_BADBLK : Fld := ⟨0x40368, 31, 0⟩
def CH_PM_ET : Fld := ⟨0x4036C, 31, 0⟩
def CH_PM_SET : Fld := ⟨0x40370, 31, 0⟩
def CH_BM_TXBUF (k : Nat) : Fld := ⟨0x40380 + 4 * k, 31, 0⟩
def CH_BM_RXBUF (k : Nat) : Fld := ⟨0x403C0 + 4 * k, 31, 0⟩
def CH_SRQ_RX (t : Nat) : Fld := ⟨0x40400 + 4 * t, 31, 0⟩
def CH_SRQ_RX_INCONS (t : Nat) : Fld := ⟨0x40400 + 4 * t, 31, 31⟩
def CH_SRQ_RX_VALID (t : Nat) : Fld := ⟨0x40400 + 4 * t, 30, 30⟩
def CH_SRQ_RX_SRQ1 (t : Nat) : Fld := ⟨0x40400 + 4 * t, 15, 8⟩
def CH_SRQ_RX_SRQ2 (t : Nat) : Fld := ⟨0x40400 + 4 * t, 7, 0⟩
def CH_TREE_DEPTH : Fld := ⟨0x40480, 31, 0⟩
def CH_TREE_DEPTH_LEAD : Fld := ⟨0x40480, 31, 24⟩
def CH_TREE_DEPTH_DEPTH : Fld := ⟨0x40480, 22, 0⟩
def CH_TREE_CFG : Fld := ⟨0x40484, 31, 0⟩
def CH_TREE_CFG_LEAD_MIN : Fld := ⟨0x40484, 31, 24⟩
def CH_TREE_CFG_REFUSED : Fld := ⟨0x40484, 23, 23⟩
def CH_TREE_CFG_ATTEST_REQ : Fld := ⟨0x40484, 22, 22⟩
def CH_TREE_CFG_DISC_EN : Fld := ⟨0x40484, 21, 21⟩
def CH_TREE_CFG_TA_EN : Fld := ⟨0x40484, 20, 20⟩
def CH_TREE_CFG_DISC_SFP : Fld := ⟨0x40484, 19, 14⟩
def CH_TREE_CFG_CLASSIC_EVERY : Fld := ⟨0x40484, 13, 10⟩
def CH_TREE_CFG_TA_HALF : Fld := ⟨0x40484, 7, 0⟩
def CH_TREE_WDIFF : Fld := ⟨0x40488, 22, 0⟩
def CH_TUNE_MEAS0 : Fld := ⟨0x40490, 31, 0⟩
def CH_TUNE_MEAS0_VALID : Fld := ⟨0x40490, 31, 31⟩
def CH_TUNE_MEAS0_DISC : Fld := ⟨0x40490, 30, 30⟩
def CH_TUNE_MEAS0_RESULT : Fld := ⟨0x40490, 29, 28⟩
def CH_TUNE_MEAS0_TID : Fld := ⟨0x40490, 27, 23⟩
def CH_TUNE_MEAS0_OFS : Fld := ⟨0x40490, 22, 0⟩
def CH_TUNE_MEAS1 : Fld := ⟨0x40494, 31, 0⟩
def CH_TUNE_MSTAT : Fld := ⟨0x40498, 31, 0⟩
def CH_TUNE_MSTAT_LEVEL : Fld := ⟨0x40498, 20, 16⟩
def CH_TUNE_MSTAT_DROP : Fld := ⟨0x40498, 15, 8⟩
def CH_TUNE_MSTAT_EXTRA : Fld := ⟨0x40498, 7, 0⟩
def CH_TERM_CTL : Fld := ⟨0x404A0, 31, 0⟩
def CH_TERM_CTL_LEAD : Fld := ⟨0x404A0, 22, 16⟩
def CH_TERM_CTL_STATE : Fld := ⟨0x404A0, 2, 0⟩
def CH_TERM_EQD : Fld := ⟨0x404A4, 31, 0⟩
def CH_TERM_EQD_PEND : Fld := ⟨0x404A4, 31, 31⟩
def CH_TERM_EQD_LATE : Fld := ⟨0x404A4, 30, 30⟩
def CH_TERM_EQD_EQD : Fld := ⟨0x404A4, 21, 0⟩
def CH_TERM_EQD_AT : Fld := ⟨0x404A8, 31, 0⟩
def CH_TERM_EQD_NOW : Fld := ⟨0x404AC, 21, 0⟩
def CH_TERM_DISC : Fld := ⟨0x404B0, 31, 0⟩
def CH_TERM_DISC_ARM : Fld := ⟨0x404B0, 31, 31⟩
def CH_TERM_DISC_MODE : Fld := ⟨0x404B0, 30, 30⟩
def CH_TERM_DISC_DONE : Fld := ⟨0x404B0, 29, 29⟩
def CH_TERM_DISC_LTN : Fld := ⟨0x404B4, 31, 0⟩
def CH_TERM_DDN : Fld := ⟨0x404B8, 31, 0⟩
def CH_TERM_DDN_VALID : Fld := ⟨0x404B8, 31, 31⟩
def CH_TERM_DDN_DDN : Fld := ⟨0x404B8, 30, 0⟩
def CH_TERM_ASYM : Fld := ⟨0x404BC, 31, 0⟩
def CH_TREC_STATE (t : Nat) : Fld := ⟨0x40500 + 32 * t, 31, 0⟩
def CH_TREC_STATE_REFUSED (t : Nat) : Fld := ⟨0x40500 + 32 * t, 31, 31⟩
def CH_TREC_STATE_ATTEST_OK (t : Nat) : Fld := ⟨0x40500 + 32 * t, 8, 8⟩
def CH_TREC_STATE_TA (t : Nat) : Fld := ⟨0x40500 + 32 * t, 7, 7⟩
def CH_TREC_STATE_STATE (t : Nat) : Fld := ⟨0x40500 + 32 * t, 2, 0⟩
def CH_TREC_EQD (t : Nat) : Fld := ⟨0x40504 + 32 * t, 21, 0⟩
def CH_TREC_DRIFT (t : Nat) : Fld := ⟨0x40508 + 32 * t, 31, 0⟩
def CH_TREC_DRIFT_N (t : Nat) : Fld := ⟨0x40508 + 32 * t, 31, 24⟩
def CH_TREC_DRIFT_MEAN (t : Nat) : Fld := ⟨0x40508 + 32 * t, 15, 0⟩
def CH_TREC_SN0 (t : Nat) : Fld := ⟨0x4050C + 32 * t, 31, 0⟩
def CH_TREC_SN1 (t : Nat) : Fld := ⟨0x40510 + 32 * t, 31, 0⟩
def CH_GRANT_P (t : Nat) : Fld := ⟨0x40900 + 16 * t, 31, 0⟩
def CH_GRANT_P_BMS_POLL (t : Nat) : Fld := ⟨0x40900 + 16 * t, 31, 31⟩
def CH_GRANT_P_PROT (t : Nat) : Fld := ⟨0x40900 + 16 * t, 30, 30⟩
def CH_GRANT_P_WEIGHT (t : Nat) : Fld := ⟨0x40900 + 16 * t, 29, 22⟩
def CH_GRANT_P_PRED_MAX (t : Nat) : Fld := ⟨0x40900 + 16 * t, 21, 11⟩
def CH_GRANT_P_ASSURED (t : Nat) : Fld := ⟨0x40900 + 16 * t, 10, 0⟩
def CH_GRANT_M (t : Nat) : Fld := ⟨0x40904 + 16 * t, 10, 0⟩
def CH_GRANT_R (t : Nat) : Fld := ⟨0x40908 + 16 * t, 31, 0⟩
def CH_GRANT_R_DEMAND (t : Nat) : Fld := ⟨0x40908 + 16 * t, 31, 16⟩
def CH_GRANT_R_BMQ (t : Nat) : Fld := ⟨0x40908 + 16 * t, 15, 11⟩
def CH_GRANT_R_PRED_CW (t : Nat) : Fld := ⟨0x40908 + 16 * t, 10, 0⟩
def CH_GRANT_G (t : Nat) : Fld := ⟨0x4090C + 16 * t, 31, 0⟩
def CH_GRANT_G_VALID (t : Nat) : Fld := ⟨0x4090C + 16 * t, 31, 31⟩
def CH_GRANT_G_LEN (t : Nat) : Fld := ⟨0x4090C + 16 * t, 28, 16⟩
def CH_GRANT_G_START (t : Nat) : Fld := ⟨0x4090C + 16 * t, 12, 0⟩
def CH_GRANT_CG (t k : Nat) : Fld := ⟨0x40B00 + 16 * t + 4 * k, 31, 0⟩
def CH_GRANT_CG_GRP_HI (t k : Nat) : Fld := ⟨0x40B00 + 16 * t + 4 * k, 31, 16⟩
def CH_GRANT_CG_GRP_LO (t k : Nat) : Fld := ⟨0x40B00 + 16 * t + 4 * k, 15, 0⟩
def CH_GRANT_CFG : Fld := ⟨0x40D00, 31, 0⟩
def CH_GRANT_CFG_EN : Fld := ⟨0x40D00, 31, 31⟩
def CH_GRANT_CFG_PRED_SHIFT : Fld := ⟨0x40D00, 3, 0⟩
def CH_BOW_CFG : Fld := ⟨0x40D40, 31, 0⟩
def CH_BOW_CFG_PANIC_US : Fld := ⟨0x40D40, 31, 28⟩
def CH_BOW_CFG_MAXCW : Fld := ⟨0x40D40, 26, 16⟩
def CH_BOW_CFG_STAGE_CELLS : Fld := ⟨0x40D40, 11, 0⟩
def CH_BOW_STAT : Fld := ⟨0x40D44, 31, 0⟩
def CH_BOW_STAT_PANIC : Fld := ⟨0x40D44, 31, 31⟩
def CH_BOW_STAT_STAGED : Fld := ⟨0x40D44, 11, 0⟩
def CH_GRANT_OVERBOOK : Fld := ⟨0x40D80, 31, 0⟩
def CH_GRANT_SHORT : Fld := ⟨0x40D84, 31, 0⟩
def CH_GRANT_LATEMAP : Fld := ⟨0x40D88, 31, 0⟩
def CH_BH_ERR : Fld := ⟨0x40D8C, 31, 0⟩
def CH_FM_BAD : Fld := ⟨0x40D90, 31, 0⟩
def CH_BOW_MAPLOST : Fld := ⟨0x40D94, 31, 0⟩
def CH_BOW_MISSED : Fld := ⟨0x40D98, 31, 0⟩
def CH_BOW_UNDERRUN : Fld := ⟨0x40D9C, 31, 0⟩
def CH_BOW_OVERSIZE : Fld := ⟨0x40DA0, 31, 0⟩
def CH_BOW_SENT : Fld := ⟨0x40DA4, 31, 0⟩
def CH_GRANT_OVRA (s : Nat) : Fld := ⟨0x40E00 + 16 * s, 31, 0⟩
def CH_GRANT_OVRA_VALID (s : Nat) : Fld := ⟨0x40E00 + 16 * s, 31, 31⟩
def CH_GRANT_OVRA_TID (s : Nat) : Fld := ⟨0x40E00 + 16 * s, 30, 26⟩
def CH_GRANT_OVRA_DISC (s : Nat) : Fld := ⟨0x40E00 + 16 * s, 25, 25⟩
def CH_GRANT_OVRA_RREQ (s : Nat) : Fld := ⟨0x40E00 + 16 * s, 24, 24⟩
def CH_GRANT_OVRA_BMS (s : Nat) : Fld := ⟨0x40E00 + 16 * s, 23, 23⟩
def CH_GRANT_OVRA_PROT (s : Nat) : Fld := ⟨0x40E00 + 16 * s, 22, 22⟩
def CH_GRANT_OVRA_RESULT (s : Nat) : Fld := ⟨0x40E00 + 16 * s, 1, 0⟩
def CH_GRANT_OVRB (s : Nat) : Fld := ⟨0x40E04 + 16 * s, 31, 0⟩
def CH_GRANT_OVRB_LEN (s : Nat) : Fld := ⟨0x40E04 + 16 * s, 28, 16⟩
def CH_GRANT_OVRB_START (s : Nat) : Fld := ⟨0x40E04 + 16 * s, 12, 0⟩
def CH_GRANT_OVRC (s : Nat) : Fld := ⟨0x40E08 + 16 * s, 31, 0⟩
def CH_PARSE_START : Fld := ⟨0x41000, 31, 0⟩
def CH_PARSE_START_NODE_E3 : Fld := ⟨0x41000, 31, 24⟩
def CH_PARSE_START_NODE_E2 : Fld := ⟨0x41000, 23, 16⟩
def CH_PARSE_START_NODE_E1 : Fld := ⟨0x41000, 15, 8⟩
def CH_PARSE_START_NODE_E0 : Fld := ⟨0x41000, 7, 0⟩
def CH_STORE_USE : Fld := ⟨0x41100, 16, 0⟩
def CH_CG_CFG (g : Nat) : Fld := ⟨0x41200 + 32 * g, 31, 0⟩
def CH_CG_CFG_QUANTUM (g : Nat) : Fld := ⟨0x41200 + 32 * g, 31, 16⟩
def CH_CG_CFG_QMODE (g : Nat) : Fld := ⟨0x41200 + 32 * g, 8, 8⟩
def CH_CG_CFG_PRI (g : Nat) : Fld := ⟨0x41200 + 32 * g, 2, 0⟩
def CH_CG_SHP_CFG (g : Nat) : Fld := ⟨0x41204 + 32 * g, 31, 0⟩
def CH_CG_SHP_CFG_EN (g : Nat) : Fld := ⟨0x41204 + 32 * g, 31, 31⟩
def CH_CG_SHP_CFG_MODE (g : Nat) : Fld := ⟨0x41204 + 32 * g, 30, 30⟩
def CH_CG_SHP_CFG_RESET_TO (g : Nat) : Fld := ⟨0x41204 + 32 * g, 29, 29⟩
def CH_CG_SHP_CFG_OVERHEAD (g : Nat) : Fld := ⟨0x41204 + 32 * g, 7, 0⟩
def CH_CG_SHP_RATE (g : Nat) : Fld := ⟨0x41208 + 32 * g, 30, 0⟩
def CH_CG_SHP_BURST (g : Nat) : Fld := ⟨0x4120C + 32 * g, 23, 0⟩
def CH_CG_SHP_LEVEL (g : Nat) : Fld := ⟨0x41210 + 32 * g, 31, 0⟩
def CH_L2_SHP_CFG : Fld := ⟨0x41300, 31, 0⟩
def CH_L2_SHP_CFG_EN : Fld := ⟨0x41300, 31, 31⟩
def CH_L2_SHP_CFG_MODE : Fld := ⟨0x41300, 30, 30⟩
def CH_L2_SHP_CFG_RESET_TO : Fld := ⟨0x41300, 29, 29⟩
def CH_L2_SHP_CFG_OVERHEAD : Fld := ⟨0x41300, 7, 0⟩
def CH_L2_SHP_RATE : Fld := ⟨0x41304, 30, 0⟩
def CH_L2_SHP_BURST : Fld := ⟨0x41308, 23, 0⟩
def CH_L2_SHP_LEVEL : Fld := ⟨0x4130C, 31, 0⟩
def CH_GATE_CFG : Fld := ⟨0x41400, 31, 0⟩
def CH_GATE_CFG_EN : Fld := ⟨0x41400, 31, 31⟩
def CH_GATE_CFG_MODE : Fld := ⟨0x41400, 30, 30⟩
def CH_GATE_CFG_ACT_SEQ : Fld := ⟨0x41400, 27, 24⟩
def CH_GATE_CFG_LEN : Fld := ⟨0x41400, 8, 0⟩
def CH_GATE_BASE_SL : Fld := ⟨0x41404, 31, 0⟩
def CH_GATE_BASE_SH : Fld := ⟨0x41408, 15, 0⟩
def CH_GATE_BASE_NS : Fld := ⟨0x4140C, 29, 0⟩
def CH_GATE_CYCLE : Fld := ⟨0x41410, 29, 0⟩
def CH_GATE_OVR : Fld := ⟨0x41414, 15, 0⟩
def CH_GATE_STAT : Fld := ⟨0x41418, 31, 0⟩
def CH_GATE_STAT_OPER : Fld := ⟨0x41418, 31, 31⟩
def CH_GATE_STAT_PEND : Fld := ⟨0x41418, 30, 30⟩
def CH_GATE_STAT_REJECT : Fld := ⟨0x41418, 29, 29⟩
def CH_GATE_STAT_REPLACED : Fld := ⟨0x41418, 28, 28⟩
def CH_GATE_STAT_STATE : Fld := ⟨0x41418, 7, 0⟩
def CH_GATE_LATE : Fld := ⟨0x4141C, 31, 0⟩
def CH_GATE_N : Fld := ⟨0x41420, 31, 0⟩
def CH_GATE_S_SL : Fld := ⟨0x41424, 31, 0⟩
def CH_GATE_S_SH : Fld := ⟨0x41428, 15, 0⟩
def CH_GATE_S_NS : Fld := ⟨0x4142C, 29, 0⟩
def CH_GATE_OVERSIZE : Fld := ⟨0x41430, 31, 0⟩
def CH_PEG : Fld := ⟨0x41600, 3, 0⟩
def CH_STAMP_TX : Fld := ⟨0x41604, 15, 0⟩
def CH_STAMP_RX : Fld := ⟨0x41608, 15, 0⟩
def CH_STAMP_TC : Fld := ⟨0x4160C, 31, 0⟩
def CH_STAMP_TC_T_REF : Fld := ⟨0x4160C, 31, 24⟩
def CH_STAMP_TC_COEF_RX : Fld := ⟨0x4160C, 15, 8⟩
def CH_STAMP_TC_COEF_TX : Fld := ⟨0x4160C, 7, 0⟩
def CH_PTP_CFG : Fld := ⟨0x41610, 31, 0⟩
def CH_PTP_CFG_TC_EN : Fld := ⟨0x41610, 31, 31⟩
def CH_PTP_CFG_P2P : Fld := ⟨0x41610, 30, 30⟩
def CH_PTP_CFG_IN_ADD : Fld := ⟨0x41610, 29, 29⟩
def CH_PTP_CFG_REC_TX : Fld := ⟨0x41610, 28, 28⟩
def CH_PTP_CFG_REC_RX : Fld := ⟨0x41610, 27, 27⟩
def CH_PTP_LINKDLY : Fld := ⟨0x41614, 31, 0⟩
def CH_PTP_TDLY : Fld := ⟨0x41618, 31, 0⟩
def CH_PTP_TDLY_VALID : Fld := ⟨0x41618, 31, 31⟩
def CH_PTP_TDLY_DLY : Fld := ⟨0x41618, 30, 0⟩
def CH_PTP_KAPPA : Fld := ⟨0x4161C, 31, 0⟩
def CH_STQ_CTL : Fld := ⟨0x41620, 31, 0⟩
def CH_STQ_CTL_POP : Fld := ⟨0x41620, 31, 31⟩
def CH_STQ_CTL_LEVEL : Fld := ⟨0x41620, 22, 16⟩
def CH_STQ_CTL_NEXT_SEQ : Fld := ⟨0x41620, 15, 0⟩
def CH_STQ_OVF : Fld := ⟨0x41624, 31, 0⟩
def CH_PTP_CORR : Fld := ⟨0x41628, 31, 0⟩
def CH_PTP_NOCORR : Fld := ⟨0x4162C, 31, 0⟩
def CH_PTP_SAT : Fld := ⟨0x41630, 31, 0⟩
def CH_STQ_REC (k : Nat) : Fld := ⟨0x41640 + 4 * k, 31, 0⟩
def CH_MAC_CFG : Fld := ⟨0x41700, 31, 0⟩
def CH_MAC_CFG_GEN : Fld := ⟨0x41700, 31, 31⟩
def CH_MAC_CFG_OBEY : Fld := ⟨0x41700, 30, 30⟩
def CH_MAC_CFG_MAX_FRAME : Fld := ⟨0x41700, 13, 0⟩
def CH_MAC_SA_LO : Fld := ⟨0x41704, 31, 0⟩
def CH_MAC_SA_HI : Fld := ⟨0x41708, 15, 0⟩
def CH_MAC_PAUSE : Fld := ⟨0x4170C, 31, 0⟩
def CH_MAC_PAUSE_PAUSE_TIME : Fld := ⟨0x4170C, 31, 16⟩
def CH_MAC_PAUSE_REFRESH : Fld := ⟨0x4170C, 7, 0⟩
def CH_MAC_WM_HI : Fld := ⟨0x41710, 16, 0⟩
def CH_MAC_WM_LO : Fld := ⟨0x41714, 16, 0⟩
def CH_MAC_STAT : Fld := ⟨0x41718, 31, 0⟩
def CH_MAC_STAT_XOFF : Fld := ⟨0x41718, 31, 31⟩
def CH_MAC_STAT_PAUSED : Fld := ⟨0x41718, 30, 30⟩
def CH_MAC_STAT_QUANTA : Fld := ⟨0x41718, 15, 0⟩
def CH_MAC_RX_OK : Fld := ⟨0x41720, 31, 0⟩
def CH_MAC_TX_OK : Fld := ⟨0x41724, 31, 0⟩
def CH_MAC_RX_FCS : Fld := ⟨0x41728, 31, 0⟩
def CH_MAC_RX_RUNT : Fld := ⟨0x4172C, 31, 0⟩
def CH_MAC_RX_LONG : Fld := ⟨0x41730, 31, 0⟩
def CH_MAC_RX_PAUSE : Fld := ⟨0x41734, 31, 0⟩
def CH_MAC_TX_PAUSE : Fld := ⟨0x41738, 31, 0⟩
def CH_MAC_RX_CTRL : Fld := ⟨0x4173C, 31, 0⟩
def CH_PP_CTL : Fld := ⟨0x41800, 31, 0⟩
def CH_PP_CTL_GO : Fld := ⟨0x41800, 31, 31⟩
def CH_PP_CTL_OP : Fld := ⟨0x41800, 30, 29⟩
def CH_PP_CTL_DIR : Fld := ⟨0x41800, 28, 28⟩
def CH_PP_CTL_SLOT : Fld := ⟨0x41800, 9, 8⟩
def CH_PP_CTL_TID : Fld := ⟨0x41800, 4, 0⟩
def CH_PP_KEY_W (k : Nat) : Fld := ⟨0x41804 + 4 * k, 31, 0⟩
def CH_PP (t : Nat) : Fld := ⟨0x41840 + 4 * t, 31, 0⟩
def CH_PP_REQUIRE (t : Nat) : Fld := ⟨0x41840 + 4 * t, 31, 31⟩
def CH_PP_CHANGE (t : Nat) : Fld := ⟨0x41840 + 4 * t, 30, 30⟩
def CH_PP_INSTALLED (t : Nat) : Fld := ⟨0x41840 + 4 * t, 23, 20⟩
def CH_PP_CUR (t : Nat) : Fld := ⟨0x41840 + 4 * t, 19, 18⟩
def CH_PP_CUR_VALID (t : Nat) : Fld := ⟨0x41840 + 4 * t, 17, 17⟩
def CH_PP_AUTH_FAIL : Fld := ⟨0x418C0, 31, 0⟩
def CH_PP_NOKEY : Fld := ⟨0x418C4, 31, 0⟩
def CH_PP_CLEAR_DROP : Fld := ⟨0x418C8, 31, 0⟩
def CH_PP_BCDROP : Fld := ⟨0x418CC, 31, 0⟩
def CH_PP_CHANGES : Fld := ⟨0x418D0, 31, 0⟩
def CH_PWR_CTL : Fld := ⟨0x41900, 31, 0⟩
def CH_PWR_CTL_DOZE : Fld := ⟨0x41900, 31, 31⟩
def CH_PWR_CTL_UNDOZE : Fld := ⟨0x41900, 30, 30⟩
def CH_PWR_CTL_WAKE_SIG : Fld := ⟨0x41900, 1, 1⟩
def CH_PWR_CTL_WAKE_PAT : Fld := ⟨0x41900, 0, 0⟩
def CH_PWR_STAT : Fld := ⟨0x41904, 31, 0⟩
def CH_PWR_STAT_DOZING : Fld := ⟨0x41904, 31, 31⟩
def CH_PWR_STAT_WOKE : Fld := ⟨0x41904, 30, 30⟩
def CH_PWR_STAT_REFUSER : Fld := ⟨0x41904, 29, 27⟩
def CH_PWR_STAT_PAT : Fld := ⟨0x41904, 10, 8⟩
def CH_WAKE_HITS : Fld := ⟨0x41908, 31, 0⟩
def CH_WAKE_M (p k : Nat) : Fld := ⟨0x41A00 + 144 * p + 4 * k, 31, 0⟩
def CH_WAKE_CTL (p : Nat) : Fld := ⟨0x41A80 + 144 * p, 31, 0⟩
def CH_WAKE_CTL_EN (p : Nat) : Fld := ⟨0x41A80 + 144 * p, 31, 31⟩
def CH_WAKE_CTL_ANY_PROT (p : Nat) : Fld := ⟨0x41A80 + 144 * p, 30, 30⟩
def CH_WAKE_CTL_CHECK (p : Nat) : Fld := ⟨0x41A80 + 144 * p, 15, 0⟩
def CH_GATE_EG (i : Nat) : Fld := ⟨0x42000 + 8 * i, 7, 0⟩
def CH_GATE_EI (i : Nat) : Fld := ⟨0x42004 + 8 * i, 31, 0⟩
def CH_GATE_OG (i : Nat) : Fld := ⟨0x42800 + 8 * i, 7, 0⟩
def CH_GATE_OI (i : Nat) : Fld := ⟨0x42804 + 8 * i, 31, 0⟩
def OCTSEL : Fld := ⟨0x50000, 2, 0⟩
def OCT_TICK_USED : Fld := ⟨0x50100, 15, 0⟩
def OCT_TICK_MAX : Fld := ⟨0x50104, 15, 0⟩
def OCT_OVERRUN : Fld := ⟨0x50108, 31, 0⟩
def OCT_CLS_STALE : Fld := ⟨0x50200, 31, 0⟩
def OCT_RECIRC_DROP : Fld := ⟨0x50204, 31, 0⟩
def OCT_PAT_FULL : Fld := ⟨0x50208, 31, 0⟩
def OCT_CLS_NODEST : Fld := ⟨0x5020C, 31, 0⟩
def OCT_PAT_LEVEL : Fld := ⟨0x50210, 9, 0⟩
def OCT_STORE_CFG : Fld := ⟨0x50300, 31, 0⟩
def OCT_STORE_CFG_SPILL_WAIT : Fld := ⟨0x50300, 23, 20⟩
def OCT_STORE_CFG_SPILL_MARK : Fld := ⟨0x50300, 16, 0⟩
def OCT_STORE_DRAIN : Fld := ⟨0x50304, 15, 0⟩
def OCT_STORE_RES : Fld := ⟨0x50308, 31, 0⟩
def OCT_STORE_RES_RESTAGE_KIB : Fld := ⟨0x50308, 31, 16⟩
def OCT_STORE_RES_RESTAGE_CELLS : Fld := ⟨0x50308, 15, 0⟩
def OCT_STORE_USE : Fld := ⟨0x5030C, 16, 0⟩
def OCT_STORE_PEAK : Fld := ⟨0x50310, 16, 0⟩
def OCT_DESC_USE : Fld := ⟨0x50314, 17, 0⟩
def OCT_STORE_DROP : Fld := ⟨0x50318, 31, 0⟩
def OCT_DESC_FULL : Fld := ⟨0x5031C, 31, 0⟩
def OCT_STORE_UNC : Fld := ⟨0x50320, 31, 0⟩
def OCT_STORE_RETIRED : Fld := ⟨0x50324, 19, 0⟩
def OCT_DEEP_HOL : Fld := ⟨0x50328, 31, 0⟩
def OCT_SPILL_WAIT : Fld := ⟨0x5032C, 31, 0⟩
def OCT_SPILL_REORD : Fld := ⟨0x50330, 31, 0⟩
def OCT_SPILL_CONG : Fld := ⟨0x50334, 31, 0⟩
def OCT_MTR_SEL : Fld := ⟨0x50400, 10, 0⟩
def OCT_MTR_CFG : Fld := ⟨0x50404, 31, 0⟩
def OCT_MTR_CFG_EN : Fld := ⟨0x50404, 31, 31⟩
def OCT_MTR_CFG_MODE : Fld := ⟨0x50404, 30, 30⟩
def OCT_MTR_CFG_AWARE : Fld := ⟨0x50404, 29, 29⟩
def OCT_MTR_CFG_PCOL_W : Fld := ⟨0x50404, 28, 28⟩
def OCT_MTR_CFG_PCOL_WORD : Fld := ⟨0x50404, 27, 22⟩
def OCT_MTR_CFG_PCOL_BIT : Fld := ⟨0x50404, 20, 16⟩
def OCT_MTR_CFG_OVERHEAD : Fld := ⟨0x50404, 15, 8⟩
def OCT_MTR_CIR : Fld := ⟨0x50408, 30, 0⟩
def OCT_MTR_PIR : Fld := ⟨0x5040C, 30, 0⟩
def OCT_MTR_CBS : Fld := ⟨0x50410, 23, 0⟩
def OCT_MTR_PBS : Fld := ⟨0x50414, 23, 0⟩
def OCT_MTR_GREEN : Fld := ⟨0x50418, 31, 0⟩
def OCT_MTR_YELLOW : Fld := ⟨0x5041C, 31, 0⟩
def OCT_MTR_RED : Fld := ⟨0x50420, 31, 0⟩
def OCT_MTR_REDDROP : Fld := ⟨0x50424, 31, 0⟩
def OCT_PWR_REQ : Fld := ⟨0x50500, 31, 0⟩
def OCT_PWR_REQ_GO : Fld := ⟨0x50500, 31, 31⟩
def OCT_PWR_REQ_TARGET : Fld := ⟨0x50500, 3, 0⟩
def OCT_PWR_STAT : Fld := ⟨0x50504, 31, 0⟩
def OCT_PWR_STAT_STATE : Fld := ⟨0x50504, 31, 28⟩
def OCT_PWR_STAT_TARGET : Fld := ⟨0x50504, 27, 24⟩
def OCT_PWR_STAT_PEND : Fld := ⟨0x50504, 23, 20⟩
def OCT_PWR_STAT_PEND_V : Fld := ⟨0x50504, 19, 19⟩
def OCT_PWR_STAT_RESULT : Fld := ⟨0x50504, 18, 16⟩
def OCT_PWR_STAT_REFUSER : Fld := ⟨0x50504, 14, 12⟩
def OCT_PWR_STAT_WAKE_SRC : Fld := ⟨0x50504, 10, 8⟩
def OCT_PWR_STAT_PL_SLEPT : Fld := ⟨0x50504, 1, 0⟩
def OCT_PWR_WAKE : Fld := ⟨0x50508, 31, 0⟩
def OCT_PWR_WAKE_GPIO_IDX : Fld := ⟨0x50508, 11, 8⟩
def OCT_PWR_WAKE_GPIO : Fld := ⟨0x50508, 4, 4⟩
def OCT_PWR_WAKE_TIMER : Fld := ⟨0x50508, 3, 3⟩
def OCT_PWR_WAKE_FRAME : Fld := ⟨0x50508, 2, 2⟩
def OCT_PWR_WAKE_SIGNAL : Fld := ⟨0x50508, 1, 1⟩
def OCT_PWR_WAKE_PATTERN : Fld := ⟨0x50508, 0, 0⟩
def OCT_PWR_TIMER : Fld := ⟨0x5050C, 31, 0⟩
def OCT_PWR_CFG : Fld := ⟨0x50510, 1, 0⟩
def OCT_FLT_ROWS : Fld := ⟨0x50600, 31, 0⟩
def OCT_FLT_ROWS_RETIRED : Fld := ⟨0x50600, 24, 16⟩
def OCT_FLT_ROWS_LAST : Fld := ⟨0x50600, 12, 0⟩
def OCT_FLT_EVICT : Fld := ⟨0x50604, 31, 0⟩
def CLS_CFG : Fld := ⟨0x60000, 2, 0⟩
def CLS_EPOCH : Fld := ⟨0x60004, 31, 0⟩
def CLS_EPOCH_NOW : Fld := ⟨0x60004, 5, 4⟩
def CLS_EPOCH_CUR : Fld := ⟨0x60004, 1, 0⟩
def CLS_EPOCH_STAT : Fld := ⟨0x60008, 3, 0⟩
def CLS_INJ_START : Fld := ⟨0x6000C, 31, 0⟩
def CLS_INJ_START_NODE_E3 : Fld := ⟨0x6000C, 31, 24⟩
def CLS_INJ_START_NODE_E2 : Fld := ⟨0x6000C, 23, 16⟩
def CLS_INJ_START_NODE_E1 : Fld := ⟨0x6000C, 15, 8⟩
def CLS_INJ_START_NODE_E0 : Fld := ⟨0x6000C, 7, 0⟩
def CLS_SUROK_START : Fld := ⟨0x60010, 31, 0⟩
def CLS_SUROK_START_NODE_E3 : Fld := ⟨0x60010, 31, 24⟩
def CLS_SUROK_START_NODE_E2 : Fld := ⟨0x60010, 23, 16⟩
def CLS_SUROK_START_NODE_E1 : Fld := ⟨0x60010, 15, 8⟩
def CLS_SUROK_START_NODE_E0 : Fld := ⟨0x60010, 7, 0⟩
def CLS_STAGE_ABORT : Fld := ⟨0x60014, 31, 0⟩
def CLS_EPOCH_FLT0 : Fld := ⟨0x60018, 31, 0⟩
def CLS_EPOCH_FLT0_HI : Fld := ⟨0x60018, 31, 16⟩
def CLS_EPOCH_FLT0_LO : Fld := ⟨0x60018, 15, 0⟩
def CLS_EPOCH_FLT1 : Fld := ⟨0x6001C, 31, 0⟩
def CLS_EPOCH_FLT1_HI : Fld := ⟨0x6001C, 31, 16⟩
def CLS_EPOCH_FLT1_LO : Fld := ⟨0x6001C, 15, 0⟩
def CLS_IND_ADDR : Fld := ⟨0x60020, 31, 0⟩
def CLS_IND_ADDR_AUTO : Fld := ⟨0x60020, 31, 31⟩
def CLS_IND_ADDR_ADDR : Fld := ⟨0x60020, 25, 0⟩
def CLS_IND_DATA : Fld := ⟨0x60024, 31, 0⟩
def CLS_EM_KEY (k : Nat) : Fld := ⟨0x60100 + 4 * k, 31, 0⟩
def CLS_EM_CTL : Fld := ⟨0x60140, 31, 0⟩
def CLS_EM_CTL_GO : Fld := ⟨0x60140, 31, 31⟩
def CLS_EM_CTL_BUSY : Fld := ⟨0x60140, 30, 30⟩
def CLS_EM_CTL_OP : Fld := ⟨0x60140, 29, 28⟩
def CLS_EM_CTL_STATUS : Fld := ⟨0x60140, 27, 25⟩
def CLS_EM_CTL_WIDE : Fld := ⟨0x60140, 24, 24⟩
def CLS_EM_CTL_PROF : Fld := ⟨0x60140, 20, 16⟩
def CLS_EM_CTL_EPOCH : Fld := ⟨0x60140, 1, 0⟩
def CLS_EM_ACT : Fld := ⟨0x60144, 31, 0⟩
def CLS_EM_ACT_EPOCHS : Fld := ⟨0x60144, 21, 18⟩
def CLS_EM_ACT_ACT : Fld := ⟨0x60144, 17, 0⟩
def CLS_EM_COUNT : Fld := ⟨0x60148, 22, 0⟩
def CLS_SP_CFG (n : Nat) : Fld := ⟨0x60400 + 16 * n, 31, 0⟩
def CLS_SP_CFG_KIND (n : Nat) : Fld := ⟨0x60400 + 16 * n, 31, 31⟩
def CLS_SP_CFG_INDEX (n : Nat) : Fld := ⟨0x60400 + 16 * n, 22, 16⟩
def CLS_SP_CFG_RATE (n : Nat) : Fld := ⟨0x60400 + 16 * n, 15, 0⟩
def CLS_SP_BKT (n : Nat) : Fld := ⟨0x60404 + 16 * n, 11, 0⟩
def CLS_SP_PASS (n : Nat) : Fld := ⟨0x60408 + 16 * n, 31, 0⟩
def CLS_SP_DROP (n : Nat) : Fld := ⟨0x6040C + 16 * n, 31, 0⟩
def CLS_MIR (s : Nat) : Fld := ⟨0x60800 + 4 * s, 31, 0⟩
def CLS_MIR_EN (s : Nat) : Fld := ⟨0x60800 + 4 * s, 31, 31⟩
def CLS_MIR_KIND (s : Nat) : Fld := ⟨0x60800 + 4 * s, 30, 28⟩
def CLS_MIR_INDEX (s : Nat) : Fld := ⟨0x60800 + 4 * s, 27, 16⟩
def CLS_MIR_TRUNC (s : Nat) : Fld := ⟨0x60800 + 4 * s, 15, 8⟩
def CLS_MIR_PRE_EDIT (s : Nat) : Fld := ⟨0x60800 + 4 * s, 7, 7⟩
def CLS_MIR_DP (s : Nat) : Fld := ⟨0x60800 + 4 * s, 1, 0⟩
def QSEL : Fld := ⟨0x70000, 11, 0⟩
def QSH_Q_CFG : Fld := ⟨0x70100, 31, 0⟩
def QSH_Q_CFG_TL_EN : Fld := ⟨0x70100, 31, 31⟩
def QSH_Q_CFG_QUANTUM : Fld := ⟨0x70100, 15, 0⟩
def QSH_Q_TL : Fld := ⟨0x70104, 29, 0⟩
def QSH_SHP_CFG : Fld := ⟨0x70110, 31, 0⟩
def QSH_SHP_CFG_EN : Fld := ⟨0x70110, 31, 31⟩
def QSH_SHP_CFG_MODE : Fld := ⟨0x70110, 30, 30⟩
def QSH_SHP_CFG_RESET_TO : Fld := ⟨0x70110, 29, 29⟩
def QSH_SHP_CFG_OVERHEAD : Fld := ⟨0x70110, 7, 0⟩
def QSH_SHP_RATE : Fld := ⟨0x70114, 30, 0⟩
def QSH_SHP_BURST : Fld := ⟨0x70118, 23, 0⟩
def QSH_SHP_LEVEL : Fld := ⟨0x7011C, 31, 0⟩
def QSH_Q_NOW : Fld := ⟨0x70140, 31, 0⟩
def QSH_Q_FRAMES : Fld := ⟨0x70144, 23, 0⟩
def QSH_Q_DEPTH_MIN : Fld := ⟨0x70148, 31, 0⟩
def QSH_Q_DEPTH_MAX : Fld := ⟨0x7014C, 31, 0⟩
def QSH_Q_DEPTH_MEAN : Fld := ⟨0x70150, 31, 0⟩
def QSH_Q_DELAY_MIN : Fld := ⟨0x70154, 31, 0⟩
def QSH_Q_DELAY_MAX : Fld := ⟨0x70158, 31, 0⟩
def QSH_Q_DELAY_MEAN : Fld := ⟨0x7015C, 31, 0⟩
def QSH_Q_SAMPLES : Fld := ⟨0x70160, 31, 0⟩
def QSH_Q_SAMPLES_SFN : Fld := ⟨0x70160, 31, 16⟩
def QSH_Q_SAMPLES_PTR : Fld := ⟨0x70160, 13, 8⟩
def QSH_Q_SAMPLES_COUNT : Fld := ⟨0x70160, 6, 0⟩
def QSH_Q_TX : Fld := ⟨0x70164, 31, 0⟩
def QSH_Q_TL_LATE : Fld := ⟨0x70168, 31, 0⟩
def QSH_Q_HIST (i : Nat) : Fld := ⟨0x70200 + 4 * i, 31, 0⟩
def QSH_Q_HIST_DEPTH (i : Nat) : Fld := ⟨0x70200 + 4 * i, 31, 16⟩
def QSH_Q_HIST_DELAY (i : Nat) : Fld := ⟨0x70200 + 4 * i, 15, 0⟩
def QSH_CHORD_CFG (c : Nat) : Fld := ⟨0x78000 + 64 * c, 31, 0⟩
def QSH_CHORD_CFG_TX_EN (c : Nat) : Fld := ⟨0x78000 + 64 * c, 31, 31⟩
def QSH_CHORD_CFG_RX_EN (c : Nat) : Fld := ⟨0x78000 + 64 * c, 30, 30⟩
def QSH_CHORD_CFG_KA_EN (c : Nat) : Fld := ⟨0x78000 + 64 * c, 29, 29⟩
def QSH_CHORD_CFG_QK (c : Nat) : Fld := ⟨0x78000 + 64 * c, 28, 26⟩
def QSH_CHORD_CFG_HOME (c : Nat) : Fld := ⟨0x78000 + 64 * c, 25, 23⟩
def QSH_CHORD_CFG_WINDOW (c : Nat) : Fld := ⟨0x78000 + 64 * c, 10, 0⟩
def QSH_CHORD_GRD (c : Nat) : Fld := ⟨0x78004 + 64 * c, 11, 0⟩
def QSH_CHORD_M (c i : Nat) : Fld := ⟨0x78008 + 64 * c + 4 * i, 31, 0⟩
def QSH_CHORD_M_VALID (c i : Nat) : Fld := ⟨0x78008 + 64 * c + 4 * i, 31, 31⟩
def QSH_CHORD_M_MEMBER (c i : Nat) : Fld := ⟨0x78008 + 64 * c + 4 * i, 22, 16⟩
def QSH_CHORD_M_WEIGHT (c i : Nat) : Fld := ⟨0x78008 + 64 * c + 4 * i, 15, 8⟩
def QSH_CHORD_M_BC (c i : Nat) : Fld := ⟨0x78008 + 64 * c + 4 * i, 5, 5⟩
def QSH_CHORD_M_TID (c i : Nat) : Fld := ⟨0x78008 + 64 * c + 4 * i, 4, 0⟩
def QSH_CHORD_STAT (c : Nat) : Fld := ⟨0x78028 + 64 * c, 31, 0⟩
def QSH_CHORD_STAT_RX_UP (c : Nat) : Fld := ⟨0x78028 + 64 * c, 15, 8⟩
def QSH_CHORD_STAT_TX_UP (c : Nat) : Fld := ⟨0x78028 + 64 * c, 7, 0⟩
def QSH_CHORD_LATE (c : Nat) : Fld := ⟨0x7802C + 64 * c, 31, 0⟩
def QSH_CHORD_EXPIRED (c : Nat) : Fld := ⟨0x78030 + 64 * c, 31, 0⟩
def QSH_CHORD_DUPDROP (c : Nat) : Fld := ⟨0x78034 + 64 * c, 31, 0⟩
def QSH_CHORD_STRAY (c : Nat) : Fld := ⟨0x78038 + 64 * c, 31, 0⟩
def QSH_CHORD_NOUP (c : Nat) : Fld := ⟨0x7803C + 64 * c, 31, 0⟩
def MEMSEL : Fld := ⟨0x80000, 5, 0⟩
def MEM_CH_STAT : Fld := ⟨0x80100, 31, 0⟩
def MEM_CH_STAT_USE : Fld := ⟨0x80100, 31, 30⟩
def MEM_CH_STAT_HOT : Fld := ⟨0x80100, 29, 29⟩
def MEM_CH_STAT_RETRAIN : Fld := ⟨0x80100, 28, 28⟩
def MEM_CH_STAT_RETRAIN_FAIL : Fld := ⟨0x80100, 27, 27⟩
def MEM_CH_STAT_PANIC : Fld := ⟨0x80100, 26, 26⟩
def MEM_CH_STAT_DEBT : Fld := ⟨0x80100, 3, 0⟩
def MEM_CH_TEMP : Fld := ⟨0x80104, 31, 0⟩
def MEM_CH_TEMP_SLOTS : Fld := ⟨0x80104, 23, 16⟩
def MEM_CH_TEMP_T_TRAIN : Fld := ⟨0x80104, 15, 8⟩
def MEM_CH_TEMP_TEMP : Fld := ⟨0x80104, 7, 0⟩
def MEM_CH_CORR : Fld := ⟨0x80108, 31, 0⟩
def MEM_CH_CRC_RETRY : Fld := ⟨0x8010C, 31, 0⟩
def MEM_CH_UNC : Fld := ⟨0x80110, 31, 0⟩
def MEM_CH_CAPAR : Fld := ⟨0x80114, 31, 0⟩
def MEM_CH_REF_POSTP : Fld := ⟨0x80118, 31, 0⟩
def MEM_CH_REF_FORCED : Fld := ⟨0x8011C, 31, 0⟩
def MEM_CH_RETRAIN : Fld := ⟨0x80120, 31, 0⟩
def MEM_CH_BQFULL : Fld := ⟨0x80124, 31, 0⟩
def MEM_CFG : Fld := ⟨0x80E00, 31, 0⟩
def MEM_CFG_WR_HI : Fld := ⟨0x80E00, 31, 24⟩
def MEM_CFG_WR_LO : Fld := ⟨0x80E00, 23, 16⟩
def MEM_CFG_ORDER : Fld := ⟨0x80E00, 1, 0⟩
def MEM_REF_CFG : Fld := ⟨0x80E04, 31, 0⟩
def MEM_REF_CFG_HOT_ON : Fld := ⟨0x80E04, 31, 24⟩
def MEM_REF_CFG_HOT_OFF : Fld := ⟨0x80E04, 23, 16⟩
def MEM_REF_CFG_POSTPONE_MAX : Fld := ⟨0x80E04, 3, 0⟩
def MEM_TRAIN_CFG : Fld := ⟨0x80E08, 31, 0⟩
def MEM_TRAIN_CFG_DRIFT : Fld := ⟨0x80E08, 31, 24⟩
def MEM_TRAIN_CFG_SLOT_Q : Fld := ⟨0x80E08, 23, 16⟩
def MEM_TRAIN_CFG_DEFER_MAX : Fld := ⟨0x80E08, 15, 8⟩
def MEM_MAPOUT : Fld := ⟨0x80E0C, 31, 0⟩
def MEM_MAPOUT_GO_OUT : Fld := ⟨0x80E0C, 31, 31⟩
def MEM_MAPOUT_GO_IN : Fld := ⟨0x80E0C, 30, 30⟩
def MEM_MAPOUT_REFUSED : Fld := ⟨0x80E0C, 29, 29⟩
def MEM_MAPOUT_STATE : Fld := ⟨0x80E0C, 10, 8⟩
def MEM_MAPOUT_DEV : Fld := ⟨0x80E0C, 3, 0⟩
def MEM_STAT : Fld := ⟨0x80E10, 6, 0⟩
def MEM_EVAC_LEFT : Fld := ⟨0x80E14, 27, 0⟩
def MEM_POISON_USE : Fld := ⟨0x80E18, 8, 0⟩
def MEM_DEEP_LOST : Fld := ⟨0x80E1C, 27, 0⟩
def MEM_RUN_LOST : Fld := ⟨0x80E20, 31, 0⟩
def MEM_DEEP_FRAMES : Fld := ⟨0x80E24, 27, 0⟩
def MEM_DEEP_BUDGET : Fld := ⟨0x80F00, 13, 0⟩
def MEM_DEEP_BURST : Fld := ⟨0x80F04, 31, 0⟩
def MEM_DEEP_BURST_RES3 : Fld := ⟨0x80F04, 31, 28⟩
def MEM_DEEP_BURST_RES2 : Fld := ⟨0x80F04, 27, 24⟩
def MEM_DEEP_BURST_RES1 : Fld := ⟨0x80F04, 23, 20⟩
def MEM_DEEP_BURST_BURST : Fld := ⟨0x80F04, 15, 0⟩
def MEM_DEEP_STAT : Fld := ⟨0x80F08, 15, 0⟩
def MEM_DEEP_FREE : Fld := ⟨0x80F0C, 27, 0⟩
def MEM_DEEP_REFUSED (d : Nat) : Fld := ⟨0x80F10 + 4 * d, 31, 0⟩
def TDS_CFG : Fld := ⟨0x90000, 31, 0⟩
def TDS_CFG_EXT_CORES : Fld := ⟨0x90000, 31, 16⟩
def TDS_CFG_EXT_PRIO_MAX : Fld := ⟨0x90000, 15, 11⟩
def TDS_CFG_PREEMPT_TMO : Fld := ⟨0x90000, 7, 4⟩
def TDS_CFG_WAKE_MAX : Fld := ⟨0x90000, 3, 0⟩
def TDS_TASK_SEL : Fld := ⟨0x90004, 9, 0⟩
def TDS_TASK_W (k : Nat) : Fld := ⟨0x90010 + 4 * k, 31, 0⟩
def TDS_TASK_CMD : Fld := ⟨0x90030, 31, 0⟩
def TDS_TASK_CMD_GO : Fld := ⟨0x90030, 31, 31⟩
def TDS_TASK_CMD_REFUSED : Fld := ⟨0x90030, 30, 30⟩
def TDS_TASK_CMD_CMD : Fld := ⟨0x90030, 18, 16⟩
def TDS_TASK_CMD_TICKS : Fld := ⟨0x90030, 15, 0⟩
def TDS_NEXT : Fld := ⟨0x90040, 31, 0⟩
def TDS_NEXT_VALID : Fld := ⟨0x90040, 31, 31⟩
def TDS_NEXT_EVCOUNT : Fld := ⟨0x90040, 23, 16⟩
def TDS_NEXT_TASK : Fld := ⟨0x90040, 9, 0⟩
def TDS_DONE : Fld := ⟨0x90044, 31, 0⟩
def TDS_DONE_OP : Fld := ⟨0x90044, 31, 30⟩
def TDS_DONE_TICKS : Fld := ⟨0x90044, 15, 0⟩
def TDS_EV_SEL : Fld := ⟨0x90050, 11, 0⟩
def TDS_EV_BIND : Fld := ⟨0x90054, 31, 0⟩
def TDS_EV_BIND_EN0 : Fld := ⟨0x90054, 31, 31⟩
def TDS_EV_BIND_EN1 : Fld := ⟨0x90054, 30, 30⟩
def TDS_EV_BIND_TASK1 : Fld := ⟨0x90054, 25, 16⟩
def TDS_EV_BIND_TASK0 : Fld := ⟨0x90054, 9, 0⟩
def TDS_EV_RAISE : Fld := ⟨0x90058, 5, 0⟩
def TDS_MBOX_CTL : Fld := ⟨0x90060, 31, 0⟩
def TDS_MBOX_CTL_OP : Fld := ⟨0x90060, 31, 30⟩
def TDS_MBOX_CTL_IN_LEVEL : Fld := ⟨0x90060, 22, 16⟩
def TDS_MBOX_CTL_OUT_LEVEL : Fld := ⟨0x90060, 6, 0⟩
def TDS_MBOX_W (k : Nat) : Fld := ⟨0x90064 + 4 * k, 31, 0⟩
def TDS_MBOX_IN (k : Nat) : Fld := ⟨0x90074 + 4 * k, 31, 0⟩
def TDS_MBOX_OUT (k : Nat) : Fld := ⟨0x90084 + 4 * k, 31, 0⟩
def TDS_CORE_STAT (s : Nat) : Fld := ⟨0x90100 + 16 * s, 31, 0⟩
def TDS_CORE_STAT_RUN (s : Nat) : Fld := ⟨0x90100 + 16 * s, 31, 31⟩
def TDS_CORE_STAT_PREEMPT (s : Nat) : Fld := ⟨0x90100 + 16 * s, 30, 30⟩
def TDS_CORE_STAT_ONLINE (s : Nat) : Fld := ⟨0x90100 + 16 * s, 29, 29⟩
def TDS_CORE_STAT_PRIO (s : Nat) : Fld := ⟨0x90100 + 16 * s, 20, 16⟩
def TDS_CORE_STAT_TASK (s : Nat) : Fld := ⟨0x90100 + 16 * s, 9, 0⟩
def TDS_CORE_CTL (s : Nat) : Fld := ⟨0x90104 + 16 * s, 31, 31⟩
def TDS_CORE_FAULT (s : Nat) : Fld := ⟨0x90108 + 16 * s, 31, 0⟩
def TDS_IN_HEAD (s : Nat) : Fld := ⟨0x90200 + 16 * s, 8, 0⟩
def TDS_IN_TAIL (s : Nat) : Fld := ⟨0x90204 + 16 * s, 8, 0⟩
def TDS_INJ_ADDR : Fld := ⟨0x90300, 31, 0⟩
def TDS_INJ_LEN : Fld := ⟨0x90304, 13, 0⟩
def TDS_INJ_CTL : Fld := ⟨0x90308, 31, 0⟩
def TDS_INJ_CTL_GO : Fld := ⟨0x90308, 31, 31⟩
def TDS_INJ_CTL_BUSY : Fld := ⟨0x90308, 30, 30⟩
def TDS_INJ_REFUSED : Fld := ⟨0x9030C, 31, 0⟩
def TDS_PREEMPTS : Fld := ⟨0x90400, 31, 0⟩
def TDS_PREEMPT_LATE : Fld := ⟨0x90404, 31, 0⟩
def TDS_WAKE_LATE : Fld := ⟨0x90408, 31, 0⟩
def TDS_PERIOD_SKIP : Fld := ⟨0x9040C, 31, 0⟩
def TDS_EV_SAT : Fld := ⟨0x90410, 31, 0⟩
def TDS_EV_UNBOUND : Fld := ⟨0x90414, 31, 0⟩
def TDS_STRANDED : Fld := ⟨0x90418, 31, 0⟩
def TDS_MBOX_FULL : Fld := ⟨0x9041C, 31, 0⟩
def TDS_MBOX_FULL_OUT : Fld := ⟨0x9041C, 31, 16⟩
def TDS_MBOX_FULL_IN : Fld := ⟨0x9041C, 15, 0⟩
def TDS_READY : Fld := ⟨0x90420, 10, 0⟩
def RINGSEL : Fld := ⟨0xA0000, 7, 0⟩
def HDMA_RING_BASE_LO : Fld := ⟨0xA0100, 31, 6⟩
def HDMA_RING_BASE_HI : Fld := ⟨0xA0104, 31, 0⟩
def HDMA_RING_CFG : Fld := ⟨0xA0108, 31, 0⟩
def HDMA_RING_CFG_EN : Fld := ⟨0xA0108, 31, 31⟩
def HDMA_RING_CFG_BUFSZ : Fld := ⟨0xA0108, 30, 30⟩
def HDMA_RING_CFG_WB_EN : Fld := ⟨0xA0108, 29, 29⟩
def HDMA_RING_CFG_SIZE : Fld := ⟨0xA0108, 4, 0⟩
def HDMA_RING_TAIL : Fld := ⟨0xA010C, 15, 0⟩
def HDMA_RING_HEAD : Fld := ⟨0xA0110, 15, 0⟩
def HDMA_RING_WB_LO : Fld := ⟨0xA0114, 31, 2⟩
def HDMA_RING_WB_HI : Fld := ⟨0xA0118, 31, 0⟩
def HDMA_RING_IRQ : Fld := ⟨0xA011C, 31, 0⟩
def HDMA_RING_IRQ_EN : Fld := ⟨0xA011C, 31, 31⟩
def HDMA_RING_IRQ_VEC : Fld := ⟨0xA011C, 23, 16⟩
def HDMA_RING_IRQ_CNT : Fld := ⟨0xA011C, 15, 8⟩
def HDMA_RING_IRQ_TIME_US : Fld := ⟨0xA011C, 7, 0⟩
def HDMA_RING_QMAX : Fld := ⟨0xA0120, 15, 0⟩
def HDMA_RING_STAT : Fld := ⟨0xA0124, 31, 0⟩
def HDMA_RING_STAT_ERR : Fld := ⟨0xA0124, 31, 31⟩
def HDMA_RING_STAT_EMPTY : Fld := ⟨0xA0124, 30, 30⟩
def HDMA_RING_STAT_QLEVEL : Fld := ⟨0xA0124, 15, 0⟩
def HDMA_RING_FRAMES : Fld := ⟨0xA0128, 31, 0⟩
def HDMA_RING_EMPTY : Fld := ⟨0xA012C, 31, 0⟩
def HDMA_RING_QDROP : Fld := ⟨0xA0130, 31, 0⟩
def HDMA_RING_TXBAD : Fld := ⟨0xA0134, 31, 0⟩
def HDMA_CAP : Fld := ⟨0xA0F00, 7, 0⟩
def HDMA_VEC_MISC : Fld := ⟨0xA0F04, 31, 0⟩
def HDMA_VEC_MISC_MBOX_EN : Fld := ⟨0xA0F04, 31, 31⟩
def HDMA_VEC_MISC_FAULT_EN : Fld := ⟨0xA0F04, 30, 30⟩
def HDMA_VEC_MISC_MBOX : Fld := ⟨0xA0F04, 15, 8⟩
def HDMA_VEC_MISC_FAULT : Fld := ⟨0xA0F04, 7, 0⟩
def HDMA_NOHOST : Fld := ⟨0xA0F08, 31, 0⟩
def HDMA_LSO_SEGS : Fld := ⟨0xA0F0C, 31, 0⟩
def HDMA_LOG_BASE_LO : Fld := ⟨0xA0F20, 31, 5⟩
def HDMA_LOG_BASE_HI : Fld := ⟨0xA0F24, 31, 0⟩
def HDMA_LOG_CFG : Fld := ⟨0xA0F28, 31, 0⟩
def HDMA_LOG_CFG_EN : Fld := ⟨0xA0F28, 31, 31⟩
def HDMA_LOG_CFG_SIZE : Fld := ⟨0xA0F28, 4, 0⟩
def HDMA_CORE_QMAX (s : Nat) : Fld := ⟨0xA0F40 + 4 * s, 15, 0⟩
def HDMA_CORE_DROP (s : Nat) : Fld := ⟨0xA0F80 + 4 * s, 31, 0⟩
def TWN_CFG : Fld := ⟨0xB0000, 31, 0⟩
def TWN_CFG_AUTO : Fld := ⟨0xB0000, 31, 31⟩
def TWN_CFG_COPY_RULES : Fld := ⟨0xB0000, 30, 30⟩
def TWN_CFG_WAIT_SF : Fld := ⟨0xB0000, 23, 16⟩
def TWN_STAT : Fld := ⟨0xB0004, 31, 0⟩
def TWN_STAT_STRAP : Fld := ⟨0xB0004, 31, 30⟩
def TWN_STAT_PARTNER : Fld := ⟨0xB0004, 29, 28⟩
def TWN_STAT_HB_OK : Fld := ⟨0xB0004, 27, 27⟩
def TWN_STAT_ALIVE1 : Fld := ⟨0xB0004, 26, 26⟩
def TWN_STAT_ALIVE0 : Fld := ⟨0xB0004, 25, 25⟩
def TWN_STAT_STRAP_ERR : Fld := ⟨0xB0004, 24, 24⟩
def TWN_STAT_RULE_MASTER : Fld := ⟨0xB0004, 23, 23⟩
def TWN_STAT_COMPLETE : Fld := ⟨0xB0004, 22, 22⟩
def TWN_STAT_COPY : Fld := ⟨0xB0004, 18, 16⟩
def TWN_STAT_LANES_TX : Fld := ⟨0xB0004, 15, 8⟩
def TWN_STAT_LANES_RX : Fld := ⟨0xB0004, 7, 0⟩
def TWN_LANES : Fld := ⟨0xB0008, 31, 0⟩
def TWN_LANES_REFUSED : Fld := ⟨0xB0008, 31, 31⟩
def TWN_LANES_OUT : Fld := ⟨0xB0008, 7, 0⟩
def TWN_SWITCH : Fld := ⟨0xB000C, 31, 0⟩
def TWN_SWITCH_GO : Fld := ⟨0xB000C, 31, 31⟩
def TWN_SWITCH_FORCE : Fld := ⟨0xB000C, 30, 30⟩
def TWN_SWITCH_TO : Fld := ⟨0xB000C, 29, 29⟩
def TWN_SWITCH_RESULT : Fld := ⟨0xB000C, 25, 24⟩
def TWN_SWITCH_CH : Fld := ⟨0xB000C, 5, 0⟩
def TWN_LINK_DLY : Fld := ⟨0xB0010, 31, 0⟩
def TWN_LINK_DLY_VALID : Fld := ⟨0xB0010, 31, 31⟩
def TWN_LINK_DLY_DLY : Fld := ⟨0xB0010, 30, 0⟩
def TWN_PEG_OFS : Fld := ⟨0xB0014, 31, 0⟩
def TWN_COPY_SEQ : Fld := ⟨0xB0018, 31, 0⟩
def TWN_COPY_ACK : Fld := ⟨0xB001C, 31, 0⟩
def TWN_HB_MISS : Fld := ⟨0xB0020, 31, 0⟩
def TWN_ALIVE_LOSS : Fld := ⟨0xB0024, 31, 0⟩
def TWN_SWITCHES : Fld := ⟨0xB0028, 31, 0⟩
def TWN_RESYNCS : Fld := ⟨0xB002C, 31, 0⟩
def TWN_RULE_REFUSED : Fld := ⟨0xB0030, 31, 0⟩
def TWN_STBY_DROP : Fld := ⟨0xB0034, 31, 0⟩
def TWN_TX_NOLANE : Fld := ⟨0xB0038, 31, 0⟩
def TWN_RX_FWD_DROP : Fld := ⟨0xB003C, 31, 0⟩
def TWN_DUAL_ACT : Fld := ⟨0xB0040, 31, 0⟩
def TWN_EQD_CLAMP : Fld := ⟨0xB0044, 31, 0⟩
def TWN_PAIR (c : Nat) : Fld := ⟨0xB0100 + 4 * c, 31, 0⟩
def TWN_PAIR_VALID (c : Nat) : Fld := ⟨0xB0100 + 4 * c, 31, 31⟩
def TWN_PAIR_PREF (c : Nat) : Fld := ⟨0xB0100 + 4 * c, 30, 30⟩
def TWN_PAIR_STATE (c : Nat) : Fld := ⟨0xB0100 + 4 * c, 29, 29⟩
def TWN_PAIR_GAP (c : Nat) : Fld := ⟨0xB0100 + 4 * c, 23, 16⟩
def TWN_PAIR_PCH (c : Nat) : Fld := ⟨0xB0100 + 4 * c, 5, 0⟩
def TWN_SOFS (c : Nat) : Fld := ⟨0xB0200 + 4 * c, 31, 0⟩
def TWN_SOFS_LOCK (c : Nat) : Fld := ⟨0xB0200 + 4 * c, 31, 31⟩
def TWN_SOFS_N (c : Nat) : Fld := ⟨0xB0200 + 4 * c, 30, 24⟩
def TWN_SOFS_OFS (c : Nat) : Fld := ⟨0xB0200 + 4 * c, 23, 0⟩
def TWN_L_STAT (l : Nat) : Fld := ⟨0xB0400 + 64 * l, 31, 0⟩
def TWN_L_STAT_LOCK_LOSS (l : Nat) : Fld := ⟨0xB0400 + 64 * l, 31, 24⟩
def TWN_L_STAT_EQ_CLAMP (l : Nat) : Fld := ⟨0xB0400 + 64 * l, 16, 16⟩
def TWN_L_STAT_PWR (l : Nat) : Fld := ⟨0xB0400 + 64 * l, 11, 10⟩
def TWN_L_STAT_FEC (l : Nat) : Fld := ⟨0xB0400 + 64 * l, 3, 3⟩
def TWN_L_STAT_CWL (l : Nat) : Fld := ⟨0xB0400 + 64 * l, 2, 2⟩
def TWN_L_STAT_CDR (l : Nat) : Fld := ⟨0xB0400 + 64 * l, 1, 1⟩
def TWN_L_STAT_SIG (l : Nat) : Fld := ⟨0xB0400 + 64 * l, 0, 0⟩
def TWN_L_CFG (l : Nat) : Fld := ⟨0xB0404 + 64 * l, 31, 0⟩
def TWN_L_CFG_RX_POL (l : Nat) : Fld := ⟨0xB0404 + 64 * l, 1, 1⟩
def TWN_L_CFG_TX_POL (l : Nat) : Fld := ⟨0xB0404 + 64 * l, 0, 0⟩
def TWN_L_EQ_TX (l : Nat) : Fld := ⟨0xB0408 + 64 * l, 31, 0⟩
def TWN_L_EQ_TX_POST1 (l : Nat) : Fld := ⟨0xB0408 + 64 * l, 31, 24⟩
def TWN_L_EQ_TX_MAIN (l : Nat) : Fld := ⟨0xB0408 + 64 * l, 23, 16⟩
def TWN_L_EQ_TX_PRE1 (l : Nat) : Fld := ⟨0xB0408 + 64 * l, 15, 8⟩
def TWN_L_EQ_TX_PRE2 (l : Nat) : Fld := ⟨0xB0408 + 64 * l, 7, 0⟩
def TWN_L_EQ_RX0 (l : Nat) : Fld := ⟨0xB040C + 64 * l, 31, 0⟩
def TWN_L_EQ_RX0_DFE1 (l : Nat) : Fld := ⟨0xB040C + 64 * l, 31, 24⟩
def TWN_L_EQ_RX0_VGA (l : Nat) : Fld := ⟨0xB040C + 64 * l, 21, 16⟩
def TWN_L_EQ_RX0_CTLE_LF (l : Nat) : Fld := ⟨0xB040C + 64 * l, 11, 8⟩
def TWN_L_EQ_RX0_CTLE_PEAK (l : Nat) : Fld := ⟨0xB040C + 64 * l, 4, 0⟩
def TWN_L_EQ_RX1 (l : Nat) : Fld := ⟨0xB0410 + 64 * l, 31, 0⟩
def TWN_L_EQ_RX1_DFE5 (l : Nat) : Fld := ⟨0xB0410 + 64 * l, 31, 24⟩
def TWN_L_EQ_RX1_DFE4 (l : Nat) : Fld := ⟨0xB0410 + 64 * l, 23, 16⟩
def TWN_L_EQ_RX1_DFE3 (l : Nat) : Fld := ⟨0xB0410 + 64 * l, 15, 8⟩
def TWN_L_EQ_RX1_DFE2 (l : Nat) : Fld := ⟨0xB0410 + 64 * l, 7, 0⟩
def TWN_L_EYE (l : Nat) : Fld := ⟨0xB0418 + 64 * l, 31, 0⟩
def TWN_L_EYE_THR_V (l : Nat) : Fld := ⟨0xB0418 + 64 * l, 31, 24⟩
def TWN_L_EYE_MARGIN_H (l : Nat) : Fld := ⟨0xB0418 + 64 * l, 15, 8⟩
def TWN_L_EYE_MARGIN_V (l : Nat) : Fld := ⟨0xB0418 + 64 * l, 7, 0⟩
def TWN_L_FEC_CORR (l : Nat) : Fld := ⟨0xB041C + 64 * l, 31, 0⟩
def TWN_L_FEC_UNCORR (l : Nat) : Fld := ⟨0xB0420 + 64 * l, 31, 0⟩
def TWN_L_TF_STAT (l : Nat) : Fld := ⟨0xB0424 + 64 * l, 31, 0⟩
def TWN_L_TF_STAT_ALIGN (l : Nat) : Fld := ⟨0xB0424 + 64 * l, 31, 30⟩
def TWN_L_TF_STAT_SFP (l : Nat) : Fld := ⟨0xB0424 + 64 * l, 15, 10⟩
def TWN_L_TF_STAT_LAST_J (l : Nat) : Fld := ⟨0xB0424 + 64 * l, 1, 0⟩
def TWN_L_DEF_STAT (l : Nat) : Fld := ⟨0xB0428 + 64 * l, 31, 0⟩
def TWN_L_DEF_STAT_SF (l : Nat) : Fld := ⟨0xB0428 + 64 * l, 7, 7⟩
def TWN_L_DEF_STAT_LOF (l : Nat) : Fld := ⟨0xB0428 + 64 * l, 2, 2⟩
def TWN_L_DEF_STAT_LOCW (l : Nat) : Fld := ⟨0xB0428 + 64 * l, 1, 1⟩
def TWN_L_DEF_STAT_LOS (l : Nat) : Fld := ⟨0xB0428 + 64 * l, 0, 0⟩
def TWN_L_STAMP (l : Nat) : Fld := ⟨0xB042C + 64 * l, 31, 0⟩
def TWN_L_STAMP_LAT_RX (l : Nat) : Fld := ⟨0xB042C + 64 * l, 31, 16⟩
def TWN_L_STAMP_LAT_TX (l : Nat) : Fld := ⟨0xB042C + 64 * l, 15, 0⟩
def FLT_SRC_SEL : Fld := ⟨0xC0000, 31, 0⟩
def FLT_SRC_SEL_SRC : Fld := ⟨0xC0000, 20, 16⟩
def FLT_SRC_SEL_INST : Fld := ⟨0xC0000, 7, 0⟩
def FLT_SRC_CFG : Fld := ⟨0xC0004, 31, 0⟩
def FLT_SRC_CFG_EN : Fld := ⟨0xC0004, 31, 31⟩
def FLT_SRC_CFG_ACTION : Fld := ⟨0xC0004, 30, 29⟩
def FLT_SRC_CFG_FOUT : Fld := ⟨0xC0004, 28, 28⟩
def FLT_SRC_N : Fld := ⟨0xC0008, 6, 0⟩
def FLT_SRC_W : Fld := ⟨0xC000C, 23, 0⟩
def FLT_INST_STAT : Fld := ⟨0xC0010, 31, 0⟩
def FLT_INST_STAT_LASTING : Fld := ⟨0xC0010, 31, 31⟩
def FLT_INST_STAT_EFFECT : Fld := ⟨0xC0010, 30, 30⟩
def FLT_INST_STAT_NOEFFECT : Fld := ⟨0xC0010, 29, 29⟩
def FLT_INST_STAT_ROW : Fld := ⟨0xC0010, 28, 16⟩
def FLT_INST_STAT_TRACKED : Fld := ⟨0xC0010, 15, 15⟩
def FLT_INST_STAT_WCOUNT : Fld := ⟨0xC0010, 6, 0⟩
def FLT_INST_TOTAL : Fld := ⟨0xC0014, 31, 0⟩
def FLT_INST_CTL : Fld := ⟨0xC0018, 31, 0⟩
def FLT_INST_CTL_CLEAR : Fld := ⟨0xC0018, 31, 31⟩
def FLT_INST_CTL_UNDO : Fld := ⟨0xC0018, 30, 30⟩
def FLT_LASTING : Fld := ⟨0xC0020, 15, 0⟩
def FLT_FOUT : Fld := ⟨0xC0024, 31, 0⟩
def FLT_FOUT_FORCE : Fld := ⟨0xC0024, 31, 31⟩
def FLT_FOUT_STATE : Fld := ⟨0xC0024, 30, 30⟩
def FLT_FOUT_CAUSE : Fld := ⟨0xC0024, 2, 0⟩
def FLT_LOG_SEQ : Fld := ⟨0xC0100, 31, 0⟩
def FLT_LOG_IDX : Fld := ⟨0xC0104, 12, 0⟩
def FLT_LOG_W (k : Nat) : Fld := ⟨0xC0108 + 4 * k, 31, 0⟩
def FLT_BIST_CTL : Fld := ⟨0xC0300, 31, 0⟩
def FLT_BIST_CTL_GO : Fld := ⟨0xC0300, 31, 31⟩
def FLT_BIST_CTL_KIND : Fld := ⟨0xC0300, 10, 8⟩
def FLT_BIST_CTL_IDX : Fld := ⟨0xC0300, 3, 0⟩
def FLT_BIST_STAT : Fld := ⟨0xC0304, 31, 0⟩
def FLT_BIST_STAT_BUSY : Fld := ⟨0xC0304, 31, 31⟩
def FLT_BIST_STAT_REFUSED : Fld := ⟨0xC0304, 30, 30⟩
def FLT_BIST_STAT_RESULT : Fld := ⟨0xC0304, 29, 28⟩
def FLT_BIST_STAT_REFUSER : Fld := ⟨0xC0304, 2, 0⟩
def FLT_BIST_ERR : Fld := ⟨0xC0308, 31, 0⟩
def FLT_IN_CFG (i : Nat) : Fld := ⟨0xC0400 + 16 * i, 31, 0⟩
def FLT_IN_CFG_EN (i : Nat) : Fld := ⟨0xC0400 + 16 * i, 31, 31⟩
def FLT_IN_CFG_LEVEL (i : Nat) : Fld := ⟨0xC0400 + 16 * i, 30, 30⟩
def FLT_IN_CFG_POL (i : Nat) : Fld := ⟨0xC0400 + 16 * i, 29, 29⟩
def FLT_IN_CFG_LOG (i : Nat) : Fld := ⟨0xC0400 + 16 * i, 28, 28⟩
def FLT_IN_CFG_STUCK_TICKS (i : Nat) : Fld := ⟨0xC0400 + 16 * i, 27, 16⟩
def FLT_IN_CFG_DEGLITCH (i : Nat) : Fld := ⟨0xC0400 + 16 * i, 15, 8⟩
def FLT_IN_CFG_MAX_EDGES (i : Nat) : Fld := ⟨0xC0400 + 16 * i, 7, 0⟩
def FLT_IN_STAT (i : Nat) : Fld := ⟨0xC0404 + 16 * i, 31, 0⟩
def FLT_IN_STAT_CHATTER (i : Nat) : Fld := ⟨0xC0404 + 16 * i, 31, 31⟩
def FLT_IN_STAT_STUCK (i : Nat) : Fld := ⟨0xC0404 + 16 * i, 30, 30⟩
def FLT_IN_STAT_HELD (i : Nat) : Fld := ⟨0xC0404 + 16 * i, 29, 29⟩
def FLT_IN_STAT_ACTIVE (i : Nat) : Fld := ⟨0xC0404 + 16 * i, 28, 28⟩
def FLT_IN_SUPPR (i : Nat) : Fld := ⟨0xC0408 + 16 * i, 31, 0⟩
def FLT_IN_GLITCH (i : Nat) : Fld := ⟨0xC040C + 16 * i, 31, 0⟩
def FLT_GPIO_OUT : Fld := ⟨0xC0500, 31, 0⟩
def FLT_GPIO_OUT_OE : Fld := ⟨0xC0500, 31, 16⟩
def FLT_GPIO_OUT_OUT : Fld := ⟨0xC0500, 15, 0⟩
def FLT_GPIO_IN : Fld := ⟨0xC0504, 15, 0⟩
def TST_TARGET : Fld := ⟨0xD0000, 31, 0⟩
def TST_TARGET_SUROK : Fld := ⟨0xD0000, 8, 8⟩
def TST_TARGET_LANE : Fld := ⟨0xD0000, 2, 0⟩
def TST_PRBS_CFG : Fld := ⟨0xD0100, 31, 0⟩
def TST_PRBS_CFG_SQ_HALF : Fld := ⟨0xD0100, 19, 16⟩
def TST_PRBS_CFG_CHK_PAT : Fld := ⟨0xD0100, 9, 8⟩
def TST_PRBS_CFG_GEN_PAT : Fld := ⟨0xD0100, 5, 4⟩
def TST_PRBS_CFG_CHK_EN : Fld := ⟨0xD0100, 1, 1⟩
def TST_PRBS_CFG_GEN_EN : Fld := ⟨0xD0100, 0, 0⟩
def TST_PRBS_STAT : Fld := ⟨0xD0104, 31, 0⟩
def TST_PRBS_STAT_REFUSED : Fld := ⟨0xD0104, 31, 31⟩
def TST_PRBS_STAT_CHK_LOCK : Fld := ⟨0xD0104, 30, 30⟩
def TST_PRBS_ERR : Fld := ⟨0xD0108, 31, 0⟩
def TST_INJ : Fld := ⟨0xD010C, 31, 0⟩
def TST_INJ_FIRE : Fld := ⟨0xD010C, 31, 31⟩
def TST_INJ_CONT : Fld := ⟨0xD010C, 30, 30⟩
def TST_INJ_MODE : Fld := ⟨0xD010C, 29, 28⟩
def TST_INJ_BURST_LEN : Fld := ⟨0xD010C, 27, 24⟩
def TST_INJ_SYM_OFS : Fld := ⟨0xD010C, 23, 14⟩
def TST_INJ_BIT : Fld := ⟨0xD010C, 13, 10⟩
def TST_INJ_PERIOD : Fld := ⟨0xD010C, 9, 0⟩
def TST_LOOP : Fld := ⟨0xD0110, 31, 0⟩
def TST_LOOP_TX_IDLE_NEAR : Fld := ⟨0xD0110, 2, 2⟩
def TST_LOOP_FAR : Fld := ⟨0xD0110, 1, 1⟩
def TST_LOOP_NEAR : Fld := ⟨0xD0110, 0, 0⟩
def TST_EYE_SCAN : Fld := ⟨0xD0114, 31, 0⟩
def TST_EYE_SCAN_START : Fld := ⟨0xD0114, 31, 31⟩
def TST_EYE_SCAN_DONE : Fld := ⟨0xD0114, 30, 30⟩
def TST_EYE_SCAN_V_OFS : Fld := ⟨0xD0114, 29, 23⟩
def TST_EYE_SCAN_H_OFS : Fld := ⟨0xD0114, 22, 16⟩
def TST_EYE_SCAN_ERRORS : Fld := ⟨0xD0114, 15, 0⟩

end F

end Sys2Proof.Machine
end

