-- ==== Sys2Proof/Machine/Tab.lean ====
section
/-!
DEFINITION. Sparse tables: a list of (key, value) pairs in one canonical form, keys strictly rising and no entry
equal to the value an unlisted key reads as, so that equal tables are equal data. Every indexed piece of state
(registers, channels, queues, memory bytes) is held in one of these.
-/

namespace Sys2Proof.Machine

/-- A sparse table over natural-number keys. -/
abbrev Tab (α : Type) := List (Nat × α)

/-- The value listed at a key, if one is. -/
def tfind {α : Type} : Tab α → Nat → Option α
  | [], _ => none
  | (k', v) :: t, k => if k' = k then some v else tfind t k

/-- The value at a key; an unlisted key reads as its default. -/
def tget {α : Type} (d : Nat → α) (t : Tab α) (k : Nat) : α := (tfind t k).getD (d k)

/-- A table without a key. -/
def tdel {α : Type} (t : Tab α) (k : Nat) : Tab α := t.filter (fun e => e.1 != k)

/-- A table that does not list a key with a value put in at its place in the rising order; the default is not listed. -/
def tins {α : Type} [DecidableEq α] (d : Nat → α) : Tab α → Nat → α → Tab α
  | [], k, v => if v = d k then [] else [(k, v)]
  | e :: t, k, v => if k < e.1 then (if v = d k then e :: t else (k, v) :: e :: t) else e :: tins d t k v

/-- A table with the value at a key replaced; writing the default takes the entry out. -/
def tput {α : Type} [DecidableEq α] (d : Nat → α) (t : Tab α) (k : Nat) (v : α) : Tab α := tins d (tdel t k) k v

/-- Keys strictly rising from a bound. -/
def rising : Option Nat → List Nat → Bool
  | _, [] => true
  | none, k :: ks => rising (some k) ks
  | some b, k :: ks => decide (b < k) && rising (some k) ks

/-- The canonical form of a table. -/
def twf {α : Type} [DecidableEq α] (d : Nat → α) (t : Tab α) : Bool :=
  rising none (t.map (·.1)) && t.all (fun e => decide (e.2 ≠ d e.1))

end Sys2Proof.Machine
end

