-- ==== Sys2Proof/Machine/RegMap.lean ====
section
/-!
DEFINITION. The register map: one row for every register that spec/17_register_map.md and the field tables of
the chapters give, with its BAR0 offset, how many there are and how far apart, which select or requester banks
it (R36, R424, R426), the value of the whole register after power-up, reset and restart (R428), and its fields
with their access types (R7). Bits in no field are reserved (R6).
-/

namespace Sys2Proof.Machine

/-- The access types of Table: Access types (R7). -/
inductive Acc where
  | rw | ro | wo | w1c | w1s | rc | rwt
  deriving DecidableEq, Repr

/-- What names the instance of a register that an access reaches: nothing (a device-level register), the
requester itself (R426), a select register (R424), or a sub-index register (17_register_map, Decoding). -/
inductive Bank where
  | dev | req | chan | oct | queue | peg | memch | ring | meter | lane | reqChan
  | fltSrc | fltInst | event | task | logEntry
  deriving DecidableEq, Repr

/-- One row of the register map. -/
structure RegRow where
  name : String
  base : Nat
  n1 : Nat
  s1 : Nat
  n2 : Nat
  s2 : Nat
  bank : Bank
  reset : Nat
  flds : List (Nat × Nat × Acc)
  deriving DecidableEq, Repr

def reg1 (name : String) (base : Nat) (bank : Bank) (reset : Nat) (flds : List (Nat × Nat × Acc)) : RegRow :=
  { name, base, n1 := 1, s1 := 0x100000, n2 := 1, s2 := 0x100000, bank, reset, flds }

def regN (name : String) (base n s : Nat) (bank : Bank) (reset : Nat) (flds : List (Nat × Nat × Acc)) : RegRow :=
  { name, base, n1 := n, s1 := s, n2 := 1, s2 := 0x100000, bank, reset, flds }

def regNM (name : String) (base n1 s1 n2 s2 : Nat) (bank : Bank) (reset : Nat)
    (flds : List (Nat × Nat × Acc)) : RegRow :=
  { name, base, n1, s1, n2, s2, bank, reset, flds }

/-- Registers of BAR0 region 0x0. -/
def regs0_0 : List RegRow := [
  reg1 "DEV_ID" 0x0 .dev 0x64404D00 [(31, 16, .ro), (15, 8, .ro)],
  reg1 "DEV_STEP" 0x4 .dev 0x0 [(7, 4, .ro), (3, 0, .ro)],
  reg1 "DEV_WHOAMI" 0x8 .dev 0x0 [(4, 0, .ro)],
  reg1 "DEV_TICK_LO" 0x10 .dev 0x0 [(31, 0, .ro)],
  reg1 "DEV_TICK_HI" 0x14 .req 0x0 [(15, 0, .ro)],
  reg1 "DEV_TICK_STEPS" 0x18 .dev 0x0 [(15, 0, .rc)],
  reg1 "TICK_COMMIT" 0x100 .req 0x0 [(17, 17, .wo), (16, 16, .wo), (15, 8, .wo), (0, 0, .wo)],
  reg1 "TICK_COMMIT_CHM0" 0x104 .req 0x0 [(31, 0, .rw)],
  reg1 "TICK_COMMIT_CHM1" 0x108 .req 0x0 [(31, 0, .rw)],
  reg1 "TICK_COMMIT_STAT" 0x10C .req 0x0 [(31, 31, .ro), (30, 30, .ro), (23, 16, .ro), (15, 8, .ro), (7, 0, .ro)],
  reg1 "TICK_COMMIT_TICK" 0x110 .req 0x0 [(31, 0, .ro)],
  reg1 "DEV_DESC_FULL" 0x200 .dev 0x0 [(31, 0, .rc)]]

/-- Registers of BAR0 region 0x1. -/
def regs1_0 : List RegRow := [
  reg1 "IMG_STAT" 0x10000 .dev 0x0 [(31, 28, .ro), (27, 27, .ro), (26, 26, .ro), (25, 25, .ro), (22, 16, .ro), (14, 8, .ro)],
  reg1 "IMG_CAUSE" 0x10004 .dev 0x909 [(15, 8, .ro), (7, 0, .ro)],
  reg1 "IMG_BUILD" 0x10008 .dev 0x0 [(31, 0, .ro)],
  reg1 "IMG_FUSE_CTL" 0x1000C .dev 0x0 [(31, 31, .wo), (30, 30, .ro), (29, 29, .ro)],
  reg1 "IMG_VERIFY" 0x10010 .dev 0x0 [(31, 31, .wo), (30, 30, .ro), (29, 29, .ro), (28, 28, .rw), (22, 16, .ro), (7, 0, .ro)],
  reg1 "IMG_CTL" 0x10014 .dev 0x0 [(31, 31, .wo), (7, 0, .wo)],
  reg1 "IMG_REC_SKIP" 0x10018 .dev 0x0 [(31, 0, .ro)],
  reg1 "IMG_RDIG_CNT_LO" 0x1001C .req 0x0 [(31, 0, .ro)],
  reg1 "IMG_RDIG_CNT_HI" 0x10020 .req 0x0 [(31, 0, .ro)],
  regN "IMG_MDIG_Wk" 0x10040 16 4 .dev 0x0 [(31, 0, .ro)],
  regN "IMG_RDIG_Wk" 0x10080 16 4 .req 0x0 [(31, 0, .ro)],
  reg1 "IMG_FL_CTL" 0x10100 .dev 0x0 [(31, 31, .wo), (30, 30, .ro), (29, 29, .ro), (28, 27, .rw), (7, 0, .rw)],
  reg1 "IMG_FL_ADDR" 0x10104 .dev 0x0 [(31, 0, .rw)],
  regN "IMG_FL_BUF" 0x10200 64 4 .dev 0x0 [(31, 0, .rw)],
  reg1 "IMG_ATT_CTL" 0x10300 .req 0x0 [(31, 31, .wo), (30, 30, .ro), (29, 29, .ro)],
  regN "IMG_ATT_NONCE_Wk" 0x10304 8 4 .req 0x0 [(31, 0, .rw)],
  regN "IMG_ATT_BIND_Wk" 0x10324 16 4 .req 0x0 [(31, 0, .rw)],
  regN "IMG_ATT_BUF" 0x11000 1239 4 .req 0x0 [(31, 0, .ro)],
  regN "IMG_IDC_BUF" 0x13000 1809 4 .dev 0x0 [(31, 0, .ro)]]

/-- Registers of BAR0 region 0x2. -/
def regs2_0 : List RegRow := [
  reg1 "PWR_FEED_STAT" 0x20000 .dev 0x0 [(31, 31, .ro), (30, 30, .ro), (29, 29, .ro), (28, 28, .ro), (27, 27, .ro), (15, 0, .ro)],
  reg1 "PWR_FEED_V" 0x20004 .dev 0x0 [(31, 16, .ro), (15, 0, .ro)],
  reg1 "PWR_FEED_CFG" 0x20008 .dev 0xA [(7, 0, .rwt)],
  reg1 "PWR_FEED_SW" 0x2000C .dev 0x0 [(31, 0, .rc)],
  reg1 "PWR_INPUT" 0x20010 .dev 0x0 [(31, 16, .rc), (15, 0, .ro)],
  reg1 "PWR_RET_FAIL" 0x20014 .dev 0x0 [(31, 0, .w1c)],
  reg1 "PWR_SLEEP_DROP" 0x20018 .dev 0x0 [(31, 0, .rc)],
  reg1 "PWR_DS_CTL" 0x20020 .dev 0x0 [(31, 31, .wo), (18, 16, .ro), (1, 0, .ro)],
  reg1 "PWR_VETO" 0x20024 .dev 0x0 [(5, 0, .rw)],
  regNM "PWR_ACCT_Ss_Kk" 0x20400 8 64 16 4 .dev 0x0 [(31, 0, .rc)]]

/-- Registers of BAR0 region 0x3. -/
def regs3_0 : List RegRow := [
  reg1 "PEGSEL" 0x30000 .req 0x0 [(3, 0, .rw)],
  reg1 "PEG_CTL" 0x30100 .peg 0x0 [(31, 31, .wo), (30, 30, .wo), (29, 29, .wo)],
  reg1 "PEG_CAP_SL" 0x30104 .req 0x0 [(31, 0, .ro)],
  reg1 "PEG_CAP_SH" 0x30108 .req 0x0 [(15, 0, .ro)],
  reg1 "PEG_CAP_NS" 0x3010C .req 0x0 [(29, 0, .ro)],
  reg1 "PEG_CAP_FR" 0x30110 .req 0x0 [(15, 0, .ro)],
  reg1 "PEG_CAP0_SL" 0x30114 .req 0x0 [(31, 0, .ro)],
  reg1 "PEG_CAP0_SH" 0x30118 .req 0x0 [(15, 0, .ro)],
  reg1 "PEG_CAP0_NS" 0x3011C .req 0x0 [(29, 0, .ro)],
  reg1 "PEG_CAP0_FR" 0x30120 .req 0x0 [(15, 0, .ro)],
  reg1 "PEG_SET_SL" 0x30124 .req 0x0 [(31, 0, .rw)],
  reg1 "PEG_SET_SH" 0x30128 .req 0x0 [(15, 0, .rw)],
  reg1 "PEG_SET_NS" 0x3012C .req 0x0 [(29, 0, .rw)],
  reg1 "PEG_RATE_SET" 0x30130 .peg 0x0 [(31, 0, .rwt)],
  reg1 "PEG_RATE_NOW" 0x30134 .peg 0x0 [(31, 0, .ro)],
  reg1 "PEG_SRV_CFG" 0x30138 .peg 0x40001000 [(31, 31, .rwt), (30, 30, .rwt), (29, 29, .rwt), (28, 26, .rwt), (25, 20, .rwt), (15, 8, .rwt)],
  reg1 "PEG_SRV_KP" 0x3013C .peg 0x8000 [(31, 0, .rwt)],
  reg1 "PEG_SRV_KI" 0x30140 .peg 0x800 [(31, 0, .rwt)],
  reg1 "PEG_SRV_THR" 0x30144 .peg 0x3E80032 [(31, 16, .rwt), (15, 0, .rwt)],
  reg1 "PEG_SRV_TMO" 0x30148 .peg 0x1E848 [(19, 0, .rwt)],
  reg1 "PEG_SRV_FWOFS_LO" 0x3014C .peg 0x0 [(31, 0, .rw)],
  reg1 "PEG_SRV_FWOFS_HI" 0x30150 .peg 0x0 [(31, 0, .rw)],
  reg1 "PEG_SRV_STAT" 0x30154 .peg 0x0 [(31, 30, .ro), (29, 29, .ro), (28, 28, .ro)],
  reg1 "PEG_SRV_LAST" 0x30158 .peg 0x0 [(31, 0, .ro)],
  reg1 "PEG_SRV_INTEG" 0x3015C .peg 0x0 [(31, 0, .ro)]]

/-- Registers of BAR0 region 0x3. -/
def regs3_1 : List RegRow := [
  reg1 "PEG_SRV_STEPS" 0x30160 .peg 0x0 [(31, 0, .rc)],
  reg1 "PEG_SRV_SAMPLES" 0x30164 .peg 0x0 [(31, 0, .rc)],
  regN "PEG_PPSIN_CFG_Ii" 0x30800 2 32 .dev 0x0 [(31, 31, .rwt), (30, 30, .rwt), (29, 26, .rwt)],
  regN "PEG_PPSIN_DLY_Ii" 0x30804 2 32 .dev 0x0 [(31, 0, .rwt)],
  regN "PEG_PPSIN_STAT_Ii" 0x30808 2 32 .dev 0x0 [(31, 31, .ro)],
  regN "PEG_PPSIN_EXTRA_Ii" 0x3080C 2 32 .dev 0x0 [(31, 0, .rc)],
  regN "PEG_PPSIN_EDGE_SL_Ii" 0x30810 2 32 .dev 0x0 [(31, 0, .ro)],
  regN "PEG_PPSIN_EDGE_SH_Ii" 0x30814 2 32 .dev 0x0 [(15, 0, .ro)],
  regN "PEG_PPSIN_EDGE_NS_Ii" 0x30818 2 32 .dev 0x0 [(29, 0, .ro)],
  regN "PEG_PPSOUT_CFG_Oo" 0x30840 2 16 .dev 0x100186A0 [(31, 31, .rwt), (30, 30, .rwt), (29, 28, .rwt), (27, 24, .rwt), (23, 0, .rwt)],
  regN "PEG_PPSOUT_OFS_Oo" 0x30844 2 16 .dev 0x0 [(29, 0, .rwt)],
  regN "PEG_PPSOUT_CAL_Oo" 0x30848 2 16 .dev 0x0 [(15, 0, .rwt)],
  reg1 "PEG_TOD_CFG" 0x30860 .dev 0x20A0000 [(31, 31, .rwt), (30, 30, .rwt), (29, 29, .rwt), (28, 28, .rwt), (27, 27, .rwt), (25, 24, .rwt), (23, 16, .rwt)],
  reg1 "PEG_TOD_OUT" 0x30864 .dev 0x250000 [(31, 16, .rw), (15, 8, .rw), (1, 0, .rw)],
  regN "PEG_TOD_INk" 0x30868 4 4 .dev 0x0 [(31, 0, .ro)],
  reg1 "PEG_TOD_STAT" 0x30878 .dev 0x0 [(31, 31, .w1c), (30, 30, .ro)],
  reg1 "PEG_TOD_ERR" 0x3087C .dev 0x0 [(31, 0, .rc)],
  reg1 "PEG_TOD_STEPS" 0x30880 .dev 0x0 [(31, 0, .rc)],
  reg1 "PEG_REF_CFG" 0x30890 .dev 0xA0000000 [(31, 31, .rwt), (30, 30, .rwt), (29, 29, .rwt)],
  reg1 "PEG_REF_STAT" 0x30894 .dev 0x0 [(31, 30, .ro), (29, 29, .ro), (28, 28, .ro), (27, 27, .ro)],
  reg1 "PEG_REF_SW" 0x30898 .dev 0x0 [(31, 0, .rc)]]

/-- Registers of BAR0 region 0x4. -/
def regs4_0 : List RegRow := [
  reg1 "CHSEL" 0x40000 .req 0x0 [(9, 8, .rw), (5, 0, .rw)],
  reg1 "CH_ROLE" 0x40100 .chan 0x0 [(5, 4, .ro), (1, 0, .rwt)],
  reg1 "CH_LTICK_OFS" 0x40104 .chan 0x0 [(31, 31, .ro), (17, 0, .ro)],
  reg1 "CH_LTICK_NUM" 0x40108 .chan 0x0 [(31, 0, .ro)],
  reg1 "CH_LTICK_WRAP" 0x4010C .chan 0x0 [(15, 0, .rc)],
  reg1 "CH_ROLE_DISC" 0x40110 .chan 0x0 [(31, 0, .rc)],
  reg1 "CH_LANE_STAT" 0x40200 .chan 0x800 [(31, 24, .rc), (17, 17, .ro), (16, 16, .ro), (11, 10, .ro), (3, 3, .ro), (2, 2, .ro), (1, 1, .ro), (0, 0, .ro)],
  reg1 "CH_LANE_CFG" 0x40204 .chan 0x20 [(5, 5, .rwt), (4, 4, .rwt), (1, 1, .rwt), (0, 0, .rwt)],
  reg1 "CH_EQ_TX" 0x40208 .chan 0x7F0000 [(31, 24, .rwt), (23, 16, .rwt), (15, 8, .rwt), (7, 0, .rwt)],
  reg1 "CH_EQ_RX0" 0x4020C .chan 0x200000 [(31, 24, .rwt), (21, 16, .rwt), (11, 8, .rwt), (4, 0, .rwt)],
  reg1 "CH_EQ_RX1" 0x40210 .chan 0x0 [(31, 24, .rwt), (23, 16, .rwt), (15, 8, .rwt), (7, 0, .rwt)],
  reg1 "CH_SB_CFG" 0x40214 .chan 0x18081020 [(31, 31, .rwt), (30, 30, .rwt), (29, 24, .rwt), (21, 16, .rwt), (13, 8, .rwt), (6, 0, .rwt)],
  reg1 "CH_EYE" 0x40218 .chan 0x10000000 [(31, 24, .rw), (15, 8, .ro), (7, 0, .ro)],
  reg1 "CH_FEC_CORR" 0x4021C .chan 0x0 [(31, 0, .rc)],
  reg1 "CH_FEC_UNCORR" 0x40220 .chan 0x0 [(31, 0, .rc)],
  reg1 "CH_TF_CFG" 0x40300 .chan 0x26000000 [(29, 16, .rwt), (15, 8, .rwt), (5, 5, .rw), (4, 0, .rw)],
  reg1 "CH_TF_STAT" 0x40304 .chan 0x0 [(31, 30, .ro), (15, 10, .ro), (1, 0, .ro)],
  reg1 "CH_SRQ_TX" 0x40308 .chan 0x0 [(15, 8, .rw), (7, 0, .rw)],
  reg1 "CH_DEF_STAT" 0x4030C .chan 0x0 [(10, 10, .ro), (9, 9, .ro), (8, 8, .ro), (7, 7, .ro), (6, 6, .ro), (5, 5, .ro), (4, 4, .ro), (3, 3, .ro), (2, 2, .ro), (1, 1, .ro), (0, 0, .ro)],
  reg1 "CH_DEF_LATCH" 0x40310 .chan 0x0 [(10, 0, .w1c)],
  reg1 "CH_DEF_LOB" 0x40314 .chan 0x0 [(31, 0, .ro)],
  reg1 "CH_DEF_RDIT" 0x40318 .chan 0x0 [(31, 0, .ro)],
  reg1 "CH_DEF_THR" 0x4031C .chan 0x10601 [(23, 16, .rwt), (11, 8, .rwt), (3, 0, .rwt)],
  reg1 "CH_DEF_INT_LOS" 0x40320 .chan 0x400001 [(31, 16, .rwt), (15, 0, .rwt)],
  reg1 "CH_DEF_INT_LOCW" 0x40324 .chan 0x400002 [(31, 16, .rwt), (15, 0, .rwt)]]

/-- Registers of BAR0 region 0x4. -/
def regs4_1 : List RegRow := [
  reg1 "CH_DEF_INT_LOF" 0x40328 .chan 0x400004 [(31, 16, .rwt), (15, 0, .rwt)],
  reg1 "CH_DEF_INT_LOSF" 0x4032C .chan 0x400004 [(31, 16, .rwt), (15, 0, .rwt)],
  reg1 "CH_DEF_INT_SD" 0x40330 .chan 0x186A0271 [(31, 16, .rwt), (15, 0, .rwt)],
  reg1 "CH_DEF_INT_SF" 0x40334 .chan 0x400004 [(31, 16, .rwt), (15, 0, .rwt)],
  reg1 "CH_DEF_INT_LOB" 0x40338 .chan 0x30003 [(31, 16, .rwt), (15, 0, .rwt)],
  reg1 "CH_DEF_INT_RDI" 0x4033C .chan 0x30003 [(31, 16, .rwt), (15, 0, .rwt)],
  reg1 "CH_BM_CTL" 0x40340 .chan 0x0 [(31, 31, .wo), (30, 30, .wo), (28, 24, .ro), (20, 16, .ro), (15, 8, .rc), (7, 0, .rc)],
  reg1 "CH_TF_FAW_MISS" 0x40344 .chan 0x0 [(31, 0, .rc)],
  reg1 "CH_TF_FALSE_CAND" 0x40348 .chan 0x0 [(31, 0, .rc)],
  reg1 "CH_TF_HCRC_ERR" 0x4034C .chan 0x0 [(31, 0, .rc)],
  reg1 "CH_TF_BCRC_ERR" 0x40350 .chan 0x0 [(31, 0, .rc)],
  reg1 "CH_TF_JC_POS" 0x40354 .chan 0x0 [(31, 0, .rc)],
  reg1 "CH_TF_JC_NEG" 0x40358 .chan 0x0 [(31, 0, .rc)],
  reg1 "CH_TF_JC_UNDEC" 0x4035C .chan 0x0 [(31, 0, .rc)],
  reg1 "CH_TF_LHDR_ERR" 0x40360 .chan 0x0 [(31, 0, .rc)],
  reg1 "CH_TF_FRM_DISC" 0x40364 .chan 0x0 [(31, 0, .rc)],
  reg1 "CH_TF_BADBLK" 0x40368 .chan 0x0 [(31, 0, .rc)],
  reg1 "CH_PM_ET" 0x4036C .chan 0x0 [(31, 0, .rc)],
  reg1 "CH_PM_SET" 0x40370 .chan 0x0 [(31, 0, .rc)],
  regN "CH_BM_TXBUF" 0x40380 16 4 .chan 0x0 [(31, 0, .rw)],
  regN "CH_BM_RXBUF" 0x403C0 16 4 .chan 0x0 [(31, 0, .ro)],
  regN "CH_SRQ_RX_Tt" 0x40400 32 4 .chan 0x0 [(31, 31, .ro), (30, 30, .ro), (15, 8, .ro), (7, 0, .ro)],
  reg1 "CH_TREE_DEPTH" 0x40480 .chan 0x2000000 [(31, 24, .ro), (22, 0, .rwt)],
  reg1 "CH_TREE_CFG" 0x40484 .chan 0x464 [(31, 24, .rwt), (23, 23, .ro), (22, 22, .rwt), (21, 21, .rwt), (20, 20, .rwt), (19, 14, .rwt), (13, 10, .rwt), (7, 0, .rwt)],
  reg1 "CH_TREE_WDIFF" 0x40488 .chan 0x256250 [(22, 0, .rwt)]]

/-- Registers of BAR0 region 0x4. -/
def regs4_2 : List RegRow := [
  reg1 "CH_TUNE_MEAS0" 0x40490 .chan 0x0 [(31, 31, .ro), (30, 30, .ro), (29, 28, .ro), (27, 23, .ro), (22, 0, .ro)],
  reg1 "CH_TUNE_MEAS1" 0x40494 .chan 0x0 [(31, 0, .ro)],
  reg1 "CH_TUNE_MSTAT" 0x40498 .chan 0x0 [(20, 16, .ro), (15, 8, .rc), (7, 0, .rc)],
  reg1 "CH_TERM_CTL" 0x404A0 .chan 0x20000 [(22, 16, .rw), (2, 0, .rw)],
  reg1 "CH_TERM_EQD" 0x404A4 .chan 0x0 [(31, 31, .ro), (30, 30, .ro), (21, 0, .rw)],
  reg1 "CH_TERM_EQD_AT" 0x404A8 .chan 0x0 [(31, 0, .rw)],
  reg1 "CH_TERM_EQD_NOW" 0x404AC .chan 0x0 [(21, 0, .ro)],
  reg1 "CH_TERM_DISC" 0x404B0 .chan 0x0 [(31, 31, .rw), (30, 30, .rw), (29, 29, .w1c)],
  reg1 "CH_TERM_DISC_LTN" 0x404B4 .chan 0x0 [(31, 0, .rw)],
  reg1 "CH_TERM_DDN" 0x404B8 .chan 0x0 [(31, 31, .ro), (30, 0, .ro)],
  reg1 "CH_TERM_ASYM" 0x404BC .chan 0x0 [(31, 0, .rw)],
  regN "CH_TREC_STATE_Tt" 0x40500 32 32 .chan 0x0 [(31, 31, .ro), (8, 8, .rw), (7, 7, .rw), (2, 0, .rw)],
  regN "CH_TREC_EQD_Tt" 0x40504 32 32 .chan 0x0 [(21, 0, .rw)],
  regN "CH_TREC_DRIFT_Tt" 0x40508 32 32 .chan 0x0 [(31, 24, .ro), (15, 0, .ro)],
  regN "CH_TREC_SN0_Tt" 0x4050C 32 32 .chan 0x0 [(31, 0, .rw)],
  regN "CH_TREC_SN1_Tt" 0x40510 32 32 .chan 0x0 [(31, 0, .rw)],
  regN "CH_GRANT_P_Tt" 0x40900 32 16 .chan 0x400000 [(31, 31, .rwt), (30, 30, .rwt), (29, 22, .rwt), (21, 11, .rwt), (10, 0, .rwt)],
  regN "CH_GRANT_M_Tt" 0x40904 32 16 .chan 0x4DE [(10, 0, .rwt)],
  regN "CH_GRANT_R_Tt" 0x40908 32 16 .chan 0x0 [(31, 16, .ro), (15, 11, .ro), (10, 0, .ro)],
  regN "CH_GRANT_G_Tt" 0x4090C 32 16 .chan 0x0 [(31, 31, .ro), (28, 16, .ro), (12, 0, .ro)],
  regNM "CH_GRANT_CG_Tt_Kk" 0x40B00 32 16 4 4 .chan 0x0 [(31, 16, .ro), (15, 0, .ro)],
  reg1 "CH_GRANT_CFG" 0x40D00 .chan 0x3 [(31, 31, .rwt), (3, 0, .rwt)],
  reg1 "CH_BOW_CFG" 0x40D40 .chan 0x44DE0C80 [(31, 28, .rwt), (26, 16, .rwt), (11, 0, .rwt)],
  reg1 "CH_BOW_STAT" 0x40D44 .chan 0x0 [(31, 31, .ro), (11, 0, .ro)],
  reg1 "CH_GRANT_OVERBOOK" 0x40D80 .chan 0x0 [(31, 0, .rc)]]

/-- Registers of BAR0 region 0x4. -/
def regs4_3 : List RegRow := [
  reg1 "CH_GRANT_SHORT" 0x40D84 .chan 0x0 [(31, 0, .rc)],
  reg1 "CH_GRANT_LATEMAP" 0x40D88 .chan 0x0 [(31, 0, .rc)],
  reg1 "CH_BH_ERR" 0x40D8C .chan 0x0 [(31, 0, .rc)],
  reg1 "CH_FM_BAD" 0x40D90 .chan 0x0 [(31, 0, .rc)],
  reg1 "CH_BOW_MAPLOST" 0x40D94 .chan 0x0 [(31, 0, .rc)],
  reg1 "CH_BOW_MISSED" 0x40D98 .chan 0x0 [(31, 0, .rc)],
  reg1 "CH_BOW_UNDERRUN" 0x40D9C .chan 0x0 [(31, 0, .rc)],
  reg1 "CH_BOW_OVERSIZE" 0x40DA0 .chan 0x0 [(31, 0, .rc)],
  reg1 "CH_BOW_SENT" 0x40DA4 .chan 0x0 [(31, 0, .rc)],
  regN "CH_GRANT_OVRA_Ss" 0x40E00 8 16 .chan 0x0 [(31, 31, .rw), (30, 26, .rw), (25, 25, .rw), (24, 24, .rw), (23, 23, .rw), (22, 22, .rw), (1, 0, .ro)],
  regN "CH_GRANT_OVRB_Ss" 0x40E04 8 16 .chan 0x0 [(28, 16, .rw), (12, 0, .rw)],
  regN "CH_GRANT_OVRC_Ss" 0x40E08 8 16 .chan 0x0 [(31, 0, .rw)],
  reg1 "CH_PARSE_START" 0x41000 .chan 0x0 [(31, 24, .rwt), (23, 16, .rwt), (15, 8, .rwt), (7, 0, .rwt)],
  reg1 "CH_STORE_USE" 0x41100 .chan 0x0 [(16, 0, .ro)],
  regN "CH_CG_CFG_Gg" 0x41200 8 32 .chan 0x6000000 [(31, 16, .rwt), (8, 8, .rwt), (2, 0, .rwt)],
  regN "CH_CG_SHP_CFG_Gg" 0x41204 8 32 .chan 0x0 [(31, 31, .rwt), (30, 30, .rwt), (29, 29, .rwt), (7, 0, .rwt)],
  regN "CH_CG_SHP_RATE_Gg" 0x41208 8 32 .chan 0x0 [(30, 0, .rwt)],
  regN "CH_CG_SHP_BURST_Gg" 0x4120C 8 32 .chan 0x40 [(23, 0, .rwt)],
  regN "CH_CG_SHP_LEVEL_Gg" 0x41210 8 32 .chan 0x40 [(31, 0, .ro)],
  reg1 "CH_L2_SHP_CFG" 0x41300 .chan 0x0 [(31, 31, .rwt), (30, 30, .rwt), (29, 29, .rwt), (7, 0, .rwt)],
  reg1 "CH_L2_SHP_RATE" 0x41304 .chan 0x0 [(30, 0, .rwt)],
  reg1 "CH_L2_SHP_BURST" 0x41308 .chan 0x40 [(23, 0, .rwt)],
  reg1 "CH_L2_SHP_LEVEL" 0x4130C .chan 0x40 [(31, 0, .ro)],
  reg1 "CH_GATE_CFG" 0x41400 .chan 0x1 [(31, 31, .rwt), (30, 30, .rwt), (27, 24, .rwt), (8, 0, .rwt)],
  reg1 "CH_GATE_BASE_SL" 0x41404 .chan 0x0 [(31, 0, .rwt)]]

/-- Registers of BAR0 region 0x4. -/
def regs4_4 : List RegRow := [
  reg1 "CH_GATE_BASE_SH" 0x41408 .chan 0x0 [(15, 0, .rwt)],
  reg1 "CH_GATE_BASE_NS" 0x4140C .chan 0x0 [(29, 0, .rwt)],
  reg1 "CH_GATE_CYCLE" 0x41410 .chan 0xF4240 [(29, 0, .rwt)],
  reg1 "CH_GATE_OVR" 0x41414 .chan 0x100 [(15, 0, .rwt)],
  reg1 "CH_GATE_STAT" 0x41418 .chan 0xFF [(31, 31, .ro), (30, 30, .ro), (29, 29, .ro), (28, 28, .ro), (7, 0, .ro)],
  reg1 "CH_GATE_LATE" 0x4141C .chan 0x0 [(31, 0, .rc)],
  reg1 "CH_GATE_N" 0x41420 .chan 0x0 [(31, 0, .ro)],
  reg1 "CH_GATE_S_SL" 0x41424 .chan 0x0 [(31, 0, .ro)],
  reg1 "CH_GATE_S_SH" 0x41428 .chan 0x0 [(15, 0, .ro)],
  reg1 "CH_GATE_S_NS" 0x4142C .chan 0x0 [(29, 0, .ro)],
  reg1 "CH_GATE_OVERSIZE" 0x41430 .chan 0x0 [(31, 0, .rc)],
  reg1 "CH_PEG" 0x41600 .chan 0x0 [(3, 0, .rwt)],
  reg1 "CH_STAMP_TX" 0x41604 .chan 0x0 [(15, 0, .rwt)],
  reg1 "CH_STAMP_RX" 0x41608 .chan 0x0 [(15, 0, .rwt)],
  reg1 "CH_STAMP_TC" 0x4160C .chan 0x55000000 [(31, 24, .rwt), (15, 8, .rwt), (7, 0, .rwt)],
  reg1 "CH_PTP_CFG" 0x41610 .chan 0x0 [(31, 31, .rwt), (30, 30, .rwt), (29, 29, .rwt), (28, 28, .rwt), (27, 27, .rwt)],
  reg1 "CH_PTP_LINKDLY" 0x41614 .chan 0x0 [(31, 0, .rw)],
  reg1 "CH_PTP_TDLY" 0x41618 .chan 0x0 [(31, 31, .rw), (30, 0, .rw)],
  reg1 "CH_PTP_KAPPA" 0x4161C .chan 0x0 [(31, 0, .rw)],
  reg1 "CH_STQ_CTL" 0x41620 .chan 0x0 [(31, 31, .wo), (22, 16, .ro), (15, 0, .ro)],
  reg1 "CH_STQ_OVF" 0x41624 .chan 0x0 [(31, 0, .rc)],
  reg1 "CH_PTP_CORR" 0x41628 .chan 0x0 [(31, 0, .rc)],
  reg1 "CH_PTP_NOCORR" 0x4162C .chan 0x0 [(31, 0, .rc)],
  reg1 "CH_PTP_SAT" 0x41630 .chan 0x0 [(31, 0, .rc)],
  regN "CH_STQ_RECk" 0x41640 8 4 .chan 0x0 [(31, 0, .ro)]]

/-- Registers of BAR0 region 0x4. -/
def regs4_5 : List RegRow := [
  reg1 "CH_MAC_CFG" 0x41700 .chan 0x40002600 [(31, 31, .rwt), (30, 30, .rwt), (13, 0, .rwt)],
  reg1 "CH_MAC_SA_LO" 0x41704 .chan 0x0 [(31, 0, .rwt)],
  reg1 "CH_MAC_SA_HI" 0x41708 .chan 0x0 [(15, 0, .rwt)],
  reg1 "CH_MAC_PAUSE" 0x4170C .chan 0xFFFF0002 [(31, 16, .rwt), (7, 0, .rwt)],
  reg1 "CH_MAC_WM_HI" 0x41710 .chan 0x2000 [(16, 0, .rwt)],
  reg1 "CH_MAC_WM_LO" 0x41714 .chan 0x1000 [(16, 0, .rwt)],
  reg1 "CH_MAC_STAT" 0x41718 .chan 0x0 [(31, 31, .ro), (30, 30, .ro), (15, 0, .ro)],
  reg1 "CH_MAC_RX_OK" 0x41720 .chan 0x0 [(31, 0, .rc)],
  reg1 "CH_MAC_TX_OK" 0x41724 .chan 0x0 [(31, 0, .rc)],
  reg1 "CH_MAC_RX_FCS" 0x41728 .chan 0x0 [(31, 0, .rc)],
  reg1 "CH_MAC_RX_RUNT" 0x4172C .chan 0x0 [(31, 0, .rc)],
  reg1 "CH_MAC_RX_LONG" 0x41730 .chan 0x0 [(31, 0, .rc)],
  reg1 "CH_MAC_RX_PAUSE" 0x41734 .chan 0x0 [(31, 0, .rc)],
  reg1 "CH_MAC_TX_PAUSE" 0x41738 .chan 0x0 [(31, 0, .rc)],
  reg1 "CH_MAC_RX_CTRL" 0x4173C .chan 0x0 [(31, 0, .rc)],
  reg1 "CH_PP_CTL" 0x41800 .reqChan 0x0 [(31, 31, .wo), (30, 29, .rw), (28, 28, .rw), (9, 8, .rw), (4, 0, .rw)],
  regN "CH_PP_KEY_Wk" 0x41804 8 4 .reqChan 0x0 [(31, 0, .wo)],
  regN "CH_PP_Tt" 0x41840 32 4 .chan 0xC0000 [(31, 31, .rw), (30, 30, .w1s), (23, 20, .ro), (19, 18, .ro), (17, 17, .ro)],
  reg1 "CH_PP_AUTH_FAIL" 0x418C0 .chan 0x0 [(31, 0, .rc)],
  reg1 "CH_PP_NOKEY" 0x418C4 .chan 0x0 [(31, 0, .rc)],
  reg1 "CH_PP_CLEAR_DROP" 0x418C8 .chan 0x0 [(31, 0, .rc)],
  reg1 "CH_PP_BCDROP" 0x418CC .chan 0x0 [(31, 0, .rc)],
  reg1 "CH_PP_CHANGES" 0x418D0 .chan 0x0 [(31, 0, .rc)],
  reg1 "CH_PWR_CTL" 0x41900 .chan 0x3 [(31, 31, .wo), (30, 30, .wo), (1, 1, .rw), (0, 0, .rw)],
  reg1 "CH_PWR_STAT" 0x41904 .chan 0x0 [(31, 31, .ro), (30, 30, .w1c), (29, 27, .ro), (10, 8, .ro)]]

/-- Registers of BAR0 region 0x4. -/
def regs4_6 : List RegRow := [
  reg1 "CH_WAKE_HITS" 0x41908 .chan 0x0 [(31, 0, .rc)],
  regNM "CH_WAKE_Mk_Pp" 0x41A00 8 144 32 4 .chan 0x0 [(31, 0, .rw)],
  regN "CH_WAKE_CTL_Pp" 0x41A80 8 144 .chan 0x0 [(31, 31, .rw), (30, 30, .rw), (15, 0, .rw)],
  regN "CH_GATE_EG_i" 0x42000 256 8 .chan 0xFF [(7, 0, .rw)],
  regN "CH_GATE_EI_i" 0x42004 256 8 .chan 0x0 [(31, 0, .rw)],
  regN "CH_GATE_OG_i" 0x42800 256 8 .chan 0xFF [(7, 0, .ro)],
  regN "CH_GATE_OI_i" 0x42804 256 8 .chan 0x0 [(31, 0, .ro)]]

/-- Registers of BAR0 region 0x5. -/
def regs5_0 : List RegRow := [
  reg1 "OCTSEL" 0x50000 .req 0x0 [(2, 0, .rw)],
  reg1 "OCT_TICK_USED" 0x50100 .oct 0x0 [(15, 0, .ro)],
  reg1 "OCT_TICK_MAX" 0x50104 .oct 0x0 [(15, 0, .rc)],
  reg1 "OCT_OVERRUN" 0x50108 .oct 0x0 [(31, 0, .rc)],
  reg1 "OCT_CLS_STALE" 0x50200 .oct 0x0 [(31, 0, .rc)],
  reg1 "OCT_RECIRC_DROP" 0x50204 .oct 0x0 [(31, 0, .rc)],
  reg1 "OCT_PAT_FULL" 0x50208 .oct 0x0 [(31, 0, .rc)],
  reg1 "OCT_CLS_NODEST" 0x5020C .oct 0x0 [(31, 0, .rc)],
  reg1 "OCT_PAT_LEVEL" 0x50210 .oct 0x0 [(9, 0, .ro)],
  reg1 "OCT_STORE_CFG" 0x50300 .oct 0x313333 [(23, 20, .rwt), (16, 0, .rwt)],
  reg1 "OCT_STORE_DRAIN" 0x50304 .oct 0x62 [(15, 0, .rwt)],
  reg1 "OCT_STORE_RES" 0x50308 .oct 0x402000 [(31, 16, .rwt), (15, 0, .rwt)],
  reg1 "OCT_STORE_USE" 0x5030C .oct 0x0 [(16, 0, .ro)],
  reg1 "OCT_STORE_PEAK" 0x50310 .oct 0x0 [(16, 0, .rc)],
  reg1 "OCT_DESC_USE" 0x50314 .oct 0x0 [(17, 0, .ro)],
  reg1 "OCT_STORE_DROP" 0x50318 .oct 0x0 [(31, 0, .rc)],
  reg1 "OCT_DESC_FULL" 0x5031C .oct 0x0 [(31, 0, .rc)],
  reg1 "OCT_STORE_UNC" 0x50320 .oct 0x0 [(31, 0, .rc)],
  reg1 "OCT_STORE_RETIRED" 0x50324 .oct 0x0 [(19, 0, .ro)],
  reg1 "OCT_DEEP_HOL" 0x50328 .oct 0x0 [(31, 0, .rc)],
  reg1 "OCT_SPILL_WAIT" 0x5032C .oct 0x0 [(31, 0, .rc)],
  reg1 "OCT_SPILL_REORD" 0x50330 .oct 0x0 [(31, 0, .rc)],
  reg1 "OCT_SPILL_CONG" 0x50334 .oct 0x0 [(31, 0, .rc)],
  reg1 "OCT_MTR_SEL" 0x50400 .req 0x0 [(10, 0, .rw)],
  reg1 "OCT_MTR_CFG" 0x50404 .meter 0x0 [(31, 31, .rwt), (30, 30, .rwt), (29, 29, .rwt), (28, 28, .rwt), (27, 22, .rwt), (20, 16, .rwt), (15, 8, .rwt)]]

/-- Registers of BAR0 region 0x5. -/
def regs5_1 : List RegRow := [
  reg1 "OCT_MTR_CIR" 0x50408 .meter 0x0 [(30, 0, .rwt)],
  reg1 "OCT_MTR_PIR" 0x5040C .meter 0x0 [(30, 0, .rwt)],
  reg1 "OCT_MTR_CBS" 0x50410 .meter 0x4000 [(23, 0, .rwt)],
  reg1 "OCT_MTR_PBS" 0x50414 .meter 0x4000 [(23, 0, .rwt)],
  reg1 "OCT_MTR_GREEN" 0x50418 .meter 0x0 [(31, 0, .rc)],
  reg1 "OCT_MTR_YELLOW" 0x5041C .meter 0x0 [(31, 0, .rc)],
  reg1 "OCT_MTR_RED" 0x50420 .meter 0x0 [(31, 0, .rc)],
  reg1 "OCT_MTR_REDDROP" 0x50424 .meter 0x0 [(31, 0, .rc)],
  reg1 "OCT_PWR_REQ" 0x50500 .oct 0x0 [(31, 31, .wo), (3, 0, .wo)],
  reg1 "OCT_PWR_STAT" 0x50504 .oct 0x30000000 [(31, 28, .ro), (27, 24, .ro), (23, 20, .ro), (19, 19, .ro), (18, 16, .ro), (14, 12, .ro), (10, 8, .ro), (1, 0, .ro)],
  reg1 "OCT_PWR_WAKE" 0x50508 .oct 0x7 [(11, 8, .rw), (4, 4, .rw), (3, 3, .rw), (2, 2, .rw), (1, 1, .rw), (0, 0, .rw)],
  reg1 "OCT_PWR_TIMER" 0x5050C .oct 0x0 [(31, 0, .rw)],
  reg1 "OCT_PWR_CFG" 0x50510 .oct 0x3 [(1, 0, .rwt)],
  reg1 "OCT_FLT_ROWS" 0x50600 .oct 0x0 [(24, 16, .ro), (12, 0, .ro)],
  reg1 "OCT_FLT_EVICT" 0x50604 .oct 0x0 [(31, 0, .rc)]]

/-- Registers of BAR0 region 0x6. -/
def regs6_0 : List RegRow := [
  reg1 "CLS_CFG" 0x60000 .dev 0x4 [(2, 0, .rwt)],
  reg1 "CLS_EPOCH" 0x60004 .dev 0x0 [(5, 4, .ro), (1, 0, .rwt)],
  reg1 "CLS_EPOCH_STAT" 0x60008 .dev 0x0 [(3, 0, .w1c)],
  reg1 "CLS_INJ_START" 0x6000C .dev 0x0 [(31, 24, .rwt), (23, 16, .rwt), (15, 8, .rwt), (7, 0, .rwt)],
  reg1 "CLS_SUROK_START" 0x60010 .dev 0x0 [(31, 24, .rwt), (23, 16, .rwt), (15, 8, .rwt), (7, 0, .rwt)],
  reg1 "CLS_STAGE_ABORT" 0x60014 .dev 0x0 [(31, 0, .rc)],
  reg1 "CLS_EPOCH_FLT0" 0x60018 .dev 0x0 [(31, 16, .ro), (15, 0, .ro)],
  reg1 "CLS_EPOCH_FLT1" 0x6001C .dev 0x0 [(31, 16, .ro), (15, 0, .ro)],
  reg1 "CLS_IND_ADDR" 0x60020 .req 0x0 [(31, 31, .rw), (25, 0, .rw)],
  reg1 "CLS_IND_DATA" 0x60024 .req 0x0 [(31, 0, .rw)],
  regN "CLS_EM_KEYk" 0x60100 16 4 .req 0x0 [(31, 0, .rw)],
  reg1 "CLS_EM_CTL" 0x60140 .req 0x0 [(31, 31, .wo), (30, 30, .ro), (29, 28, .rw), (27, 25, .ro), (24, 24, .rw), (20, 16, .rw), (1, 0, .rw)],
  reg1 "CLS_EM_ACT" 0x60144 .req 0x0 [(21, 18, .rw), (17, 0, .rw)],
  reg1 "CLS_EM_COUNT" 0x60148 .dev 0x0 [(22, 0, .ro)],
  regN "CLS_SP_CFG_Cn" 0x60400 64 16 .dev 0x64 [(31, 31, .rwt), (22, 16, .rwt), (15, 0, .rwt)],
  regN "CLS_SP_BKT_Cn" 0x60404 64 16 .dev 0x40 [(11, 0, .rwt)],
  regN "CLS_SP_PASS_Cn" 0x60408 64 16 .dev 0x0 [(31, 0, .rc)],
  regN "CLS_SP_DROP_Cn" 0x6040C 64 16 .dev 0x0 [(31, 0, .rc)],
  regN "CLS_MIR_Ss" 0x60800 16 4 .dev 0x0 [(31, 31, .rwt), (30, 28, .rwt), (27, 16, .rwt), (15, 8, .rwt), (7, 7, .rwt), (1, 0, .rwt)]]

/-- Registers of BAR0 region 0x7. -/
def regs7_0 : List RegRow := [
  reg1 "QSEL" 0x70000 .req 0x0 [(11, 0, .rw)],
  reg1 "QSH_Q_CFG" 0x70100 .queue 0x600 [(31, 31, .rwt), (15, 0, .rwt)],
  reg1 "QSH_Q_TL" 0x70104 .queue 0x0 [(29, 0, .rwt)],
  reg1 "QSH_SHP_CFG" 0x70110 .queue 0x0 [(31, 31, .rwt), (30, 30, .rwt), (29, 29, .rwt), (7, 0, .rwt)],
  reg1 "QSH_SHP_RATE" 0x70114 .queue 0x0 [(30, 0, .rwt)],
  reg1 "QSH_SHP_BURST" 0x70118 .queue 0x40 [(23, 0, .rwt)],
  reg1 "QSH_SHP_LEVEL" 0x7011C .queue 0x40 [(31, 0, .ro)],
  reg1 "QSH_Q_NOW" 0x70140 .queue 0x0 [(31, 0, .ro)],
  reg1 "QSH_Q_FRAMES" 0x70144 .queue 0x0 [(23, 0, .ro)],
  reg1 "QSH_Q_DEPTH_MIN" 0x70148 .queue 0x0 [(31, 0, .ro)],
  reg1 "QSH_Q_DEPTH_MAX" 0x7014C .queue 0x0 [(31, 0, .ro)],
  reg1 "QSH_Q_DEPTH_MEAN" 0x70150 .queue 0x0 [(31, 0, .ro)],
  reg1 "QSH_Q_DELAY_MIN" 0x70154 .queue 0x0 [(31, 0, .ro)],
  reg1 "QSH_Q_DELAY_MAX" 0x70158 .queue 0x0 [(31, 0, .ro)],
  reg1 "QSH_Q_DELAY_MEAN" 0x7015C .queue 0x0 [(31, 0, .ro)],
  reg1 "QSH_Q_SAMPLES" 0x70160 .queue 0x0 [(31, 16, .ro), (13, 8, .ro), (6, 0, .ro)],
  reg1 "QSH_Q_TX" 0x70164 .queue 0x0 [(31, 0, .rc)],
  reg1 "QSH_Q_TL_LATE" 0x70168 .queue 0x0 [(31, 0, .rc)],
  regN "QSH_Q_HIST_i" 0x70200 64 4 .queue 0x0 [(31, 16, .ro), (15, 0, .ro)],
  regN "QSH_CHORD_CFG_Cc" 0x78000 32 64 .dev 0x100 [(31, 31, .rwt), (30, 30, .rwt), (29, 29, .rwt), (28, 26, .rwt), (25, 23, .rwt), (10, 0, .rwt)],
  regN "QSH_CHORD_GRD_Cc" 0x78004 32 64 .dev 0x9C4 [(11, 0, .rwt)],
  regNM "QSH_CHORD_Mi_Cc" 0x78008 32 64 8 4 .dev 0x100 [(31, 31, .rwt), (22, 16, .rwt), (15, 8, .rwt), (5, 5, .rwt), (4, 0, .rwt)],
  regN "QSH_CHORD_STAT_Cc" 0x78028 32 64 .dev 0x0 [(15, 8, .ro), (7, 0, .ro)],
  regN "QSH_CHORD_LATE_Cc" 0x7802C 32 64 .dev 0x0 [(31, 0, .rc)],
  regN "QSH_CHORD_EXPIRED_Cc" 0x78030 32 64 .dev 0x0 [(31, 0, .rc)]]

/-- Registers of BAR0 region 0x7. -/
def regs7_1 : List RegRow := [
  regN "QSH_CHORD_DUPDROP_Cc" 0x78034 32 64 .dev 0x0 [(31, 0, .rc)],
  regN "QSH_CHORD_STRAY_Cc" 0x78038 32 64 .dev 0x0 [(31, 0, .rc)],
  regN "QSH_CHORD_NOUP_Cc" 0x7803C 32 64 .dev 0x0 [(31, 0, .rc)]]

/-- Registers of BAR0 region 0x8. -/
def regs8_0 : List RegRow := [
  reg1 "MEMSEL" 0x80000 .req 0x0 [(5, 0, .rw)],
  reg1 "MEM_CH_STAT" 0x80100 .memch 0x0 [(31, 30, .ro), (29, 29, .ro), (28, 28, .ro), (27, 27, .w1c), (26, 26, .ro), (3, 0, .ro)],
  reg1 "MEM_CH_TEMP" 0x80104 .memch 0x0 [(23, 16, .ro), (15, 8, .ro), (7, 0, .ro)],
  reg1 "MEM_CH_CORR" 0x80108 .memch 0x0 [(31, 0, .rc)],
  reg1 "MEM_CH_CRC_RETRY" 0x8010C .memch 0x0 [(31, 0, .rc)],
  reg1 "MEM_CH_UNC" 0x80110 .memch 0x0 [(31, 0, .rc)],
  reg1 "MEM_CH_CAPAR" 0x80114 .memch 0x0 [(31, 0, .rc)],
  reg1 "MEM_CH_REF_POSTP" 0x80118 .memch 0x0 [(31, 0, .rc)],
  reg1 "MEM_CH_REF_FORCED" 0x8011C .memch 0x0 [(31, 0, .rc)],
  reg1 "MEM_CH_RETRAIN" 0x80120 .memch 0x0 [(31, 0, .rc)],
  reg1 "MEM_CH_BQFULL" 0x80124 .memch 0x0 [(31, 0, .rc)],
  reg1 "MEM_CFG" 0x80E00 .dev 0x60200000 [(31, 24, .rwt), (23, 16, .rwt), (1, 0, .rw)],
  reg1 "MEM_REF_CFG" 0x80E04 .dev 0x55520008 [(31, 24, .rwt), (23, 16, .rwt), (3, 0, .rwt)],
  reg1 "MEM_TRAIN_CFG" 0x80E08 .dev 0x8040400 [(31, 24, .rwt), (23, 16, .rwt), (15, 8, .rwt)],
  reg1 "MEM_MAPOUT" 0x80E0C .dev 0x0 [(31, 31, .wo), (30, 30, .wo), (29, 29, .ro), (10, 8, .ro), (3, 0, .rw)],
  reg1 "MEM_STAT" 0x80E10 .dev 0x40 [(6, 0, .ro)],
  reg1 "MEM_EVAC_LEFT" 0x80E14 .dev 0x0 [(27, 0, .ro)],
  reg1 "MEM_POISON_USE" 0x80E18 .dev 0x0 [(8, 0, .ro)],
  reg1 "MEM_DEEP_LOST" 0x80E1C .dev 0x0 [(27, 0, .ro)],
  reg1 "MEM_RUN_LOST" 0x80E20 .dev 0x0 [(31, 0, .rc)],
  reg1 "MEM_DEEP_FRAMES" 0x80E24 .dev 0x0 [(27, 0, .ro)],
  reg1 "MEM_DEEP_BUDGET" 0x80F00 .dev 0x1F40 [(13, 0, .rwt)],
  reg1 "MEM_DEEP_BURST" 0x80F04 .dev 0x84203D09 [(31, 28, .rwt), (27, 24, .rwt), (23, 20, .rwt), (15, 0, .rwt)],
  reg1 "MEM_DEEP_STAT" 0x80F08 .dev 0x0 [(15, 0, .ro)],
  reg1 "MEM_DEEP_FREE" 0x80F0C .dev 0x0 [(27, 0, .ro)]]

/-- Registers of BAR0 region 0x8. -/
def regs8_1 : List RegRow := [
  regN "MEM_DEEP_REFUSED_DPd" 0x80F10 4 4 .dev 0x0 [(31, 0, .rc)]]

/-- Registers of BAR0 region 0x9. -/
def regs9_0 : List RegRow := [
  reg1 "TDS_CFG" 0x90000 .dev 0xFF007828 [(31, 16, .rwt), (15, 11, .rwt), (7, 4, .rwt), (3, 0, .rwt)],
  reg1 "TDS_TASK_SEL" 0x90004 .req 0x0 [(9, 0, .rw)],
  regN "TDS_TASK_Wk" 0x90010 8 4 .task 0x0 [(31, 0, .rw)],
  reg1 "TDS_TASK_CMD" 0x90030 .req 0x0 [(31, 31, .wo), (30, 30, .ro), (18, 16, .wo), (15, 0, .wo)],
  reg1 "TDS_NEXT" 0x90040 .req 0x0 [(31, 31, .ro), (23, 16, .ro), (9, 0, .ro)],
  reg1 "TDS_DONE" 0x90044 .req 0x0 [(31, 30, .wo), (15, 0, .wo)],
  reg1 "TDS_EV_SEL" 0x90050 .req 0x0 [(11, 0, .rw)],
  reg1 "TDS_EV_BIND" 0x90054 .event 0x0 [(31, 31, .rw), (30, 30, .rw), (25, 16, .rw), (9, 0, .rw)],
  reg1 "TDS_EV_RAISE" 0x90058 .dev 0x0 [(5, 0, .wo)],
  reg1 "TDS_MBOX_CTL" 0x90060 .req 0x0 [(31, 30, .wo), (22, 16, .ro), (6, 0, .ro)],
  regN "TDS_MBOX_Wk" 0x90064 4 4 .req 0x0 [(31, 0, .rw)],
  regN "TDS_MBOX_INk" 0x90074 4 4 .dev 0x0 [(31, 0, .ro)],
  regN "TDS_MBOX_OUTk" 0x90084 4 4 .dev 0x0 [(31, 0, .ro)],
  regN "TDS_CORE_STAT_Cs" 0x90100 16 16 .dev 0x0 [(31, 31, .ro), (30, 30, .ro), (29, 29, .ro), (20, 16, .ro), (9, 0, .ro)],
  regN "TDS_CORE_CTL_Cs" 0x90104 16 16 .dev 0x80000000 [(31, 31, .rw)],
  regN "TDS_CORE_FAULT_Cs" 0x90108 16 16 .dev 0x0 [(31, 0, .ro)],
  regN "TDS_IN_HEAD_Cs" 0x90200 16 16 .dev 0x0 [(8, 0, .ro)],
  regN "TDS_IN_TAIL_Cs" 0x90204 16 16 .dev 0x0 [(8, 0, .rw)],
  reg1 "TDS_INJ_ADDR" 0x90300 .req 0x0 [(31, 0, .rw)],
  reg1 "TDS_INJ_LEN" 0x90304 .req 0x0 [(13, 0, .rw)],
  reg1 "TDS_INJ_CTL" 0x90308 .req 0x0 [(31, 31, .wo), (30, 30, .ro)],
  reg1 "TDS_INJ_REFUSED" 0x9030C .dev 0x0 [(31, 0, .rc)],
  reg1 "TDS_PREEMPTS" 0x90400 .dev 0x0 [(31, 0, .rc)],
  reg1 "TDS_PREEMPT_LATE" 0x90404 .dev 0x0 [(31, 0, .rc)],
  reg1 "TDS_WAKE_LATE" 0x90408 .dev 0x0 [(31, 0, .rc)]]

/-- Registers of BAR0 region 0x9. -/
def regs9_1 : List RegRow := [
  reg1 "TDS_PERIOD_SKIP" 0x9040C .dev 0x0 [(31, 0, .rc)],
  reg1 "TDS_EV_SAT" 0x90410 .dev 0x0 [(31, 0, .rc)],
  reg1 "TDS_EV_UNBOUND" 0x90414 .dev 0x0 [(31, 0, .rc)],
  reg1 "TDS_STRANDED" 0x90418 .dev 0x0 [(31, 0, .rc)],
  reg1 "TDS_MBOX_FULL" 0x9041C .dev 0x0 [(31, 16, .rc), (15, 0, .rc)],
  reg1 "TDS_READY" 0x90420 .dev 0x0 [(10, 0, .ro)]]

/-- Registers of BAR0 region 0xA. -/
def regsA_0 : List RegRow := [
  reg1 "RINGSEL" 0xA0000 .req 0x0 [(7, 0, .rw)],
  reg1 "HDMA_RING_BASE_LO" 0xA0100 .ring 0x0 [(31, 6, .rw)],
  reg1 "HDMA_RING_BASE_HI" 0xA0104 .ring 0x0 [(31, 0, .rw)],
  reg1 "HDMA_RING_CFG" 0xA0108 .ring 0xA [(31, 31, .rw), (30, 30, .rw), (29, 29, .rw), (4, 0, .rw)],
  reg1 "HDMA_RING_TAIL" 0xA010C .ring 0x0 [(15, 0, .rw)],
  reg1 "HDMA_RING_HEAD" 0xA0110 .ring 0x0 [(15, 0, .ro)],
  reg1 "HDMA_RING_WB_LO" 0xA0114 .ring 0x0 [(31, 2, .rw)],
  reg1 "HDMA_RING_WB_HI" 0xA0118 .ring 0x0 [(31, 0, .rw)],
  reg1 "HDMA_RING_IRQ" 0xA011C .ring 0x100 [(31, 31, .rw), (23, 16, .rw), (15, 8, .rw), (7, 0, .rw)],
  reg1 "HDMA_RING_QMAX" 0xA0120 .ring 0x400 [(15, 0, .rw)],
  reg1 "HDMA_RING_STAT" 0xA0124 .ring 0x0 [(31, 31, .ro), (30, 30, .ro), (15, 0, .ro)],
  reg1 "HDMA_RING_FRAMES" 0xA0128 .ring 0x0 [(31, 0, .rc)],
  reg1 "HDMA_RING_EMPTY" 0xA012C .ring 0x0 [(31, 0, .rc)],
  reg1 "HDMA_RING_QDROP" 0xA0130 .ring 0x0 [(31, 0, .rc)],
  reg1 "HDMA_RING_TXBAD" 0xA0134 .ring 0x0 [(31, 0, .rc)],
  reg1 "HDMA_CAP" 0xA0F00 .dev 0xC8 [(7, 0, .rwt)],
  reg1 "HDMA_VEC_MISC" 0xA0F04 .dev 0x0 [(31, 31, .rw), (30, 30, .rw), (15, 8, .rw), (7, 0, .rw)],
  reg1 "HDMA_NOHOST" 0xA0F08 .dev 0x0 [(31, 0, .rc)],
  reg1 "HDMA_LSO_SEGS" 0xA0F0C .dev 0x0 [(31, 0, .rc)],
  reg1 "HDMA_LOG_BASE_LO" 0xA0F20 .dev 0x0 [(31, 5, .rw)],
  reg1 "HDMA_LOG_BASE_HI" 0xA0F24 .dev 0x0 [(31, 0, .rw)],
  reg1 "HDMA_LOG_CFG" 0xA0F28 .dev 0xD [(31, 31, .rw), (4, 0, .rw)],
  regN "HDMA_CORE_QMAX_Cs" 0xA0F40 16 4 .dev 0x100 [(15, 0, .rw)],
  regN "HDMA_CORE_DROP_Cs" 0xA0F80 16 4 .dev 0x0 [(31, 0, .rc)]]

/-- Registers of BAR0 region 0xB. -/
def regsB_0 : List RegRow := [
  reg1 "TWN_CFG" 0xB0000 .dev 0x80100000 [(31, 31, .rwt), (30, 30, .rwt), (23, 16, .rwt)],
  reg1 "TWN_STAT" 0xB0004 .dev 0x30000000 [(31, 30, .ro), (29, 28, .ro), (27, 27, .ro), (26, 26, .ro), (25, 25, .ro), (24, 24, .ro), (23, 23, .ro), (22, 22, .ro), (18, 16, .ro), (15, 8, .ro), (7, 0, .ro)],
  reg1 "TWN_LANES" 0xB0008 .dev 0x0 [(31, 31, .ro), (7, 0, .rw)],
  reg1 "TWN_SWITCH" 0xB000C .req 0x0 [(31, 31, .wo), (30, 30, .wo), (29, 29, .wo), (25, 24, .ro), (5, 0, .wo)],
  reg1 "TWN_LINK_DLY" 0xB0010 .dev 0x0 [(31, 31, .ro), (30, 0, .ro)],
  reg1 "TWN_PEG_OFS" 0xB0014 .dev 0x0 [(31, 0, .ro)],
  reg1 "TWN_COPY_SEQ" 0xB0018 .dev 0x0 [(31, 0, .ro)],
  reg1 "TWN_COPY_ACK" 0xB001C .dev 0x0 [(31, 0, .ro)],
  reg1 "TWN_HB_MISS" 0xB0020 .dev 0x0 [(31, 0, .rc)],
  reg1 "TWN_ALIVE_LOSS" 0xB0024 .dev 0x0 [(31, 0, .rc)],
  reg1 "TWN_SWITCHES" 0xB0028 .dev 0x0 [(31, 0, .rc)],
  reg1 "TWN_RESYNCS" 0xB002C .dev 0x0 [(31, 0, .rc)],
  reg1 "TWN_RULE_REFUSED" 0xB0030 .dev 0x0 [(31, 0, .rc)],
  reg1 "TWN_STBY_DROP" 0xB0034 .dev 0x0 [(31, 0, .rc)],
  reg1 "TWN_TX_NOLANE" 0xB0038 .dev 0x0 [(31, 0, .rc)],
  reg1 "TWN_RX_FWD_DROP" 0xB003C .dev 0x0 [(31, 0, .rc)],
  reg1 "TWN_DUAL_ACT" 0xB0040 .dev 0x0 [(31, 0, .rc)],
  reg1 "TWN_EQD_CLAMP" 0xB0044 .dev 0x0 [(31, 0, .rc)],
  regN "TWN_PAIR_Cc" 0xB0100 64 4 .dev 0x20010000 [(31, 31, .rwt), (30, 30, .rwt), (29, 29, .ro), (23, 16, .rwt), (5, 0, .rwt)],
  regN "TWN_SOFS_Cc" 0xB0200 64 4 .dev 0x0 [(31, 31, .ro), (30, 24, .ro), (23, 0, .rw)],
  regN "TWN_L_STAT_Li" 0xB0400 8 64 .dev 0x800 [(31, 24, .rc), (16, 16, .ro), (11, 10, .ro), (3, 3, .ro), (2, 2, .ro), (1, 1, .ro), (0, 0, .ro)],
  regN "TWN_L_CFG_Li" 0xB0404 8 64 .dev 0x0 [(1, 1, .rwt), (0, 0, .rwt)],
  regN "TWN_L_EQ_TX_Li" 0xB0408 8 64 .dev 0x7F0000 [(31, 24, .rwt), (23, 16, .rwt), (15, 8, .rwt), (7, 0, .rwt)],
  regN "TWN_L_EQ_RX0_Li" 0xB040C 8 64 .dev 0x200000 [(31, 24, .rwt), (21, 16, .rwt), (11, 8, .rwt), (4, 0, .rwt)],
  regN "TWN_L_EQ_RX1_Li" 0xB0410 8 64 .dev 0x0 [(31, 24, .rwt), (23, 16, .rwt), (15, 8, .rwt), (7, 0, .rwt)]]

/-- Registers of BAR0 region 0xB. -/
def regsB_1 : List RegRow := [
  regN "TWN_L_EYE_Li" 0xB0418 8 64 .dev 0x10000000 [(31, 24, .rw), (15, 8, .ro), (7, 0, .ro)],
  regN "TWN_L_FEC_CORR_Li" 0xB041C 8 64 .dev 0x0 [(31, 0, .rc)],
  regN "TWN_L_FEC_UNCORR_Li" 0xB0420 8 64 .dev 0x0 [(31, 0, .rc)],
  regN "TWN_L_TF_STAT_Li" 0xB0424 8 64 .dev 0x0 [(31, 30, .ro), (15, 10, .ro), (1, 0, .ro)],
  regN "TWN_L_DEF_STAT_Li" 0xB0428 8 64 .dev 0x0 [(7, 7, .ro), (2, 2, .ro), (1, 1, .ro), (0, 0, .ro)],
  regN "TWN_L_STAMP_Li" 0xB042C 8 64 .dev 0x0 [(31, 16, .rwt), (15, 0, .rwt)]]

/-- Registers of BAR0 region 0xC. Offsets 0xC0500 and 0xC0504 are given both to FLT_GPIO_OUT and FLT_GPIO_IN and to the
registers of input 16; an access reaches the GPIO registers (DESIGN CHOICE, log entry 22). -/
def regsC_0 : List RegRow := [
  reg1 "FLT_SRC_SEL" 0xC0000 .req 0x0 [(20, 16, .rw), (7, 0, .rw)],
  reg1 "FLT_SRC_CFG" 0xC0004 .fltSrc 0x80000000 [(31, 31, .rwt), (30, 29, .rwt), (28, 28, .rwt)],
  reg1 "FLT_SRC_N" 0xC0008 .fltSrc 0x0 [(6, 0, .rwt)],
  reg1 "FLT_SRC_W" 0xC000C .fltSrc 0x0 [(23, 0, .rwt)],
  reg1 "FLT_INST_STAT" 0xC0010 .fltInst 0x0 [(31, 31, .ro), (30, 30, .ro), (29, 29, .ro), (28, 16, .ro), (15, 15, .ro), (6, 0, .ro)],
  reg1 "FLT_INST_TOTAL" 0xC0014 .fltInst 0x0 [(31, 0, .rc)],
  reg1 "FLT_INST_CTL" 0xC0018 .fltInst 0x0 [(31, 31, .wo), (30, 30, .wo)],
  reg1 "FLT_LASTING" 0xC0020 .dev 0x0 [(15, 0, .ro)],
  reg1 "FLT_FOUT" 0xC0024 .dev 0x0 [(31, 31, .rw), (30, 30, .ro), (2, 0, .ro)],
  reg1 "FLT_LOG_SEQ" 0xC0100 .dev 0x0 [(31, 0, .ro)],
  reg1 "FLT_LOG_IDX" 0xC0104 .req 0x0 [(12, 0, .rw)],
  regN "FLT_LOG_Wk" 0xC0108 8 4 .logEntry 0x0 [(31, 0, .ro)],
  reg1 "FLT_BIST_CTL" 0xC0300 .dev 0x0 [(31, 31, .wo), (10, 8, .rw), (3, 0, .rw)],
  reg1 "FLT_BIST_STAT" 0xC0304 .dev 0x0 [(31, 31, .ro), (30, 30, .ro), (29, 28, .ro), (2, 0, .ro)],
  reg1 "FLT_BIST_ERR" 0xC0308 .dev 0x0 [(31, 0, .ro)],
  reg1 "FLT_GPIO_OUT" 0xC0500 .dev 0x0 [(31, 16, .rw), (15, 0, .rw)],
  reg1 "FLT_GPIO_IN" 0xC0504 .dev 0x0 [(15, 0, .ro)],
  regN "FLT_IN_CFG_Ii" 0xC0400 20 16 .dev 0xF430108 [(31, 31, .rwt), (30, 30, .rwt), (29, 29, .rwt), (28, 28, .rwt), (27, 16, .rwt), (15, 8, .rwt), (7, 0, .rwt)],
  regN "FLT_IN_STAT_Ii" 0xC0404 20 16 .dev 0x0 [(31, 31, .ro), (30, 30, .ro), (29, 29, .ro), (28, 28, .ro)],
  regN "FLT_IN_SUPPR_Ii" 0xC0408 20 16 .dev 0x0 [(31, 0, .rc)],
  regN "FLT_IN_GLITCH_Ii" 0xC040C 20 16 .dev 0x0 [(31, 0, .rc)]]

/-- Registers of BAR0 region 0xD. -/
def regsD_0 : List RegRow := [
  reg1 "TST_TARGET" 0xD0000 .req 0x0 [(8, 8, .rw), (2, 0, .rw)],
  reg1 "TST_PRBS_CFG" 0xD0100 .lane 0x70000 [(19, 16, .rw), (9, 8, .rw), (5, 4, .rw), (1, 1, .rw), (0, 0, .rw)],
  reg1 "TST_PRBS_STAT" 0xD0104 .lane 0x0 [(31, 31, .ro), (30, 30, .ro)],
  reg1 "TST_PRBS_ERR" 0xD0108 .lane 0x0 [(31, 0, .rc)],
  reg1 "TST_INJ" 0xD010C .lane 0x0 [(31, 31, .wo), (30, 30, .rw), (29, 28, .rw), (27, 24, .rw), (23, 14, .rw), (13, 10, .rw), (9, 0, .rw)],
  reg1 "TST_LOOP" 0xD0110 .lane 0x0 [(2, 2, .rw), (1, 1, .rw), (0, 0, .rw)],
  reg1 "TST_EYE_SCAN" 0xD0114 .lane 0x0 [(31, 31, .wo), (30, 30, .ro), (29, 23, .rw), (22, 16, .rw), (15, 0, .ro)]]

/-- The rows of one BAR0 region, selected by offset bits [19:16] (R424). Regions 0xE and 0xF hold no row:
0xE is the MSI-X table, served to the host alone (R425), 0xF is reserved. -/
def regionRows : Nat → List RegRow
  | 0x0 => regs0_0
  | 0x1 => regs1_0
  | 0x2 => regs2_0
  | 0x3 => regs3_0 ++ regs3_1
  | 0x4 => regs4_0 ++ regs4_1 ++ regs4_2 ++ regs4_3 ++ regs4_4 ++ regs4_5 ++ regs4_6
  | 0x5 => regs5_0 ++ regs5_1
  | 0x6 => regs6_0
  | 0x7 => regs7_0 ++ regs7_1
  | 0x8 => regs8_0 ++ regs8_1
  | 0x9 => regs9_0 ++ regs9_1
  | 0xA => regsA_0
  | 0xB => regsB_0 ++ regsB_1
  | 0xC => regsC_0
  | 0xD => regsD_0
  | _ => []

/-- Whether a row holds the register at an offset. -/
def RegRow.has (r : RegRow) (off : Nat) : Bool :=
  decide (r.base ≤ off) && decide ((off - r.base) / r.s1 < r.n1) &&
    decide ((off - r.base) % r.s1 / r.s2 < r.n2) && decide ((off - r.base) % r.s1 % r.s2 = 0)

/-- The row of the register at an offset; none where the offset holds no register (R6). -/
def findRow (off : Nat) : Option RegRow := (regionRows (off / 0x10000)).find? (·.has off)

/-- The watched sources' default N, W and ACTION (Table: Watched sources, R407). -/
def watchedDefaults : List (Nat × Nat × Nat) :=
  [(16, 62500, 1), (4, 62500, 0), (4, 64, 0), (8, 62500, 3), (3, 62500, 3), (3, 62500, 2), (64, 62500, 0),
   (8, 62500, 0)] ++
  [(1, 1, 0), (4, 62500, 2), (16, 62500, 0), (1, 1, 0), (3, 3750000, 0), (1, 1, 0), (1, 1, 0), (1, 1, 0)]

def watchedDefault (src : Nat) : Nat × Nat × Nat := watchedDefaults.getD src (1, 1, 0)

/-- The key of a register instance in the register tables. -/
def rkey (inst off : Nat) : Nat := inst * 0x100000 + off

/-- The fixed fields of inputs 16 to 19 (R422, Table: External inputs): in use, edge inputs, deglitch 20 ns (one
unit), 2 edges per tick. STUCK_TICKS is of no use to an edge input and reads 0 (log entry 21). -/
def fixedInputCfg : Nat := 0x80000102

/-- The instance that holds the registers of an input: those of input 16 lie beside the GPIO registers at the same offset,
as instance 1 of it. -/
def inputInst (i : Nat) : Nat := if i = 16 then 1 else 0

/-- The value of the register at a key after reset (R428), before the image's records are written. -/
def regReset (key : Nat) : Word :=
  let inst := key / 0x100000
  let off := key % 0x100000
  match findRow off with
  | none => 0
  | some r =>
    let i := (off - r.base) / r.s1
    if key = 0x1C0500 then BitVec.ofNat 32 fixedInputCfg else
    BitVec.ofNat 32 (
      if r.base = 0x41200 then r.reset + i
      else if r.base = 0xC0004 then r.reset + (watchedDefault inst).2.2 * 0x20000000
      else if r.base = 0xC0008 then (watchedDefault inst).1
      else if r.base = 0xC000C then (watchedDefault inst).2.1
      else if r.base = 0xC0400 then (if 16 ≤ i then fixedInputCfg else r.reset)
      else r.reset)

/-- The bits of a word that lie in fields of one of the given access types. -/
def accMask (flds : List (Nat × Nat × Acc)) (p : Acc → Bool) : Nat :=
  (flds.filter (fun f => p f.2.2)).foldl (fun m f => m ||| ((2 ^ (f.1 + 1 - f.2.1) - 1) <<< f.2.1)) 0

end Sys2Proof.Machine
end

