-- ==== Sys2Proof/Machine/State.lean ====
section
/-!
DEFINITION. The state of the engine as plain data: the register tables, and beside them every queue, buffer, run
count, agent and clock that the chapters of the spec give the machine. Also the two closed lists of reasons for
which a step can stop, and the machine right after reset.
-/

namespace Sys2Proof.Machine

/-! ### Engine: clock, core tick, commits (01_engine) -/

/-- A commit that waits for its boundary: whose it is, at how many boundaries from now it is due (R27), and its captured
scope (R26): the device, the octants of a mask, the channels (with their queues) of a mask. -/
structure Commit where
  req : Nat
  wait : Nat
  dev : Bool
  octs : Nat
  chs : Nat
  deriving DecidableEq, Repr

/-- The held octant and channel parts of commits for one octant that was busy or asleep (R31): whose they are, the
scope within the octant, and the shadows as the cutoff's snapshot has them (R28). -/
structure Held where
  reqs : List Nat
  octScope : Bool
  chs : Nat
  snap : Tab Word
  deriving DecidableEq, Repr

def Held.none : Held := { reqs := [], octScope := false, chs := 0, snap := [] }

/-- The tick sequencer of one octant (R33, R34): cycles of earlier ticks' work still to do, and cycles of the
current tick's own work so far. -/
structure Seq where
  backlog : Nat
  work : Nat
  deriving DecidableEq, Repr

def Seq.idle : Seq := { backlog := 0, work := 0 }

/-- Device-level tick state: the core tick number (R17), the peg-0 times of the last and of the next boundary in
units of 2^-48 ns, the device cycle of the last boundary, whether the cutoff has passed (R27), the commits pending, the held
parts per octant, the sequencers per octant, and for how many boundaries running the device-level work has been unfinished
(R334). -/
structure Eng where
  tick : Nat
  lastB : Nat
  nextB : Nat
  lastCyc : Nat
  past : Bool
  commits : List Commit
  held : Tab Held
  seq : Tab Seq
  devLate : Nat
  deriving DecidableEq, Repr

def Eng.reset : Eng :=
  { tick := 0, lastB := 0, nextB := 16000 * 2 ^ 48, lastCyc := 0, past := false, commits := [], held := [], seq := [],
    devLate := 0 }

/-! ### Lanes (02_lanes) -/

/-- The transmitter of one lane: what it has sent in the line tick or burst under way, as (block at which it starts, blocks); the
scrambler's last 58 bits (R41); the injections that fall in it, as (codeword of it, mask), and how many codewords a terminal has
sent in bursts and which codeword the continuous injection last fell on (R65); the 31 stages of the pattern generator, newest bit
in bit 0 (R64), and the symbols of its square wave sent; and of a Surok lane the device cycle at which its line tick was launched,
the blocks that it holds, and up to where the transmitter is busy (R85). -/
structure Tx where
  items : List (Nat × List Block)
  scr : Nat
  inj : List (Nat × Nat)
  sent : Nat
  last : Option Nat
  gen : Nat
  square : Nat
  launched : Nat
  blocks : Nat
  busyTo : Nat
  deriving DecidableEq, Repr

def Tx.reset : Tx :=
  { items := [], scr := 0, inj := [], sent := 0, last := none, gen := 2 ^ 31 - 1, square := 0, launched := 0, blocks := 0, busyTo := 0 }

/-- The PCS of a client receiver (R58): the codeword times kept for deskew, newest first; the delay of each PCS lane in bits; the
340 bits of each lane for the first codeword time of a pair; the descrambler's last 58 bits; and the pair's place among the 4,096
of an alignment-marker period. -/
structure Pcs where
  hist : List Nat
  delay : List Nat
  half : Option (List Nat)
  scr : Nat
  pair : Nat
  deriving DecidableEq, Repr

def Pcs.reset : Pcs := { hist := [], delay := [], half := none, scr := 0, pair := 0 }

/-- One lane, line lanes 0 to 63 and Surok lanes 64 to 71, beside its status register. Its receiver: the last
codeword time's raw bits, the offset of the codeword hunter in PAM4 symbols (where the sweep goes on, or the locked
offset), how many confirmations the candidate has (none: no candidate), the run counts of R44 and R46, the last 58
line bits of the descrambler (R41), the blocks that the decoder last passed on (R43), how many codewords it has passed on since
the line tick or burst began and which of them were uncorrectable, oldest first, the pattern checker (R63) and the client PCS (R58);
whether an injection waits for the next codeword of a burst (R65), whether an eye scan is running (R67), and the transmitter. -/
structure Lane where
  prev : Nat
  hunt : Nat
  conf : Option Nat
  badHdr : Nat
  goodDec : Nat
  uncRun : Nat
  scr : Nat
  rx : List Block
  cws : Nat
  unc : List Nat
  chk : Checker
  pcs : Pcs
  inj : Bool
  scan : Bool
  tx : Tx
  deriving DecidableEq, Repr

def Lane.reset : Lane :=
  { prev := 0, hunt := 0, conf := none, badHdr := 0, goodDec := 0, uncRun := 0, scr := 0, rx := [], cws := 0, unc := [],
    chk := .reset, pcs := .reset, inj := false, scan := false, tx := .reset }

/-! ### Framer, bridge messages, switching requests and defects (03_tick_frame) -/

/-- The two run counts of an integrated cause (R94). -/
structure Run where
  bad : Nat
  good : Nat
  deriving DecidableEq, Repr

def Run.zero : Run := { bad := 0, good := 0 }

/-- What an evaluation point says of a cause: bad, good, or neither (R94). -/
inductive Judge where
  | bad | good | neither
  deriving DecidableEq, Repr

/-- The persistence filter of one received switching request (R93), beside CH_SRQ_RX. -/
structure Srq where
  run : Nat
  last : Nat
  unsettled : Nat
  deriving DecidableEq, Repr

def Srq.zero : Srq := { run := 0, last := 0, unsettled := 0 }

/-- What has happened on a channel since its last evaluation point (R95, R96, R99). -/
structure Seen where
  noSig : Bool
  noCwl : Bool
  faw : Judge
  rdi : Judge
  unc : Nat
  errs : Nat
  bits : Nat
  errored : Bool
  granted : Bool
  shown : Bool
  deriving DecidableEq, Repr

def Seen.zero : Seen :=
  { noSig := false, noCwl := false, faw := .neither, rdi := .neither, unc := 0, errs := 0, bits := 0,
    errored := false, granted := false, shown := false }

/-- The framer of one channel, or of one Surok lane (64 to 71): the step and the values of the presync check
(R88), the J in force (0: 0, 1: +1, 2: -1, 3: undecided), consecutive FAW misses (R89), whether this line tick's
payload is delivered (R90), the bridge-message queues oldest first (R77), the switching-request filters per
terminal (R93), the integration runs (R94), the BER windows newest first as (errors, bits) pairs (R96), the record
since the last evaluation point, how many line ticks began in this core tick and whether they count (R21), how many
runs of the per-line-tick work are due, whether a head end has launched its first line tick (R78), and
whether a terminal's next line tick is the first under a new binding (R242). -/
structure Framer where
  pre : Nat
  pLtn : Nat
  pJ : Nat
  j : Nat
  miss : Nat
  deliver : Bool
  bmTx : List (List Byte)
  bmRx : List (List Byte)
  srq : Tab Srq
  los : Run
  locw : Run
  lof : Run
  losf : Run
  sdm : Run
  sf : Run
  rdi : Run
  lobT : Tab Run
  rdiT : Tab Run
  ber : List (Nat × Nat)
  seen : Seen
  begins : Nat
  noWrap : Bool
  due : Nat
  started : Bool
  rebound : Bool
  deriving DecidableEq, Repr

def Framer.reset : Framer :=
  { pre := 0, pLtn := 0, pJ := 0, j := 0, miss := 0, deliver := false, bmTx := [], bmRx := [], srq := [],
    los := .zero, locw := .zero, lof := .zero, losf := .zero, sdm := .zero, sf := .zero, rdi := .zero,
    lobT := [], rdiT := [], ber := [], seen := .zero, begins := 0, noWrap := false, due := 0, started := false, rebound := false }

/-! ### Trees: fret maps, grants, bursts (04_tuning, 05_frets) -/

/-- A fret map entry (Table: Fret map entry, R131). -/
structure MapEnt where
  tid : Nat
  disc : Bool
  rreq : Bool
  bms : Bool
  prot : Bool
  classic : Bool
  start : Nat
  len : Nat
  deriving DecidableEq, Repr

def MapEnt.none : MapEnt :=
  { tid := 0, disc := false, rreq := false, bms := false, prot := false, classic := false, start := 0, len := 0 }

/-- What a head end's grant engine holds of one terminal beside its registers (R147, R149, R123): the codewords
granted per upstream line tick, newest first, and the line tick of its last valid report; the predictive estimate;
the line tick and the demand of the report before; the frame blocks received since; the sum of the arrival
offsets of the run in 1/16 block; and the receiver's phase and baseline at the end of the terminal's last good burst (R47), in the
units of the command that brings them; `old` is what was granted since that report beyond the 256 line ticks that `granted`
keeps. -/
structure Term where
  granted : List (Nat × Nat)
  old : Nat
  lastRep : Option Nat
  pBlk : Nat
  prevM : Option Nat
  prevDemand : Nat
  recv : Nat
  dsum : Int
  phase : Int
  baseline : Int
  deriving DecidableEq, Repr

def Term.reset : Term :=
  { granted := [], old := 0, lastRep := none, pBlk := 0, prevM := none, prevDemand := 0, recv := 0, dsum := 0, phase := 0,
    baseline := 0 }

/-- The arrival of block 0 of a downstream line tick at a terminal (R101): its number; its position in blocks on the
loop-timed clock; the corrected arrival stamp in peg 0 and in the bound peg, 1/16 ns; how many blocks the line tick
holds; the equalization delay counted from here for the upstream line tick of that number, and whether an armed
change took effect with it, late or not (R121). -/
structure Arr where
  ltn : Nat
  pos : Nat
  stamp0 : Nat
  stampB : Nat
  blocks : Nat
  eqd : Nat
  took : Bool
  late : Bool
  deriving DecidableEq, Repr

/-- A planned frame (R136): its queue and place there, the blocks of Idle before it, and whether it leaves with LOB. -/
structure PFrame where
  queue : Nat
  ix : Nat
  gap : Nat
  lob : Bool
  deriving DecidableEq, Repr

/-- A burst on its way (R138): the downstream line tick whose arrival places it, what the words read for it show (R187), its next
free block of the upstream line tick, and how many frames it has taken. -/
structure BurstRun where
  arr : Arr
  rd : FsRead
  next : Nat
  taken : Nat
  deriving DecidableEq, Repr

/-- A burst planned by the bow engine (R136): its upstream line tick and map entry, the planned frames in order, the
report sampled (R145), the chords for which a keepalive is sent behind them and its origin stamp (R203); and from its launch to its
end how far it is, the frames being those still to be sent. -/
structure Plan where
  u : Nat
  ent : MapEnt
  frames : List PFrame
  report : List Nat
  keep : List Nat
  keepAt : Nat
  run : Option BurstRun
  deriving DecidableEq, Repr

/-- What the composition of a map uses of a terminal's reports (R146): demand in frets, BMQ, the predictive codewords, and the
codewords granted since its last valid report. -/
structure Rep where
  demand : Nat
  bmq : Nat
  pred : Nat
  since : Nat
  deriving DecidableEq, Repr

def Rep.none : Rep := { demand := 0, bmq := 0, pred := 0, since := 0 }

/-- The tree machinery of one channel. A terminal: the map ring by slot (R134), the last arrivals newest first and how
many of them have no upstream line tick begun, whether a change of the equalization delay is armed and not taken up
(R121), its upstream line tick, the plans made and not yet sent to their end, oldest first. A head end: its line tick on the line
as (number, device cycle of the launch, launch in the bound peg in 2^-48 ns), the reports by terminal as they stood when that
line tick began (R146), the standing map (R150), the map composed and not yet launched,
the maps sent by upstream line tick mod 256, the terminals, and the measurement queue as (MEAS0, MEAS1) pairs (R113).
Both: up to where the transmitter is busy, in blocks of the line tick at a head end and of the loop-timed clock at a
terminal. -/
structure Tree where
  ring : Tab (Nat × List Nat)
  arr : List Arr
  todo : Nat
  armed : Bool
  up : Option Nat
  plans : List Plan
  busyTo : Nat
  line : Option (Nat × Nat × Nat)
  reps : List Rep
  standing : List MapEnt
  comp : Option (Nat × List MapEnt)
  maps : Tab (Nat × List MapEnt)
  terms : Tab Term
  meas : List (Word × Word)
  deriving DecidableEq, Repr

def Tree.reset : Tree :=
  { ring := [], arr := [], todo := 0, armed := false, up := none, plans := [], busyTo := 0, line := none, reps := [],
    standing := [], comp := none, maps := [], terms := [], meas := [] }


/-! ### Frames, parsing and classification (06_parse_classify) -/

/-- A frame on its way (Table: Frame descriptor, R188, and R161): its bytes from the destination address to the last byte before
the FCS, its FCS and whether stage 5 changed the frame; the arrival stamp in 1/16 ns and the device cycle at which it was taken;
source and entry channel or lane, and TID, BC and PROT of its header; the flow whose order it keeps (R172) and its place there;
epoch, pass number, the device cycle at which its first pass began, and the start node of its next pass; META16, payload_ofs
labels and word 3 of the field vector of the previous pass; the Klola tag read; and its length as it arrived. -/
structure Frame where
  body : List Byte
  fcs : List Byte
  fcsNew : Bool
  stamp : Nat
  cyc : Nat
  src : Nat
  entry : Nat
  tid : Nat
  bc : Bool
  prot : Bool
  flow : Nat
  place : Nat
  epoch : Nat
  pass : Nat
  start : Nat
  node : Nat
  meta16 : Nat
  pay : Nat
  labels : Nat
  kprev : Nat
  kv : Bool
  kchord : Nat
  kflags : Nat
  korigin : Nat
  arrLen : Nat
  deriving DecidableEq, Repr

/-- A frame with its destination, as stage 6 admits it and its queue holds it: drop precedence, destination kind and
number, TREE, and what a host descriptor shows of the decision (R273); the member on which it arrived, LATE,
EXPIRED and RESTAGED; the flow hash of its last pass; the octant whose slice holds it and its cells there in order, each linked to
the next (R186); and its number in the deep store, 0 where the slice holds it. -/
structure QFrame where
  f : Frame
  dp : Nat
  kind : Nat
  dest : Nat
  tid : Nat
  bc : Bool
  prot : Bool
  reason : Nat
  copy : Bool
  act : Nat
  ameta : Nat
  hash : Nat
  member : Nat
  late : Bool
  expired : Bool
  restaged : Bool
  slice : Nat
  cells : List Nat
  deep : Nat
  deriving DecidableEq, Repr

/-- An entry of a queue (R190): one descriptor, or a run marker for consecutive frames held in the deep store. -/
inductive QEnt where
  | one (q : QFrame)
  | run (fs : List QFrame)
  deriving DecidableEq, Repr

/-- What one walk of the parser graph gives (R158): the layer offsets 0 to 7, payload_ofs, the visits to the node
that marks layer 2, the field vector (160 bytes), and the key profile. -/
structure Walk where
  lay : List (Option Nat)
  pay : Nat
  labels : Nat
  fv : List Byte
  prof : Nat
  deriving DecidableEq, Repr

/-- A frame held for patterns (R170, R171): as its pass began, its walk, and the action in force after the search. -/
structure Hold where
  f : Frame
  w : Walk
  act : Nat
  deriving DecidableEq, Repr

/-- A frame's place in its flow between stage 3 and stage 6 (R172): no `out` while its passes go on, else
what leaves in its place; and its mirror copies, which leave with it (R183). -/
structure Place where
  id : Nat
  out : Option (List QFrame)
  copies : List QFrame
  deriving DecidableEq, Repr

/-- A token bucket filled by the device clock: its level and the device cycle up to which it is filled. -/
structure Bucket where
  level : Nat
  cyc : Nat
  deriving DecidableEq, Repr

def Bucket.empty : Bucket := { level := 0, cyc := 0 }

/-- A requester's staging copy (R173): the entry's offset in the aperture and its bytes; no bytes: none. -/
structure Stage where
  base : Nat
  bytes : List Byte
  deriving DecidableEq, Repr

def Stage.none : Stage := { base := 0, bytes := [] }

/-- An exact entry (R163). -/
structure EmEnt where
  key : List Byte
  prof : Nat
  wide : Bool
  epochs : Nat
  act : Nat
  deriving DecidableEq, Repr

/-- An exact operation in progress (R164): whose, which, and what the requester's registers held at GO. -/
structure EmOp where
  req : Nat
  op : Nat
  ctl : Word
  actw : Word
  key : List Byte
  deriving DecidableEq, Repr

/-- Stages 3 to 5: frames before each parse pipe (octants 0 to 7, injection 8, Surok lanes 9 to 16), the places per
flow, the hold lists, the recirculation queues and buckets, the slow-path buckets in 2^-16 frame, the epochs no
longer current whose frames are counted down (R176), the table aperture by byte (R173), the staging copies, the
exact table and its operations waiting, and the requester served last. -/
structure Cls where
  pipes : Tab (List Frame)
  places : Tab (List Place)
  nextPlace : Nat
  hold : Tab (List Hold)
  recq : Tab (List Frame)
  recTok : Tab Bucket
  sp : Tab Nat
  former : Nat
  tbl : Tab Byte
  stage : Tab Stage
  em : List EmEnt
  emOps : List EmOp
  emLast : Nat
  deriving DecidableEq, Repr

def Cls.reset : Cls :=
  { pipes := [], places := [], nextPlace := 1, hold := [], recq := [], recTok := [], sp := [], former := 0, tbl := [],
    stage := [], em := [], emOps := [], emLast := 0 }

/-! ### Frame store, queues and reorder contexts (07_store_order) -/

/-- A reorder context (R204, R205): the FIFO of each member as (arrival time, frame) pairs oldest first, known per
member as stamp + 1 (0: unknown), front, the last 1,024 duplicate-path keys, oldest first, and the members that were
up for receiving when last looked at. -/
structure Ctx where
  fifo : Tab (List (Nat × QFrame))
  known : Tab Nat
  front : Option Nat
  hist : List (Nat × Nat)
  up : Nat
  deriving DecidableEq, Repr

def Ctx.reset : Ctx := { fifo := [], known := [], front := none, hist := [], up := 0 }

/-- The queues, by number: L0 queues 0 to 4095, delivery queues of receive rings from 4096, of service cores from 4224, Surok
queues from 4240; the reorder contexts by chord * 8 + class group; bytes dequeued in this superframe and in the last completed one
per queue (R193); the frame-store cells in use by number (R186), and how many of them per octant are held by admitted frames and
by the restage pool; the deep-path budget in 1/128 byte (R194); and which queues have sent a frame in their channel's line tick
(R203). -/
structure Store where
  queues : Tab (List QEnt)
  ctx : Tab Ctx
  dequeued : Tab Nat
  drained : Tab Nat
  fsUsed : Tab Bool
  held : Tab Nat
  pool : Tab Nat
  tokens : Nat
  sent : Tab Bool
  deriving DecidableEq, Repr

def Store.reset : Store :=
  { queues := [], ctx := [], dequeued := [], drained := [], fsUsed := [], held := [], pool := [], tokens := 0, sent := [] }

/-! ### Shapers, meters, samples and gates (08_egress) -/

/-- The samples of one queue in the statistics superframe under way (R226): count; least, largest and sum of depth in
bytes and of head delay in ns. -/
structure Samples where
  n : Nat
  dMin : Nat
  dMax : Nat
  dSum : Nat
  tMin : Nat
  tMax : Nat
  tSum : Nat
  deriving DecidableEq, Repr

def Samples.none : Samples := { n := 0, dMin := 0, dMax := 0, dSum := 0, tMin := 0, tMax := 0, tSum := 0 }

/-- A gate list (R228): its (state, interval in ns) entries, cycle time in ns, and start in ns of the bound peg. -/
structure GateList where
  entries : List (Nat × Nat)
  cycle : Nat
  start : Nat
  deriving DecidableEq, Repr

/-- The gates of one channel (R229, R231): the list in operation, the pending list, and the admin entries as copied at
the cutoff. -/
structure Gate where
  oper : Option GateList
  pend : Option GateList
  snap : List (Nat × Nat)
  deriving DecidableEq, Repr

def Gate.reset : Gate := { oper := none, pend := none, snap := [] }

/-- The scheduler and its neighbours: shaper levels in 2^-16 token (queue; 4096 + 8 * channel + group; 4608 +
channel), charges to return at the next refill (R217), meter buckets Tc and Tp in 2^-16 byte, DWRR deficits (queue;
4096 + 8 * channel + group) and current members (8 * channel + group; 512 + 8 * channel + priority), samples, gates,
and per CLIENT channel the end of the pause timer in 0.01 ns of device time and the ticks since XOFF (R266, R267). -/
structure Egress where
  shp : Tab Int
  ret : Tab Int
  mtrC : Tab Nat
  mtrP : Tab Nat
  deficit : Tab Nat
  cur : Tab Nat
  samples : Tab Samples
  gates : Tab Gate
  pauseEnd : Tab Nat
  since : Tab Nat
  deriving DecidableEq, Repr

def Egress.reset : Egress :=
  { shp := [], ret := [], mtrC := [], mtrP := [], deficit := [], cur := [], samples := [], gates := [],
    pauseEnd := [], since := [] }

/-! ### Pegs (09_pegs) -/

/-- A set or step of a peg that waits for the boundary (R240), in units of 2^-48 ns. -/
inductive PegReq where
  | set (t : Nat)
  | step (d : Int)
  deriving DecidableEq, Repr

/-- The servo of one peg beside its registers (R243, R246): the integral in units of 2^-20 ppb, the rate that the
last run computed and the next boundary puts into effect, the latest sample since the last run in 1/16 ns, core
ticks since a sample, the two run counts, the pending set or step, and whether a step has just been applied. -/
structure Servo where
  integ : Int
  next : Option Int
  sample : Option Int
  age : Nat
  lockRun : Nat
  unlockRun : Nat
  req : Option PegReq
  stepped : Bool
  deriving DecidableEq, Repr

def Servo.reset : Servo :=
  { integ := 0, next := none, sample := none, age := 0, lockRun := 0, unlockRun := 0, req := none, stepped := false }

/-- A 1PPS input (R257): the device cycle of the last accepted edge, or of its enabling; the device cycle of the last edge given
to the servo; and the accepted edges of the last second, newest first, as device cycle and time less DLY in the input's peg in
1/16 ns (R259). -/
structure PpsIn where
  last : Nat
  given : Option Nat
  edges : List (Nat × Nat)
  deriving DecidableEq, Repr

def PpsIn.reset : PpsIn := { last := 0, given := none, edges := [] }

/-- A 1PPS output (R258): whether it is asserted, the second of its last edge, the device cycle of that edge, and whether its ToD
message has been sent (R259). -/
structure PpsOut where
  high : Bool
  sec : Nat
  edge : Option Nat
  told : Bool
  deriving DecidableEq, Repr

def PpsOut.reset : PpsOut := { high := false, sec := 0, edge := none, told := true }

/-- The reference inputs A and B as they are, and whether the edges of the 10 MHz input are there (R261). -/
structure Refs where
  a : RefIn
  b : RefIn
  ten : Bool
  deriving DecidableEq, Repr

def Refs.reset : Refs := { a := { present := false, ppb := 0 }, b := { present := false, ppb := 0 }, ten := false }

/-- The pegs: device cycles since reset, the time of each peg in units of 2^-48 ns (R237, R238), the servos, the
last 16 steps of peg 0 newest first as (device cycle, size in 1/16 ns) (R252), whether older steps were forgotten,
the 1PPS inputs and outputs (R257 to R259), the reference inputs (R261), the last junction
temperature of each octant in °C (R248), and the stamp queues of the channels, oldest first (R255). -/
structure Pegs where
  cyc : Nat
  time : Tab Nat
  servo : Tab Servo
  steps : List (Nat × Int)
  ppsIn : Tab PpsIn
  ppsOut : Tab PpsOut
  refs : Refs
  temp : Tab Int
  stq : Tab (List (List Byte))
  deriving DecidableEq, Repr

def Pegs.reset : Pegs :=
  { cyc := 0, time := [], servo := [], steps := [], ppsIn := [], ppsOut := [], refs := Refs.reset, temp := [], stq := [] }

/-! ### Host attachment (10_client_host) -/

/-- A send of a transmit ring that is under way (R278, R280): the segments still to pass, how many there are, the
stamp of the first once it has passed, and the descriptor addresses with their CTL bytes to write back. -/
structure TxJob where
  segs : List (List Byte)
  n : Nat
  stamp : Option Nat
  descs : List (Nat × Nat)
  deriving DecidableEq, Repr

def TxJob.none : TxJob := { segs := [], n := 0, stamp := Option.none, descs := [] }

/-- The PCI Express function and the rings beside their registers (R269 to R283): link up, Bus Master Enable, function-level or
hot reset in progress; the link's width and rate and the payload and read request sizes, as PcieUp gives them; the rings that look
for the next descriptor with SOF (R279); the MSI-X table by word and the vectors pending; the sends under way; the last transmit
ring served; per ring the completions not yet signalled and the device cycle of the first; and the two host buckets in half bytes
(receive, transmit). -/
structure HostIf where
  link : Bool
  bme : Bool
  flr : Bool
  width : Nat
  rate : Nat
  payload : Nat
  request : Nat
  seek : Tab Bool
  msixTab : Tab Word
  msixPend : List Nat
  jobs : Tab TxJob
  lastTx : Nat
  unsig : Tab Nat
  unsigAt : Tab Nat
  rxTok : Int
  txTok : Int
  deriving DecidableEq, Repr

def HostIf.reset : HostIf :=
  { link := false, bme := false, flr := false, width := 0, rate := 0, payload := 0, request := 2, seek := [], msixTab := [],
    msixPend := [], jobs := [], lastTx := 255, unsig := [], unsigAt := [], rxTok := 0, txTok := 0 }

/-! ### Deep store (11_deep_store) -/

/-- A granule request (R288): its requester (0 frame admission, 1 restage agent, 2 real-time port, 3 evacuation
agent, 4 service core), its deep cell and granule, write or read, the frame's number in the deep store or of a service core the number
of its access, whether it is a panic read, and its bank and row (R287). -/
structure MReq where
  who : Nat
  cell : Nat
  gran : Nat
  write : Bool
  frame : Nat
  panic : Bool
  bank : Nat
  row : Nat
  deriving DecidableEq, Repr

/-- The controller of one memory channel beside its registers: the requests of its bank queues in order of arrival,
those held on the fabric (R288), those issued and not complete; the rotating pointer, and the open bank, row and
requests served to it (R290); a write drain (R291); all-bank refreshes that are compulsory and not yet issued
(R294), the banks refreshed since the debt last fell (R295); windows deferred, whether this window's slot has run (R299), and the
device cycle at which it ends (R298). -/
structure MCh where
  queue : List MReq
  heldReq : List MReq
  fly : List MReq
  ptr : Nat
  openAt : Option (Nat × Nat × Nat)
  drain : Bool
  refPend : Nat
  refSet : Nat
  deferred : Nat
  slotDone : Bool
  slotEnd : Nat
  deriving DecidableEq, Repr

def MCh.reset : MCh :=
  { queue := [], heldReq := [], fly := [], ptr := 0, openAt := none, drain := false, refPend := 0, refSet := 0,
    deferred := 0, slotDone := false, slotEnd := 0 }

/-- The rewriting of a frame into other deep cells (R306): those cells, the advance cell that replaces a closed one, and the granules
still to be read from the old cells and written into the new ones. -/
structure Evac where
  cells : List Nat
  adv : Option Nat
  rd : Nat
  wr : Nat
  deriving DecidableEq, Repr

/-- A frame held in the deep store (R192, R195): its cells in order, the advance cell of its run, granule writes and
reads still to complete, the octant whose slice it is read into and the frame-store cells that take it there; and what its first cell
holds beside the frame: the descriptor, and RUN_NEXT as written; and its evacuation under way. -/
structure DeepFr where
  cells : List Nat
  adv : Option Nat
  wr : Nat
  rd : Nat
  reading : Bool
  oct : Nat
  into : List Nat
  desc : List Byte
  runNext : Nat
  evac : Option Evac
  deriving DecidableEq, Repr

def DeepFr.none : DeepFr :=
  { cells := [], adv := Option.none, wr := 0, rd := 0, reading := false, oct := 0, into := [], desc := [], runNext := 0, evac := Option.none }

/-- An entry of the poison table (R303). -/
structure Poison where
  cell : Nat
  mask : Nat
  runNext : Nat
  next : Nat
  deriving DecidableEq, Repr

/-- The deep store: its controllers, the deep cells in use, the frames held by number, the next number, cells lost
(R304), the poison table, the device mapped out (R305), whether a copy or return waits for the next boundary
(R306), and whether the loader has initialised it (R287). -/
structure Mem where
  chans : Tab MCh
  used : Tab Bool
  deep : Tab DeepFr
  nextId : Nat
  lost : Nat
  poison : List Poison
  mdev : Nat
  copyDone : Bool
  initDone : Bool
  deriving DecidableEq, Repr

def Mem.reset : Mem :=
  { chans := [], used := [], deep := [], nextId := 1, lost := 0, poison := [], mdev := 0, copyDone := false,
    initDone := false }

/-! ### Service cores and the task dispatcher (12_services) -/

/-- What a service core does to service-core memory (R307): a read of some bytes, a write of the bytes enabled, or an atomic operation
with its operand. -/
inductive CoreOp where
  | read (n : Nat)
  | write (data : List (Option Byte))
  | amo (op : Amo) (wide : Bool) (data : List Byte)
  deriving DecidableEq, Repr

/-- An access of a service core under way (R288, R307, R308): whose, at which byte, what, the granules still to complete, whether it
waits for the end of a copy (R306), and whether one of its granules was in error. -/
structure CoreAcc where
  core : Nat
  addr : Nat
  op : CoreOp
  todo : List Nat
  wait : Bool
  bad : Bool
  deriving DecidableEq, Repr

/-- The dispatcher beside its registers: the ready list of each priority level, head first (R313), the running
tasks whose suspension waits for the end of their run (R312, R315), the two mailboxes oldest first (R321), the
local SRAM of the cores (core * 2^18 + byte) and the service-core memory in the deep store by byte (R307); the accesses of the cores
to it by number, and the next number; the granule that each core has reserved (R307); the frames that cores inject, as address and
length (R310); and the tasks that the events of the command under way make READY (R313). -/
structure Tds where
  ready : Tab (List Nat)
  suspend : List Nat
  mboxIn : List (List Word)
  mboxOut : List (List Word)
  sram : Tab Byte
  coreMem : Tab Byte
  accs : Tab (Option CoreAcc)
  nextAcc : Nat
  resv : Tab (Option Nat)
  inj : Tab (Option (Nat × Nat))
  joins : List Nat
  deriving DecidableEq, Repr

def Tds.reset : Tds := { ready := [], suspend := [], mboxIn := [], mboxOut := [], sram := [], coreMem := [],
                          accs := [], nextAcc := 0, resv := [], inj := [], joins := [] }

/-! ### Twin pairing (13_twin) -/

/-- A copy record (Table: Copy record, R342). -/
structure Rec where
  typ : Nat
  index : Nat
  seq : Nat
  body : List Byte
  deriving DecidableEq, Repr

/-- A handover under way (R341): its line tick T, GAP, what the channel becomes, the SEQ of the HAND record where
this engine sent it, and the requester whose RESULT it decides (19: the partner's request). -/
structure Hand where
  t : Nat
  gap : Nat
  toActive : Bool
  seq : Nat
  req : Nat
  deriving DecidableEq, Repr

/-- A TWIN_ALIVE input (R335): the device cycle of its last rising edge, edges in the run towards restoration. -/
structure Alive where
  last : Option Nat
  run : Nat
  deriving DecidableEq, Repr

def Alive.reset : Alive := { last := none, run := 0 }

/-- The twin agent and the Surok link: own heartbeat count; the last HB accepted, whether one came since the boundary and its
HEAR, boundaries without and with heartbeat in a row; the partner's PAIR_ACT; the TWIN_ALIVE inputs, the level of the outputs,
whether they are held low (and until reset); per lane the partner's launch time and the own arrival stamp of its last bridge, and
RDI (R328, R330); the superframe's samples (delay, offset) (R332); unacknowledged records with the core tick at which each was
sent (none: waiting), and copy frames' resync state; the last SEQ applied and whether a gap discards records; HSTAT, ACK_SEQ and
PAIR_ACT of the line tick under way (R328); the records that a resync still has to send (R343); the operator's LO or FS by channel
(R340); the copied records: TREC by channel * 32 + terminal, TERM by channel, FMAP by channel * 256 + line tick mod 256, REQ, KEY;
channel switches that wait for the boundary (R349) and handovers by channel; the core tick at which the twin agent started (R339);
the sums of R346 in 1/16 block; the strap in the partner's last bridge; the pairs that R339 has still to decide; whether a resync
is to start; the local requests last sent, 4 bits a channel; and the copied CLS_EPOCH.CUR that waits for the boundary. -/
structure Twin where
  hb : Nat
  lastHb : Option Nat
  seen : Bool
  hear : Bool
  miss : Nat
  good : Nat
  pairAct : Nat
  alive : Tab Alive
  high : Bool
  fence : Bool
  lineTick : Tab Nat
  echo : Tab (Nat × Nat)
  rdi : Nat
  samples : List (Int × Int)
  buf : List (Rec × Option Nat)
  resync : Option Nat
  rxSeq : Nat
  gap : Bool
  said : Nat × Nat × Nat
  whole : List (Nat × Nat × List Byte)
  oper : Tab Nat
  trec : Tab (List Byte)
  term : Tab (List Byte)
  fmap : Tab (List Byte)
  preq : List Byte
  keyRec : Tab (List Byte)
  switches : List (Nat × Bool × Nat)
  hands : Tab (Option Hand)
  since : Option Nat
  sofs : Tab Int
  pstrap : Option Nat
  fresh : Tab Bool
  resyncDue : Bool
  sentReq : Nat
  epoch : Option Nat
  deriving DecidableEq, Repr

def Twin.reset : Twin :=
  { hb := 0, lastHb := none, seen := false, hear := false, miss := 0, good := 0, pairAct := 0,
    alive := [], high := false, fence := false, lineTick := [], echo := [], rdi := 0, samples := [], buf := [],
    resync := none, rxSeq := 0, gap := true, said := (0, 0, 0), whole := [], oper := [], trec := [], term := [], fmap := [],
    preq := [], keyRec := [],
    switches := [], hands := [], since := none, sofs := [], pstrap := none,
    fresh := [], resyncDue := false, sentReq := 0, epoch := none }

/-! ### Image, attestation and keys (14_image_security) -/

/-- A flash command in progress (R372): operation, address, bytes. -/
structure FlashCmd where
  op : Nat
  addr : Nat
  bytes : List Byte
  deriving DecidableEq, Repr

/-- The loader, the capo signer and the key store: manifest digest M, rolling digest D and its fold count (R362);
which slot a check runs on, and the SVN with which the other slot passed since the start (R358); the flash command in
progress; requesters waiting for a report (R364); the bytes of SHA3-512(OWNER_PK) and of the manifest kept since the
start; whether deep-store training has ended and the sections are checked, in the start under way; the payload keys
by ((channel * 32 + terminal) * 4 + slot) * 2 + direction (R366); per channel the terminals announced in KCM in this
superframe, and at a terminal whether its bit was seen (R369); the device serial; the frame-store copies of the sections, as
(type, parameter, bytes), from check 7 to APPLY (R356); and by extension MEM_BASE, MEM_LEN and REGIONS, its limits (R360). -/
structure Img where
  m : List Byte
  d : List Byte
  folds : Nat
  verify : Option Nat
  otherSvn : Option Nat
  flash : Option FlashCmd
  attQ : List Nat
  ownerHash : List Byte
  manifest : List Byte
  sections : List (Nat × Nat × List Byte)
  pmp : Tab (List Nat)
  trained : Bool
  checked : Bool
  keys : Tab (List Byte)
  kcm : Tab Nat
  kseen : Tab Bool
  serial : List Byte
  deriving DecidableEq, Repr

def Img.reset : Img :=
  { m := [], d := [], folds := 0, verify := none, otherSvn := none, flash := none, attQ := [], ownerHash := [],
    manifest := [], sections := [], pmp := [], trained := false, checked := false, keys := [], kcm := [], kseen := [], serial := [] }

/-! ### Power (15_power) -/

/-- What an octant is doing (R380, R385 to R389): nothing, raising (waiting for the voltage, then for the boundary),
lowering (ramping down), an entry step, an in-service test, an exit, or a reversal of an entry. -/
inductive PStep where
  | idle | raising | settled | lowering | quiesce | save | saved | lanesDeep | stop | testing | exiting | reversing
  deriving DecidableEq, Repr

/-- The power machinery of one octant beside OCT_PWR_STAT: the step, the target and requester in progress, whether the
transition is an in-service test, the pending slot and the request that starts at the next boundary as (target,
requester) (R381, R382), the latched wake source (R389), core ticks since the transition started, and the level whose clock
the octant runs on, and the level before a lowering under way. -/
structure OctPwr where
  step : PStep
  target : Nat
  req : Nat
  test : Bool
  pend : Option (Nat × Nat)
  queued : Option (Nat × Nat)
  wake : Option Nat
  ticks : Nat
  level : Nat
  prior : Nat
  deriving DecidableEq, Repr

def OctPwr.reset : OctPwr :=
  { step := .idle, target := 0, req := 0, test := false, pend := none, queued := none, wake := none, ticks := 0,
    level := 3, prior := 3 }

/-- Power of the device: the octants, (channel, requester) pairs asked to doze at the boundary, channels whose doze has ended and
whose transmitter is not ready, woken channels whose octant does not run yet, registers written while their octant sleeps with the
requester (R429), whether the engine is in device standby, is held in reset for want of power or after a thermal trip, has made a
last-gasp record, and whether the reset input is active; the device cycle since which the main feed is healthy; and, across device
standby, the values in effect and the shadows that capo banks 0 and 4 to 27 hold, with gates, copied records and sums (R386), the
banks found bad, and whether they are still to be restored after APPLY (R398). -/
structure Pwr where
  octs : Tab OctPwr
  dozeReq : List (Nat × Nat)
  waking : List Nat
  wakeHeld : List Nat
  sleepFolds : List (Nat × Nat)
  standby : Bool
  off : Bool
  tripped : Bool
  gasped : Bool
  input : Bool
  mainSince : Nat
  capoEff : Tab Word
  capoShd : Tab Word
  capoGates : Tab Gate
  capoTrec : Tab (List Byte)
  capoTerm : Tab (List Byte)
  capoSofs : Tab Int
  dsBad : Nat
  dsRestore : Bool
  deriving DecidableEq, Repr

def Pwr.reset : Pwr :=
  { octs := [], dozeReq := [], waking := [], wakeHeld := [], sleepFolds := [], standby := false, off := false, tripped := false,
    gasped := false, input := false, mainSince := 0, capoEff := [],
    capoShd := [], capoGates := [], capoTrec := [], capoTerm := [], capoSofs := [], dsBad := 0, dsRestore := false }

/-! ### Faults, event log, test, external inputs (16_faults_test) -/

/-- One entry of the event log (Table: Event-log entry, R409). DATA is bytes 20 to 31, unused bytes left out. -/
structure LogEnt where
  stamp : Nat
  seq : Nat
  code : Nat
  sev : Nat
  req : Nat
  index : Nat
  data : List Nat
  deriving DecidableEq, Repr

def LogEnt.empty : LogEnt := { stamp := 0, seq := 0, code := 0, sev := 0, req := 0, index := 0, data := [] }

/-- The window count of one instance of a watched source (R400): the core ticks of its last events, newest first,
whether it is lasting, the effect in place, whether the last action could not be applied (R404), and for a tracker
entry of FS_CORR its row and whether it is in use (R405); `act` is the action applied at its last LASTING_BEGIN. -/
structure Watch where
  ticks : List Nat
  lasting : Bool
  effect : Bool
  noeffect : Bool
  act : Nat
  row : Nat
  tracked : Bool
  deriving DecidableEq, Repr

def Watch.none : Watch :=
  { ticks := [], lasting := false, effect := false, noeffect := false, act := 0, row := 0, tracked := false }

/-- What decides on an external input beside FLT_IN_STAT (R418 to R421): the accepted level (true: active), the accepted active
edges in this core tick, those of a 1PPS or TWIN_ALIVE input that have still to act (R257, R335), the edges suppressed in this
superframe, how many superframes have begun since a transition was accepted (at most 2), and the core tick at which a level input
became active. -/
structure InSt where
  level : Bool
  edges : Nat
  acts : Nat
  suppr : Nat
  quiet : Nat
  since : Nat
  deriving DecidableEq, Repr

def InSt.reset : InSt := { level := false, edges := 0, acts := 0, suppr := 0, quiet := 2, since := 0 }

/-- Faults and the event log: the watched instances at source * 256 + instance, the log by SEQ mod 8,192, the
entries made in the cycle under way (R408), the capo summary (R411): its circle, counts by SEV, next index and
last-gasp entry; the row last retired and the rows retired per octant (octant * 8192 + row); the inputs; and the
test under way: kind, unit, step (R414). -/
structure Flt where
  watch : Tab Watch
  log : Tab LogEnt
  cycle : List LogEnt
  capo : Tab LogEnt
  sevs : List Nat
  capoNext : Nat
  lastGasp : Option LogEnt
  rows : Tab Bool
  ins : Tab InSt
  bist : Option (Nat × Nat × Nat)
  deriving DecidableEq, Repr

def Flt.reset : Flt :=
  { watch := [], log := [], cycle := [], capo := [], sevs := [0, 0, 0], capoNext := 0, lastGasp := none,
    rows := [], ins := [], bist := none }

/-! ### What leaves the engine -/

/-- What the engine does to the outside world. Each names the line, link or device it acts on. `burstEn`: BURST_EN asserted
`lead` blocks before the first preamble block of the burst that follows and deasserted `lag` blocks after its last (R49),
the preamble pattern sent from then on (R50). `rxReset`: RX_RESET asserted `ofs` blocks after the first block of the burst
granted at fret `start` of upstream line tick `u`, for `len` blocks (R51). `restore`: the phase and baseline that the receiver
loads for the burst of a terminal (R47). `symbols`: the PAM4 levels that a lane sends, in order (R39). `idle`: the lane's line
output at electrical idle for a codeword time (R66). -/
inductive Out where
  | msix (vec : Nat)
  | coreIrq (core : Nat)
  | coreReset (core : Nat)
  | coreFault (core : Nat) (store : Bool)
  | hostWrite (addr : Nat) (bytes : List Byte)
  | hostRead (addr bytes : Nat)
  | aer (ring : Nat)
  | inject (lane mask : Nat)
  | ppsOut (o : Nat) (level : Bool)
  | tod (baud : Nat) (bytes : List Byte)
  | bridge (lane j : Nat) (bytes : List Byte)
  | burstEn (c lead lag : Nat)
  | rxReset (c u start ofs len : Nat)
  | restore (c t : Nat) (phase baseline : Int)
  | symbols (lane : Nat) (levels : List Nat)
  | idle (lane : Nat)
  | burst (c u : Nat) (ent : MapEnt) (header message : List Byte)
  | treeFrame (c : Nat) (bytes : List Byte)
  | clientFrame (c : Nat) (bytes : List Byte)
  | surokFrame (lane : Nat) (bytes : List Byte)
  | mem (m kind bank row col : Nat)
  | flash (op addr : Nat) (bytes : List Byte)
  | fuses (n : Nat)
  | twinAlive (level : Bool)
  | bist (kind idx : Nat)
  deriving DecidableEq, Repr

/-! ### The machine -/

/-- Why a command ends in a fault. The spec gives every command an effect on every state, so no command does. -/
inductive Fault where
  deriving DecidableEq, Repr

/-- Why a command is refused. -/
inductive Refusal where
  /-- Raised by no meaning: it stands for a row of the table that has none yet. Safe: the machine stops. -/
  | notModelled (mnemonic : String)
  deriving DecidableEq, Repr

/-- A register write of the device cycle under way (R37): the cycle, whose it is, the register's key, the bits enabled; or, with
no bit enabled, a fold of that cycle (R362): the digest in front of it and its record. -/
structure CycWrite where
  cyc : Nat
  req : Nat
  key : Nat
  mask : Nat
  fold : Option (List Byte × List Byte)
  deriving DecidableEq, Repr

/-- The state of the engine: the values in effect and the shadows of every register instance, and the shadows as the last cutoff
took them (R28), and the register writes of the device cycle under way (R37); the parts of the chapters above, lanes and framers
by channel 0 to 63 and Surok lane 64 to 71, trees by channel; what has left the engine, newest first; the bytes that each
requester's last read returned; how many free values have been taken (the model's own field, log entry 3); and the commands
waiting, first in, first out (the model's own field, log entry 1). -/
structure State where
  eff : Tab Word
  shd : Tab Word
  snap : Tab Word
  same : List CycWrite
  eng : Eng
  lanes : Tab Lane
  framers : Tab Framer
  trees : Tab Tree
  cls : Cls
  store : Store
  egress : Egress
  pegs : Pegs
  host : HostIf
  mem : Mem
  tds : Tds
  twin : Twin
  img : Img
  pwr : Pwr
  flt : Flt
  out : List Out
  rdata : Tab (List Byte)
  free : Nat
  pending : List Instr
  deriving DecidableEq, Repr

/-- The machine right after reset (R428): every register at its reset value, every queue, buffer and table empty,
peg 0 at 0 s (R359), the start sequence in phase RESET, no host link, no command waiting. -/
def State.reset : State :=
  { eff := [], shd := [], snap := [], same := [], eng := .reset, lanes := [], framers := [], trees := [], cls := .reset,
    store := .reset, egress := .reset, pegs := .reset, host := .reset, mem := .reset, tds := .reset, twin := .reset,
    img := .reset, pwr := .reset, flt := .reset, out := [], rdata := [], free := 0, pending := [] }

end Sys2Proof.Machine
end

