-- ==== Sys2Proof/Machine/Ops.lean ====
section
/-!
DEFINITION. The named operations over the state that every family of commands uses: reading and writing a field
of a register, counting, the clocks, the event log's entries, what leaves the engine, MSI-X, and free values.
-/

namespace Sys2Proof.Machine

/-- The width of a field. -/
def Fld.width (f : Fld) : Nat := f.hi + 1 - f.lo

/-- The value of a field of a word. -/
def getF (w : Word) (f : Fld) : Nat := w.toNat / 2 ^ f.lo % 2 ^ f.width

/-- A word with one field replaced; a value too wide for the field keeps its low bits. -/
def setF (w : Word) (f : Fld) (v : Nat) : Word :=
  BitVec.ofNat 32 (w.toNat - getF w f * 2 ^ f.lo + v % 2 ^ f.width * 2 ^ f.lo)

/-- The value in effect of a whole register. -/
def State.reg (s : State) (inst off : Nat) : Word := tget regReset s.eff (rkey inst off)

/-- The shadow of a whole register (R7, R24). -/
def State.shadow (s : State) (inst off : Nat) : Word := tget regReset s.shd (rkey inst off)

/-- A register's value in effect replaced. -/
def State.setReg (s : State) (inst off : Nat) (w : Word) : State :=
  { s with eff := tput regReset s.eff (rkey inst off) w }

/-- A register's shadow replaced. -/
def State.setShadow (s : State) (inst off : Nat) (w : Word) : State :=
  { s with shd := tput regReset s.shd (rkey inst off) w }

/-- A field's value in effect. -/
def State.rd (s : State) (f : Fld) (inst : Nat) : Nat := getF (s.reg inst f.off) f

/-- Whether a field in effect is not 0. -/
def State.on (s : State) (f : Fld) (inst : Nat) : Bool := s.rd f inst != 0

/-- A field's shadow. -/
def State.rdShadow (s : State) (f : Fld) (inst : Nat) : Nat := getF (s.shadow inst f.off) f

/-- A field set to a value in effect. -/
def State.wr (s : State) (f : Fld) (inst v : Nat) : State :=
  s.setReg inst f.off (setF (s.reg inst f.off) f v)

/-- A field set to a value as shadow and in effect (the image loader's commit of a field, R360). -/
def State.wrBoth (s : State) (f : Fld) (inst v : Nat) : State :=
  (s.wr f inst v).setShadow inst f.off (setF (s.shadow inst f.off) f v)

/-- A field that holds a flag. -/
def State.wrB (s : State) (f : Fld) (inst : Nat) (b : Bool) : State := s.wr f inst (if b then 1 else 0)

/-- A counter field raised by a number; every counter of the spec saturates at its field's largest value. -/
def State.addN (s : State) (f : Fld) (inst n : Nat) : State :=
  s.wr f inst (min (s.rd f inst + n) (2 ^ f.width - 1))

/-- A counter field raised by 1, saturating. -/
def State.inc (s : State) (f : Fld) (inst : Nat) : State := s.addN f inst 1

/-- A counter field raised by 1, wrapping. -/
def State.incWrap (s : State) (f : Fld) (inst : Nat) : State := s.wr f inst (s.rd f inst + 1)

/-- A field as a two's-complement number. -/
def State.rdInt (s : State) (f : Fld) (inst : Nat) : Int :=
  let v := s.rd f inst
  if v < 2 ^ (f.width - 1) then (v : Int) else (v : Int) - (2 ^ f.width : Nat)

/-- The two's-complement code of a number in a number of bits, wrapping. -/
def codeInt (bits : Nat) (v : Int) : Nat := (v % ((2 ^ bits : Nat) : Int)).toNat

/-- The nearest number that a two's-complement field of some bits holds. -/
def satInt (bits : Nat) (v : Int) : Int :=
  let m : Int := ((2 ^ (bits - 1) : Nat) : Int)
  if v < -m then -m else if m - 1 < v then m - 1 else v

/-- round(a / b) with halves away from zero, for b above 0 (00_scope, Pseudocode and examples). -/
def roundDiv (a : Int) (b : Nat) : Int :=
  if 0 ≤ a then (2 * a + b) / (2 * b) else -((2 * (-a) + b) / (2 * b))

/-- ceil(a / b). -/
def ceilDiv (a b : Nat) : Nat := (a + b - 1) / b

/-- What leaves the engine, newest first. -/
def State.emit (s : State) (o : Out) : State := { s with out := o :: s.out }

/-- The time of a peg in units of 2^-48 ns. -/
def State.pegTime (s : State) (p : Nat) : Nat := tget (fun _ => 0) s.pegs.time p

/-- Peg-0 time in 1/16 ns, the unit of stamps. -/
def State.now16 (s : State) : Nat := s.pegTime 0 / 2 ^ 44

/-- The core tick number, low 32 bits. -/
def State.tick32 (s : State) : Nat := s.eng.tick % 2 ^ 32

/-- Whether the host can be reached (R271): the link is up, Bus Master Enable is 1, no function-level reset. -/
def State.hostUp (s : State) : Bool := s.host.link && s.host.bme && !s.host.flr

/-- Word k of an MSI-X table entry; a vector starts masked, as PCI Express defines (R425). -/
def msixDefault (k : Nat) : Word := if k % 4 = 3 then 1 else 0

/-- Whether a vector's table entry is masked. -/
def State.vecMasked (s : State) (vec : Nat) : Bool := (tget msixDefault s.host.msixTab (4 * vec + 3)).toNat % 2 == 1

/-- An MSI-X vector signalled: sent, or held pending while its table entry is masked (R425, R283), and while the host cannot be
reached (DESIGN CHOICE, log entry 134). -/
def State.msix (s : State) (vec : Nat) : State :=
  if !s.hostUp || s.vecMasked vec then
    if s.host.msixPend.contains vec then s
    else { s with host := { s.host with msixPend := vec :: s.host.msixPend } }
  else s.emit (.msix vec)

/-- The vectors that are pending and can be sent, sent. -/
def State.sendPending (s : State) : State :=
  if !s.hostUp then s
  else
    let now := s.host.msixPend.filter (fun v => !s.vecMasked v)
    now.foldr (fun v s => s.emit (.msix v)) { s with host := { s.host with msixPend := s.host.msixPend.filter s.vecMasked } }

/-! ### Transfers to and from the host (R269) -/

/-- The parts of n bytes in transfers of at most `size`: offset and length. -/
def transfers (size n : Nat) : List (Nat × Nat) :=
  (List.range (ceilDiv n size)).map (fun i => (size * i, min size (n - size * i)))

/-- Bytes written to the host, in writes of at most the payload size. -/
def State.hostWrite (s : State) (addr : Nat) (bytes : List Byte) : State :=
  (transfers (128 * 2 ^ s.host.payload) bytes.length).foldl (fun s p => s.emit (.hostWrite (addr + p.1) ((bytes.drop p.1).take p.2))) s

/-- Bytes read from the host, in reads of at most the read request size. -/
def State.hostRead (s : State) (addr n : Nat) : State :=
  (transfers (128 * 2 ^ s.host.request) n).foldl (fun s p => s.emit (.hostRead (addr + p.1) p.2)) s

/-- A free value: nothing constrains it; each use takes the next one (Config.freeValue). -/
def State.takeFree (s : State) : Nat × State := (Config.freeValue s.free, { s with free := s.free + 1 })

/-- The canonical form of a memory of bytes, in which a byte that nothing has written reads 0: the master tables, the local
SRAM of the cores, and service-core memory. -/
def Memory.wf (t : Tab Byte) : Bool := twf (fun _ => 0) t

/-- The register tables and the memories have their canonical form. -/
def State.Canonical (s : State) : Prop :=
  twf regReset s.eff = true ∧ twf regReset s.shd = true ∧ twf regReset s.snap = true ∧
    Memory.wf s.cls.tbl = true ∧ Memory.wf s.tds.sram = true ∧ Memory.wf s.tds.coreMem = true

/-! ### Bytes -/

/-- The low n bytes of a number, least significant first (R2, structures in memory). -/
def bytesLE (n v : Nat) : List Nat := (List.range n).map (fun i => v / 2 ^ (8 * i) % 256)

/-- The low n bytes of a number, most significant first (R2, structures on a line). -/
def bytesBE (n v : Nat) : List Nat := (bytesLE n v).reverse

/-- A number from its bytes, least significant first. -/
def ofLE : List Nat → Nat
  | [] => 0
  | b :: bs => b + 256 * ofLE bs

/-- A number from its bytes, most significant first. -/
def ofBE (bs : List Nat) : Nat := bs.foldl (fun a b => a * 256 + b) 0

/-- Bytes of numbers. -/
def toBytes (l : List Nat) : List Byte := l.map (BitVec.ofNat 8)

/-- The n bytes of a list from an offset, missing bytes read 0. -/
def slice {α : Type} (l : List α) (ofs n : Nat) : List α := (l.drop ofs).take n

/-- Byte i of a list of bytes, 0 beyond its end. -/
def byteAt (l : List Byte) (i : Nat) : Nat := (l.getD i 0).toNat

/-- n bytes from an offset as a number in network order. -/
def fieldBE (l : List Byte) (ofs n : Nat) : Nat :=
  (List.range n).foldl (fun a i => a * 256 + byteAt l (ofs + i)) 0

/-- n bytes from an offset as a little-endian number. -/
def fieldLE (l : List Byte) (ofs n : Nat) : Nat :=
  (List.range n).foldr (fun i a => byteAt l (ofs + i) + 256 * a) 0

/-! ### The event log -/

/-- The requester byte of an entry that no write caused (R409). -/
def engineReq : Nat := 0xFF

/-- The severity that Table: Event codes gives a code (R410). -/
def logSeverity (code : Nat) : Nat :=
  if [0x0202, 0x0203, 0x0204, 0x0801, 0x0802, 0x0901, 0x0A01, 0x0B01, 0x0B02, 0x0C01].contains code then 2
  else if [0x0301, 0x0302, 0x0402, 0x0601, 0x0C02, 0x0C05, 0x0C06].contains code then 0
  else 1

/-- An event-log entry made in the cycle under way; `flushLog` writes the cycle's entries in order (R408). -/
def State.log (s : State) (code req index : Nat) (data : List Nat) : State :=
  let e : LogEnt := { stamp := s.now16 % 2 ^ 64, seq := 0, code, sev := logSeverity code, req, index, data }
  { s with flt := { s.flt with cycle := s.flt.cycle ++ [e] } }

/-- An entry put into its place in ascending CODE, then ascending INDEX, after its equals (R408). -/
def insertEnt (e : LogEnt) : List LogEnt → List LogEnt
  | [] => [e]
  | x :: xs =>
    if e.code < x.code || (e.code == x.code && decide (e.index < x.index)) then e :: x :: xs
    else x :: insertEnt e xs

/-- The 32 bytes of an entry (Table: Event-log entry, R409). -/
def LogEnt.bytes (e : LogEnt) : List Nat :=
  bytesLE 8 e.stamp ++ bytesLE 4 e.seq ++ bytesLE 2 e.code ++ [e.sev, e.req] ++ bytesLE 2 e.index ++ [0, 0] ++
    slice (e.data ++ List.replicate 12 0) 0 12

/-- 2^SIZE of the host log, SIZE held to 6 to 16 (HDMA_LOG_CFG). -/
def State.hostLogSize (s : State) : Nat := 2 ^ (max 6 (min 16 (s.rd F.HDMA_LOG_CFG_SIZE 0)))

/-- One entry written: its SEQ, the circle (R408), the capo summary (R411) and the host mirror (R412). -/
def State.putEnt (s : State) (e0 : LogEnt) : State :=
  let seq := (s.rd F.FLT_LOG_SEQ 0 + 1) % 2 ^ 32
  let e := { e0 with seq }
  let s := s.wr F.FLT_LOG_SEQ 0 seq
  let f := s.flt
  let f := { f with log := tput (fun _ => LogEnt.empty) f.log (seq % 8192) e,
                    sevs := f.sevs.set e.sev ((f.sevs.getD e.sev 0 + 1) % 2 ^ 32) }
  let f := if e.sev = 0 then f
           else { f with capo := tput (fun _ => LogEnt.empty) f.capo f.capoNext e,
                         capoNext := (f.capoNext + 1) % 256 }
  let s := { s with flt := f }
  if s.on F.HDMA_LOG_CFG_EN 0 && s.hostUp then
    let base := s.rd F.HDMA_LOG_BASE_HI 0 * 2 ^ 32 + s.rd F.HDMA_LOG_BASE_LO 0 * 32
    s.hostWrite (base + 32 * (seq % s.hostLogSize)) (toBytes e.bytes)
  else s

/-- The entries of the cycle that ends written in their order (R408). -/
def State.flushLog (s : State) : State :=
  let es := s.flt.cycle.foldl (fun l e => insertEnt e l) []
  es.foldl State.putEnt { s with flt := { s.flt with cycle := [] } }

/-! ### Access to the parts held per channel, lane, octant and so on -/

def State.lane (s : State) (l : Nat) : Lane := tget (fun _ => Lane.reset) s.lanes l
def State.setLane (s : State) (l : Nat) (x : Lane) : State :=
  { s with lanes := tput (fun _ => Lane.reset) s.lanes l x }
def State.modLane (s : State) (l : Nat) (f : Lane → Lane) : State := s.setLane l (f (s.lane l))

def State.framer (s : State) (c : Nat) : Framer := tget (fun _ => Framer.reset) s.framers c
def State.setFramer (s : State) (c : Nat) (x : Framer) : State :=
  { s with framers := tput (fun _ => Framer.reset) s.framers c x }
def State.modFramer (s : State) (c : Nat) (f : Framer → Framer) : State := s.setFramer c (f (s.framer c))

def State.seqOf (s : State) (o : Nat) : Seq := tget (fun _ => Seq.idle) s.eng.seq o
def State.setSeq (s : State) (o : Nat) (x : Seq) : State :=
  { s with eng := { s.eng with seq := tput (fun _ => Seq.idle) s.eng.seq o x } }

/-- The octant of a channel (R8). -/
def octOf (c : Nat) : Nat := c / 8

/-- The role in effect of a channel (CH_ROLE.ROLE_NOW): 0 OFF, 1 HEAD, 2 TERM, 3 CLIENT. -/
def State.role (s : State) (c : Nat) : Nat := s.rd F.CH_ROLE_ROLE_NOW c

/-- Bit i of a number. -/
def bit (v i : Nat) : Bool := v / 2 ^ i % 2 == 1

/-- A number with bit i set or cleared. -/
def putBit (v i : Nat) (b : Bool) : Nat :=
  if bit v i then (if b then v else v - 2 ^ i) else (if b then v + 2 ^ i else v)

/-- The numbers below n whose bit is set. -/
def bitsSet (n v : Nat) : List Nat := (List.range n).filter (bit v)

/-- How many of the bits of a number are set, of the low n. -/
def popCount (n v : Nat) : Nat := (bitsSet n v).length

/-! ### External inputs (R418) -/

def State.inputOf (s : State) (i : Nat) : InSt := tget (fun _ => InSt.reset) s.flt.ins i
def State.setInput (s : State) (i : Nat) (x : InSt) : State :=
  { s with flt := { s.flt with ins := tput (fun _ => InSt.reset) s.flt.ins i x } }

/-- Whether an accepted edge of a 1PPS or TWIN_ALIVE input has still to act. -/
def State.edgeWaits (s : State) (i : Nat) : Bool := (s.inputOf i).acts != 0

/-- The edge that acts taken off. -/
def State.edgeTaken (s : State) (i : Nat) : State :=
  s.setInput i { s.inputOf i with acts := (s.inputOf i).acts - 1 }

end Sys2Proof.Machine
end

