-- ==== Sys2Proof/Machine/Tasks.lean ====
section
/-!
DEFINITION. The task dispatcher's shared operations (12_services): the fields of a task record, the ready lists,
events and their delivery, the examination for preemption, and taking a core out of dispatch.
-/

namespace Sys2Proof.Machine

/-! ### The fields of a task record (Table: Task record, R311), kept in TDS_TASK_W0 to W7 of the record -/

namespace T
def affinity : Fld := ⟨0x90020, 15, 0⟩
def prio : Fld := ⟨0x90020, 20, 16⟩
def state : Fld := ⟨0x90020, 26, 24⟩
def evpend : Fld := ⟨0x90024, 7, 0⟩
def core : Fld := ⟨0x90024, 11, 8⟩
def periodic : Fld := ⟨0x90024, 16, 16⟩
def nopreempt : Fld := ⟨0x90024, 17, 17⟩
def evwake : Fld := ⟨0x90024, 18, 18⟩
def wake : Fld := ⟨0x90028, 31, 0⟩
def period : Fld := ⟨0x9002C, 15, 0⟩
end T

/-- The codes of STATE in a task record. -/
def tsFree : Nat := 0
def tsIdle : Nat := 1
def tsReady : Nat := 2
def tsRunning : Nat := 3
def tsDelayed : Nat := 4
def tsSuspended : Nat := 5

/-- A record of a service extension (R311). -/
def isExt (t : Nat) : Bool := decide (256 ≤ t)

/-- The priority that counts for a record: an extension's acts as at most EXT_PRIO_MAX (R324). -/
def State.taskPrio (s : State) (t : Nat) : Nat :=
  if isExt t then min (s.rd T.prio t) (s.rd F.TDS_CFG_EXT_PRIO_MAX 0) else s.rd T.prio t

/-- The affinity that counts for a record: an extension's is ANDed with EXT_CORES (R324). -/
def State.taskAff (s : State) (t : Nat) : Nat :=
  if isExt t then s.rd T.affinity t &&& s.rd F.TDS_CFG_EXT_CORES 0 else s.rd T.affinity t

/-- Whether a core is in dispatch (R325). -/
def State.coreOnline (s : State) (k : Nat) : Bool := s.on (F.TDS_CORE_STAT_ONLINE k) 0

/-- The cores that may run a task now: its affinity, cores out of dispatch taken as clear (R325). -/
def State.taskCores (s : State) (t : Nat) : List Nat :=
  (bitsSet 16 (s.taskAff t)).filter s.coreOnline

def State.readyList (s : State) (p : Nat) : List Nat := tget (fun _ => []) s.tds.ready p
def State.setReady (s : State) (p : Nat) (l : List Nat) : State :=
  { s with tds := { s.tds with ready := tput (fun _ => []) s.tds.ready p l } }

/-- How many tasks are READY (TDS_READY). -/
def State.readyCount (s : State) : Nat := (s.tds.ready.map (fun e => e.2.length)).sum

/-- A task taken out of the ready lists. -/
def State.unready (s : State) (t : Nat) : State :=
  let ready := (List.range 32).foldl (fun r p =>
    let l := tget (fun _ => []) r p
    if l.contains t then tput (fun _ => []) r p (l.filter (fun x => x != t)) else r) s.tds.ready
  { s with tds := { s.tds with ready := ready } }

/-- The core that a ready task of priority p claims: of the cores it may run on and that no task has claimed, the one whose running
task has the lowest priority below p and may be preempted; among equals the highest core number (R316). -/
def State.victim (s : State) (cores : List Nat) (p : Nat) : Option Nat :=
  cores.foldl (fun best k =>
    let q := s.rd (F.TDS_CORE_STAT_PRIO k) 0
    let nop := s.on T.nopreempt (s.rd (F.TDS_CORE_STAT_TASK k) 0)
    if decide (q < p) && !nop && !s.on (F.TDS_CORE_STAT_PREEMPT k) 0 then
      match best with
      | none => some k
      | some b => if s.rd (F.TDS_CORE_STAT_PRIO b) 0 < q then best else some k
    else best) none

/-- Preemption asked of a core: PREEMPT set, its machine external interrupt raised, the request counted, and the
core counted as running priority p until it next reads TDS_NEXT (R316). -/
def State.claim (s : State) (k p : Nat) : State :=
  (((s.wr (F.TDS_CORE_STAT_PREEMPT k) 0 1).wr (F.TDS_CORE_STAT_PRIO k) 0 p).emit (.coreIrq k)).inc F.TDS_PREEMPTS 0

/-- The dispatcher's examination when a task has become READY (R314, R316): a task without an online core counts
as stranded (R325); with an idle core no preemption follows, and the idle cores of its affinity get their
interrupt; otherwise the lowest preemptible core is claimed. -/
def State.examine (s : State) (t : Nat) : State :=
  let cores := s.taskCores t
  if cores = [] then s.inc F.TDS_STRANDED 0
  else
    let idle := cores.filter (fun k => !s.on (F.TDS_CORE_STAT_RUN k) 0)
    if idle ≠ [] then idle.foldl (fun s k => s.emit (.coreIrq k)) s
    else match s.victim cores (s.taskPrio t) with
      | none => s
      | some k => s.claim k (s.taskPrio t)

/-- A task becomes READY and joins the tail of its level's list (R313), and the dispatcher examines it (R316). -/
def State.makeReady (s : State) (t : Nat) : State :=
  let p := s.taskPrio t
  let s := (s.unready t).wr T.state t tsReady
  (s.setReady p (s.readyList p ++ [t])).examine t

/-- A bound event acts on one task (R320, R318): EVPEND + 1, or the saturation counted; an IDLE task becomes READY, and so does a
DELAYED task with EVWAKE. The tasks that the events of one cycle make READY join in ascending record index (R313), at the end of
their command (`readyAll`). -/
def State.eventTask (s : State) (t : Nat) : State :=
  let s := if s.rd T.evpend t = 255 then s.inc F.TDS_EV_SAT 0 else s.wr T.evpend t (s.rd T.evpend t + 1)
  let st := s.rd T.state t
  if st = tsIdle || (st = tsDelayed && s.on T.evwake t) then
    { s with tds := { s.tds with joins := s.tds.joins.filter (· < t) ++ t :: s.tds.joins.filter (t < ·) } }
  else s

/-- The tasks that the events of the command have made READY join their lists. -/
def State.readyAll (s : State) : State :=
  match s.tds.joins with
  | [] => s
  | ts => ts.foldl State.makeReady { s with tds := { s.tds with joins := [] } }

/-- The tasks that an event number is bound to, each once, in ascending record index (R319). -/
def State.boundTasks (s : State) (ev : Nat) : List Nat :=
  let t0 := s.rd F.TDS_EV_BIND_TASK0 ev
  let t1 := s.rd F.TDS_EV_BIND_TASK1 ev
  let e0 := s.on F.TDS_EV_BIND_EN0 ev
  let e1 := s.on F.TDS_EV_BIND_EN1 ev
  if e0 && e1 then (if t0 = t1 then [t0] else if t0 < t1 then [t0, t1] else [t1, t0])
  else if e0 then [t0] else if e1 then [t1] else []

/-- An event of a class and index raised (R319, R320): it acts on every task bound to it; without a binding it is
counted and discarded. -/
def State.raise (s : State) (cls idx : Nat) : State :=
  match s.boundTasks (64 * cls + idx) with
  | [] => s.inc F.TDS_EV_UNBOUND 0
  | ts => ts.foldl State.eventTask s

/-- A command in progress names its requester; from `unheard` on, one whose copy has been reset since, whose result is discarded
(R426). -/
def unheard : Nat := 32

/-- A requester's commands in progress, whose results are now discarded. -/
def State.orphan (s : State) (req : Nat) : State :=
  let r (q : Nat) : Nat := if q = req then unheard + q else q
  { s with
    eng := { s.eng with
      commits := s.eng.commits.map (fun x => { x with req := r x.req })
      held := s.eng.held.map (fun e => (e.1, { e.2 with reqs := e.2.reqs.map r })) }
    cls := { s.cls with emOps := s.cls.emOps.map (fun o => { o with req := r o.req }) }
    img := { s.img with attQ := s.img.attQ.map r }
    twin := { s.twin with
      switches := s.twin.switches.map (fun x => (x.1, x.2.1, r x.2.2))
      hands := s.twin.hands.map (fun e => (e.1, e.2.map (fun h => { h with req := r h.req }))) } }

/-- The banked copies of a requester reset (R271, R325, R426): its registers and its staging copy take their reset values, and its
commands in progress complete with their results discarded. -/
def State.resetBank (s : State) (req : Nat) : State :=
  let mine (k : Nat) : Bool :=
    match findRow (k % 0x100000) with
    | some r => (r.bank == .req && decide (k / 0x100000 = req)) ||
        (r.bank == .reqChan && decide (k / 0x100000 / 64 = req))
    | none => false
  let s := { s with
    eff := s.eff.filter (fun e => !mine e.1)
    shd := s.shd.filter (fun e => !mine e.1)
    cls := { s.cls with stage := s.cls.stage.filter (fun e => e.1 != req) } }
  s.orphan req

/-- A core that has yielded while out of dispatch is reset (R325). -/
def State.coreReset (s : State) (k : Nat) : State :=
  ((((s.resetBank (k + 1)).wr (F.TDS_CORE_STAT_RUN k) 0 0).wr (F.TDS_CORE_STAT_PREEMPT k) 0 0).wr
    (F.TDS_CORE_STAT_PRIO k) 0 0).emit (.coreReset k)

/-- OFFLINE set on a core (R325): out of dispatch; preemption is asked of the task that runs there, and a core
with nothing running is reset at once; each READY task left without an online core counts as stranded. -/
def State.offlineCore (s : State) (k : Nat) : State :=
  if !s.coreOnline k then s.wr (F.TDS_CORE_CTL k) 0 1
  else
    let before := s
    let s := (s.wr (F.TDS_CORE_CTL k) 0 1).wr (F.TDS_CORE_STAT_ONLINE k) 0 0
    let s := if s.on (F.TDS_CORE_STAT_RUN k) 0 then
        (if s.on (F.TDS_CORE_STAT_PREEMPT k) 0 then s
         else ((s.wr (F.TDS_CORE_STAT_PREEMPT k) 0 1).emit (.coreIrq k)).inc F.TDS_PREEMPTS 0)
      else s.coreReset k
    let waiting := (s.tds.ready.map (·.2)).flatten
    waiting.foldl (fun s t => if s.taskCores t = [] && before.taskCores t ≠ [] then s.inc F.TDS_STRANDED 0 else s) s

/-- OFFLINE cleared on a core: it is in dispatch again (R325). -/
def State.onlineCore (s : State) (k : Nat) : State :=
  (s.wr (F.TDS_CORE_CTL k) 0 0).wr (F.TDS_CORE_STAT_ONLINE k) 0 1

end Sys2Proof.Machine
end

