-- ==== Sys2Proof/Machine/PegOps.lean ====
section
/-!
DEFINITION. Pegs, shared operations (09_pegs): running the clocks on, sets and steps (R240), the servo (R243 to
R246), lane latencies (R248), and stamp records (R255).
-/

namespace Sys2Proof.Machine

/-- The difference of two times modulo 2^64, as a two's-complement number. -/
def diff64 (a b : Nat) : Int :=
  let d : Nat := (a % 2 ^ 64 + 2 ^ 64 - b % 2 ^ 64) % 2 ^ 64
  if d < 2 ^ 63 then (d : Int) else (d : Int) - 2 ^ 64

/-- One second, one nanosecond, and 1/16 ns in units of 2^-48 ns. -/
def unitNs : Nat := 2 ^ 48
def unitSec : Nat := 10 ^ 9 * unitNs
def unit16 : Nat := 2 ^ 44

/-- Where a peg's 48 bits of seconds wrap (R237). -/
def pegWrap : Nat := 2 ^ 48 * unitSec

/-- 16 µs in units of 2^-48 ns. -/
def unitTick : Nat := 16000 * unitNs

def State.servoOf (s : State) (p : Nat) : Servo := tget (fun _ => Servo.reset) s.pegs.servo p
def State.setServo (s : State) (p : Nat) (x : Servo) : State :=
  { s with pegs := { s.pegs with servo := tput (fun _ => Servo.reset) s.pegs.servo p x } }
def State.modServo (s : State) (p : Nat) (f : Servo → Servo) : State := s.setServo p (f (s.servoOf p))

def State.setPegTime (s : State) (p t : Nat) : State :=
  { s with pegs := { s.pegs with time := tput (fun _ => 0) s.pegs.time p t } }

/-- The largest magnitude of RATE, ±100 ppm (R238). -/
def rateMax : Int := 1759218604

def clampInt (lo hi v : Int) : Int := if v < lo then lo else if hi < v then hi else v

/-- RATE of a peg in effect. -/
def State.rate (s : State) (p : Nat) : Int := clampInt (-rateMax) rateMax (s.rdInt F.PEG_RATE_NOW p)

/-- What a peg adds to its time in one device cycle: 0.5 ns × (1 + RATE × 2^-44), exact in units of 2^-48 ns
(R238). -/
def State.pegInc (s : State) (p : Nat) : Nat := ((2 ^ 47 : Int) + 8 * s.rate p).toNat

/-- n device cycles pass (R238): every peg runs on. -/
def State.runCycles (s : State) (n : Nat) : State :=
  { s with pegs := { s.pegs with
      cyc := s.pegs.cyc + n,
      time := (List.range 16).foldl (fun t p =>
        tput (fun _ => 0) t p ((tget (fun _ => 0) t p + n * s.pegInc p) % pegWrap)) s.pegs.time } }

/-- The device cycles until peg 0 reaches a time; none have to pass where it has been reached. -/
def State.cyclesTo (s : State) (t : Nat) : Nat := ceilDiv (t - s.pegTime 0) (s.pegInc 0)

/-- The clocks run on to the instant at which peg 0 reaches a time. -/
def State.runTo (s : State) (t : Nat) : State := s.runCycles (s.cyclesTo t)

/-! ### Time in registers -/

/-- Seconds, nanoseconds and the 16-bit fraction of a peg time (R237). -/
def pegSec (t : Nat) : Nat := t / unitSec
def pegNs (t : Nat) : Nat := t % unitSec / unitNs
def pegFrac (t : Nat) : Nat := t % unitNs / 2 ^ 32

/-- A peg counts as locked (Table: Servo states), shown in TMV. -/
def State.pegLocked (s : State) (p : Nat) : Bool :=
  let st := s.rd F.PEG_SRV_STAT_STATE p
  st == 2 || (st == 0 && s.on F.PEG_SRV_CFG_FREE_LOCKED p)

/-- The codes of PEG_SRV_STAT.STATE. -/
def svFree : Nat := 0
def svAcquire : Nat := 1
def svLocked : Nat := 2
def svHoldover : Nat := 3

def State.ppsOut (s : State) (o : Nat) : PpsOut := tget (fun _ => PpsOut.reset) s.pegs.ppsOut o
def State.setPpsOut (s : State) (o : Nat) (x : PpsOut) : State :=
  { s with pegs := { s.pegs with ppsOut := tput (fun _ => PpsOut.reset) s.pegs.ppsOut o x } }

/-- Whether SQUELCH holds a 1PPS output deasserted (R258). -/
def State.squelched (s : State) (o : Nat) : Bool :=
  let p := s.rd (F.PEG_PPSOUT_CFG_PEG o) 0
  let lk := s.pegLocked p
  match s.rd (F.PEG_PPSOUT_CFG_SQUELCH o) 0 with
  | 0 => false
  | 2 => !(lk || s.rd F.PEG_SRV_STAT_STATE p == svHoldover)
  | _ => !lk

/-- A 1PPS output driven to a level. -/
def State.ppsDrive (s : State) (o : Nat) (active : Bool) : State :=
  (s.setPpsOut o { s.ppsOut o with high := active }).emit (.ppsOut o (active != s.on (F.PEG_PPSOUT_CFG_POL o) 0))

/-- The 1PPS outputs that SQUELCH holds deasserted, or that are no longer driven, deasserted (R258). -/
def State.holdPps (s : State) : State :=
  [0, 1].foldl (fun s o =>
    if (s.ppsOut o).high && (!s.on (F.PEG_PPSOUT_CFG_EN o) 0 || s.squelched o) then s.ppsDrive o false else s) s

def State.showTmv (s : State) (p : Nat) : State := (s.wrB F.PEG_SRV_STAT_TMV p (s.pegLocked p)).holdPps

/-- A servo moves to a state; every change writes an entry and raises the event (R246). -/
def State.servoState (s : State) (p st : Nat) : State :=
  let old := s.rd F.PEG_SRV_STAT_STATE p
  let s := (s.wr F.PEG_SRV_STAT_STATE p st).showTmv p
  if old = st then s else (s.log 0x0302 engineReq p [old, st]).raise 10 p

/-- The sources of Table: Servo sources. -/
def srcTree : Nat := 1
def srcPps : Nat := 2
def srcFw : Nat := 3
def srcPeg : Nat := 4

/-- The source a peg's servo uses: NONE where the servo is off, the source is refused or no source is named. -/
def State.source (s : State) (p : Nat) : Nat :=
  let c := s.rd F.PEG_SRV_CFG_SOURCE p
  if !s.on F.PEG_SRV_CFG_EN p || s.on F.PEG_SRV_STAT_SRC_ERR p || 4 < c then 0 else c

/-- Where following PEG sources from a peg leads after n moves; none where it leaves PEG sources. -/
def State.chase (s : State) : Nat → Nat → Option Nat
  | 0, p => some p
  | n + 1, p =>
    if s.rd F.PEG_SRV_CFG_SOURCE p = srcPeg && decide (s.rd F.PEG_SRV_CFG_SRC_IDX p < 16)
    then s.chase n (s.rd F.PEG_SRV_CFG_SRC_IDX p) else none

/-- Whether the engine refuses a peg's source (R245). -/
def State.sourceRefused (s : State) (p : Nat) : Bool :=
  let c := s.rd F.PEG_SRV_CFG_SOURCE p
  let i := s.rd F.PEG_SRV_CFG_SRC_IDX p
  if c = srcPeg then decide (15 < i) || i == p || (List.range 16).any (fun n => s.chase (n + 1) p == some p)
  else if c = srcPps then decide (1 < i)
  else if c = srcTree then s.rd F.CH_PEG i != p
  else false

/-- A sample for a peg's servo (R244): the run of the next boundary uses the latest. -/
def State.giveSample (s : State) (p : Nat) (theta : Int) : State :=
  s.modServo p (fun x => { x with sample := some theta })

/-- A set or step requested (R240): a second one before the boundary replaces the first and is counted. -/
def State.requestPeg (s : State) (p : Nat) (r : PegReq) : State :=
  let s := if (s.servoOf p).req.isSome then s.inc F.PEG_SRV_STEPS p else s
  s.modServo p (fun x => { x with req := some r })

/-- The size of a pending set or step at this moment, in units of 2^-48 ns (R240). -/
def State.stepSize (s : State) (p : Nat) : Option Int :=
  (s.servoOf p).req.map (fun r => match r with
    | .set t => (t : Int) - (s.pegTime p : Int)
    | .step d => d)

/-- A size in 1/16 ns, rounded towards zero. -/
def to16 (d : Int) : Int := if 0 ≤ d then d / (unit16 : Int) else -((-d) / (unit16 : Int))

/-- A pending set or step of a peg applied as a step (R240): the time moves, the entry is written, the step is
counted, and a servo with a source goes back to ACQUIRE. Steps of peg 0 are kept for residence times (R252). -/
def State.applyStep (s : State) (p : Nat) : State :=
  match s.stepSize p with
  | none => s.modServo p (fun x => { x with stepped := false })
  | some d =>
    let s := s.setPegTime p (((s.pegTime p : Int) + d) % (pegWrap : Int)).toNat
    let s := (s.log 0x0301 engineReq p (bytesLE 8 (codeInt 64 (to16 d)))).inc F.PEG_SRV_STEPS p
    let s := s.modServo p (fun x => { x with req := none, stepped := true, lockRun := 0 })
    let s := if p = 0 then { s with pegs := { s.pegs with steps := ((s.pegs.cyc, to16 d) :: s.pegs.steps).take 16 } }
      else s
    if s.source p = 0 then s else s.servoState p svAcquire

/-- The sample that a PEG source gives at a boundary (Table: Servo sources). -/
def State.pegSample (s : State) (p : Nat) : Option Int :=
  if s.source p = srcPeg then
    some (((s.pegTime p : Int) - (s.pegTime (s.rd F.PEG_SRV_CFG_SRC_IDX p) : Int)) / (unit16 : Int))
  else (s.servoOf p).sample

/-- RATE from a rate in units of 2^-20 ppb (R243). -/
def ratOfPpb (r : Int) : Int := clampInt (-rateMax) rateMax (roundDiv (r * 2 ^ 24) (10 ^ 9))

/-- The servo's run on a sample (R243). -/
def State.servoSample (s : State) (p : Nat) (theta : Int) : State :=
  let x := s.servoOf p
  let s := (s.inc F.PEG_SRV_SAMPLES p).wr F.PEG_SRV_LAST p (codeInt 32 (satInt 32 theta))
  let wasHold := s.rd F.PEG_SRV_STAT_STATE p = svHoldover
  let lockN := max 1 (s.rd F.PEG_SRV_CFG_LOCK_N p)
  if s.on F.PEG_SRV_CFG_STEP_EN p && decide (16 * s.rd F.PEG_SRV_THR_STEP_THR p < theta.natAbs) then
    let s := s.modServo p (fun x => { x with sample := none, age := 0, lockRun := 0 })
    (s.requestPeg p (.step (-(theta * (unit16 : Int))))).servoState p svAcquire
  else
    let lim : Int := 100000 * 2 ^ 20
    let integ := clampInt (-lim) lim (x.integ + (s.rd F.PEG_SRV_KI p : Int) * theta)
    let prop : Int := if x.stepped then 0 else (s.rd F.PEG_SRV_KP p : Int) * theta
    let rate := ratOfPpb (clampInt (-lim) lim (-prop - integ))
    let good := decide (theta.natAbs ≤ 16 * s.rd F.PEG_SRV_THR_LOCK_THR p)
    let lockRun := if good then x.lockRun + 1 else 0
    let unlockRun := if good then 0 else x.unlockRun + 1
    let s := s.setServo p { x with integ, next := some rate, sample := none, age := 0, lockRun, unlockRun }
    let s := s.wr F.PEG_SRV_INTEG p (codeInt 32 (roundDiv (integ * 2 ^ 24) (10 ^ 9)))
    let s := if wasHold then s.servoState p svAcquire else s
    let s := if lockN ≤ lockRun then s.servoState p svLocked else s
    if s.rd F.PEG_SRV_STAT_STATE p = svLocked && decide (lockN ≤ unlockRun) then s.servoState p svAcquire else s

/-- The servo of a peg runs once in the core tick's device-level work (R243): without a new sample it changes
nothing but the age of the last one. -/
def State.servoRun (s : State) (p : Nat) : State :=
  if s.source p = 0 then s
  else match s.pegSample p with
    | none => s.modServo p (fun x => { x with age := x.age + 1 })
    | some theta => s.servoSample p theta

/-- The rate of the last run comes into effect at the next boundary (R238); with the servo off, or without a
source, RATE is PEG_RATE_SET (R238, R246). -/
def State.applyRate (s : State) (p : Nat) : State :=
  if s.source p = 0 then
    s.wr F.PEG_RATE_NOW p (codeInt 32 (clampInt (-rateMax) rateMax (s.rdInt F.PEG_RATE_SET p)))
  else match (s.servoOf p).next with
    | none => s
    | some r => (s.wr F.PEG_RATE_NOW p (codeInt 32 r)).modServo p (fun x => { x with next := none })

/-- What a commit of the device scope does to a servo (R244 to R246): the sources are checked, a servo without a
source is FREE, a changed source or a servo newly on is in ACQUIRE, and a changed rate acts at once. -/
def State.servoCommit (s old : State) (p : Nat) : State :=
  let s := s.wrB F.PEG_SRV_STAT_SRC_ERR p (s.sourceRefused p)
  let changed := s.rd F.PEG_SRV_CFG_SOURCE p != old.rd F.PEG_SRV_CFG_SOURCE p ||
    s.rd F.PEG_SRV_CFG_SRC_IDX p != old.rd F.PEG_SRV_CFG_SRC_IDX p
  let s := if s.source p = 0 then (s.modServo p (fun x => { x with sample := none, next := none })).servoState p svFree
    else if changed || s.rd F.PEG_SRV_STAT_STATE p = svFree then
      (s.modServo p (fun x => { x with lockRun := 0, age := 0 })).servoState p svAcquire
    else s
  (s.applyRate p).showTmv p

/-! ### Lane latency and stamps (R247, R248) -/

/-- The last junction temperature read for an octant. Before the first reading, the reset value of T_REF. -/
def State.octTemp (s : State) (o : Nat) : Int := tget (fun _ => 85) s.pegs.temp o

/-- The lane latency of a channel in 1/16 ns (R248). -/
def State.latency (s : State) (c : Nat) (tx : Bool) : Int :=
  let lat := if tx then s.rd F.CH_STAMP_TX c else s.rd F.CH_STAMP_RX c
  let coef := if tx then s.rdInt F.CH_STAMP_TC_COEF_TX c else s.rdInt F.CH_STAMP_TC_COEF_RX c
  (lat : Int) + roundDiv (coef * (s.octTemp (octOf c) - s.rdInt F.CH_STAMP_TC_T_REF c) * 16) 1000

/-- A time in 1/16 ns moved by a number of 1/16 ns, not below 0. -/
def shift16 (t : Nat) (d : Int) : Nat := ((t : Int) + d).toNat

/-- The corrected receive stamp in peg 0 of an event at a channel's lane, `ago` sixteenths of a nanosecond ago (R247, R248). -/
def State.rxStamp (s : State) (c ago : Nat) : Nat := shift16 s.now16 (-(s.latency c false) - ago)

/-- The peg bound to a channel (R242). -/
def State.boundPeg (s : State) (c : Nat) : Nat := s.rd F.CH_PEG c

/-- The time of a channel's bound peg now, in 1/16 ns. -/
def State.bound16 (s : State) (c : Nat) : Nat := s.pegTime (s.boundPeg c) / unit16

/-- The corrected receive stamp of such an event in the channel's bound peg. -/
def State.rxBound (s : State) (c ago : Nat) : Nat := shift16 (s.bound16 c) (-(s.latency c false) - ago)

def State.stqOf (s : State) (c : Nat) : List (List Byte) := tget (fun _ => []) s.pegs.stq c
def State.setStq (s : State) (c : Nat) (q : List (List Byte)) : State :=
  { s with pegs := { s.pegs with stq := tput (fun _ => []) s.pegs.stq c q } }

/-- A stamp record for a qualifying message (R255, R256): SEQ counts it whether or not the queue has room. The
stamp is in the bound peg, in 1/16 ns; the PTP header starts at `ofs` of the frame. -/
def State.stampRecord (s : State) (c : Nat) (stamp : Nat) (tx tc : Bool) (added : Nat) (frame : List Byte) (ofs : Nat) :
    State :=
  let seq := s.rd F.CH_STQ_CTL_NEXT_SEQ c
  let s := s.wr F.CH_STQ_CTL_NEXT_SEQ c ((seq + 1) % 65536)
  if 64 ≤ (s.stqOf c).length then s.inc F.CH_STQ_OVF c
  else
    let sec := stamp / (16 * 10 ^ 9)
    let ns := stamp % (16 * 10 ^ 9) / 16
    let flags := stamp % 16 + (if tx then 16 else 0) + (if tc then 32 else 0)
    let rec8 := bytesLE 6 sec ++ bytesLE 4 ns ++ [flags, s.boundPeg c] ++ bytesLE 2 seq ++
      [byteAt frame ofs % 16, byteAt frame (ofs + 4)] ++ bytesLE 2 (fieldBE frame (ofs + 30) 2)
    let r := toBytes rec8 ++ slice frame (ofs + 20) 10 ++ toBytes (bytesLE 4 (min added (2 ^ 32 - 1)))
    (s.setStq c (s.stqOf c ++ [r])).raise 4 c

end Sys2Proof.Machine
end

