-- ==== Sys2Proof/Machine/Faults.lean ====
section
/-!
DEFINITION. Watched faults (16_faults_test): events and their windows (R400 to R403), actions (R404, R405), the fault
output (R406), and what the actions act on: Surok lanes out of service (R330), the map-out of a device (R305),
valid pairs (R337).
-/

namespace Sys2Proof.Machine

/-! ### What the actions act on -/

/-- A write of TWN_LANES.OUT (R330): ignored where it would set more than 2 bits. -/
def State.lanesOut (s : State) (out : Nat) : State :=
  if 2 < popCount 8 out then s.wr F.TWN_LANES_REFUSED 0 1
  else (s.wr F.TWN_LANES_OUT 0 out).wr F.TWN_LANES_REFUSED 0 0

/-- The codes of MEM_MAPOUT.STATE (Table: Map-out states). -/
def moIn : Nat := 0
def moDrain : Nat := 1
def moCopy : Nat := 2
def moOut : Nat := 3
def moTrain : Nat := 4
def moReturn : Nat := 5

/-- MEM_MAPOUT.GO_OUT with DEV = d (R305): accepted only while STATE is IN, else ignored but for REFUSED. -/
def State.mapOut (s : State) (d : Nat) : State :=
  if s.rd F.MEM_MAPOUT_STATE 0 = moIn then
    let s := ((s.wr F.MEM_MAPOUT_STATE 0 moDrain).wr F.MEM_MAPOUT_DEV 0 d).wr F.MEM_MAPOUT_REFUSED 0 0
    { s with mem := { s.mem with mdev := d } }
  else s.wr F.MEM_MAPOUT_REFUSED 0 1

/-- Engine A, B, or neither, by the strap (R326): 1 A, 2 B, 0 unpaired. -/
def State.strap (s : State) : Nat :=
  let v := s.rd F.TWN_STAT_STRAP 0
  if v = 1 || v = 2 then v else 0

/-- Whether the engine is paired. -/
def State.paired (s : State) : Bool := s.strap != 0

/-- Whether the pair of a channel is valid (R337). The partner counts as unpaired once its bridges say so. -/
def State.pairValid (s : State) (c : Nat) : Bool :=
  s.paired && s.on (F.TWN_PAIR_VALID c) 0 && (s.role c == 1 || s.role c == 2) &&
    (match s.twin.pstrap with | none => true | some v => v == 1 || v == 2)

/-- Whether a channel is ACTIVE; one whose pair is not valid reads ACTIVE (R337). -/
def State.pairActive (s : State) (c : Nat) : Bool := !s.pairValid c || s.on (F.TWN_PAIR_STATE c) 0

/-! ### Windows -/

/-- The watched sources by number (Table: Watched sources). -/
def fsCorr : Nat := 0
def fsUnc : Nat := 1
def fsTickOvr : Nat := 2
def fsLockLoss : Nat := 3
def fsSfSet : Nat := 4
def fsSurok : Nat := 5
def fsMemCorr : Nat := 6
def fsMemUnc : Nat := 7
def fsMemRetrain : Nat := 8
def fsCoreFault : Nat := 9
def fsPreemptLate : Nat := 10
def fsRestore : Nat := 11
def fsFeed : Nat := 12
def fsInput : Nat := 13
def fsRingErr : Nat := 14
def fsDevTick : Nat := 15

def State.watchOf (s : State) (src inst : Nat) : Watch := tget (fun _ => Watch.none) s.flt.watch (256 * src + inst)

def State.setWatch (s : State) (src inst : Nat) (w : Watch) : State :=
  { s with flt := { s.flt with watch := tput (fun _ => Watch.none) s.flt.watch (256 * src + inst) w } }

/-- N of a source, held to 1 to 64 (FLT_SRC_N). -/
def State.srcN (s : State) (src : Nat) : Nat := max 1 (min 64 (s.rd F.FLT_SRC_N src))

/-- W of a source; 0 acts as 1 (FLT_SRC_W). -/
def State.srcW (s : State) (src : Nat) : Nat := max 1 (s.rd F.FLT_SRC_W src)

/-- Whether an event's core tick lies within the last W ticks (R400, R402). -/
def State.within (s : State) (src t : Nat) : Bool := decide (s.eng.tick < t + s.srcW src)

/-- FLT_INST_STAT.WCOUNT of an instance (R401). -/
def State.wcount (s : State) (src inst : Nat) : Nat :=
  min 64 ((s.watchOf src inst).ticks.filter (s.within src)).length

/-- The instance number that an entry of the event log names: for FS_CORR the octant (R405). -/
def entryInst (src inst : Nat) : Nat := if src = fsCorr then inst / 32 else inst

/-! ### The fault output (R406) -/

/-- Whether an instance of a source is lasting (FLT_LASTING). -/
def State.srcLasting (s : State) (src : Nat) : Bool :=
  s.flt.watch.any (fun e => e.1 / 256 == src && e.2.lasting)

/-- FLT_FOUT.CAUSE: the first cause that holds. PHASE 6 is MEM_FAIL and 5 NO_IMAGE. -/
def State.foutCause (s : State) : Nat :=
  if (List.range 16).any (fun src => s.on F.FLT_SRC_CFG_FOUT src && s.srcLasting src) then 1
  else if s.on F.FLT_FOUT_FORCE 0 then 2
  else if s.rd F.IMG_STAT_PHASE 0 = 6 then 3
  else if s.rd F.IMG_STAT_PHASE 0 = 5 then 4
  else if s.pwr.gasped then 5
  else 0

/-- Whether the fault output is asserted. -/
def State.fout (s : State) : Bool := s.foutCause != 0

/-! ### Actions (R404) -/

/-- Whether a frame-store cell is in use (R186); the 98,304 of octant o begin at 98,304 * o. -/
def State.fsCellUsed (s : State) (n : Nat) : Bool := tget (fun _ => false) s.store.fsUsed n

/-- Whether the row of a frame-store cell, one of 16 cells, has been retired (R405). -/
def State.fsCellRetired (s : State) (n : Nat) : Bool := tget (fun _ => false) s.flt.rows (8192 * (n / 98304) + n % 98304 / 16)

/-- A row of an octant's slice retired (R405): unless 256 are. A row retired before counts no second time. Its free cells leave the
free list now, those in use as their frames are released (R187). -/
def State.retireRow (s : State) (o row : Nat) : State × Bool :=
  if tget (fun _ => false) s.flt.rows (8192 * o + row) then (s, true)
  else if 256 ≤ s.rd F.OCT_FLT_ROWS_RETIRED o then (s, false)
  else
    let s := { s with flt := { s.flt with rows := tput (fun _ => false) s.flt.rows (8192 * o + row) true } }
    let free := ((List.range 16).filter (fun i => !s.fsCellUsed (98304 * o + 16 * row + i))).length
    (((s.wr F.OCT_FLT_ROWS_LAST o row).inc F.OCT_FLT_ROWS_RETIRED o).addN F.OCT_STORE_RETIRED o free, true)

/-- The action of a source applied to an instance, and whether it could be (Table: Fault actions). -/
def State.applyAction (s : State) (src inst action : Nat) : State × Bool :=
  if action = 1 then
    if src = fsCorr then s.retireRow (inst / 32) (s.watchOf src inst).row
    else if src = fsMemCorr || src = fsMemUnc || src = fsMemRetrain then
      (s.mapOut (inst / 4), s.rd F.MEM_MAPOUT_STATE 0 == moIn)
    else (s, false)
  else if action = 2 then
    if src = fsLockLoss || src = fsSfSet then (s, true)
    else if src = fsSurok then
      let out := putBit (s.rd F.TWN_LANES_OUT 0) inst true
      if popCount 8 out ≤ 2 then (s.lanesOut out, true) else (s, false)
    else if src = fsCoreFault || src = fsPreemptLate then (s.offlineCore inst, true)
    else (s, false)
  else if action = 3 then (s, (src == fsLockLoss || src == fsSfSet) && s.pairValid inst)
  else (s, true)

/-- LASTING_BEGIN (R404): the action, its entry, event 7/0 and the lasting-fault vector. -/
def State.lastingBegin (s : State) (src inst : Nat) : State :=
  let action := s.rd F.FLT_SRC_CFG_ACTION src
  let wc := s.wcount src inst
  let r := s.applyAction src inst action
  let s := r.1
  let w := s.watchOf src inst
  let place := r.2 && (action == 1 || action == 2)
  let s := s.setWatch src inst { w with lasting := true, noeffect := !r.2, effect := w.effect || place,
                                        act := if r.2 then action else 0 }
  let s := s.log 0x0C01 engineReq (entryInst src inst)
    ([src, wc, action, if r.2 then 0 else 1] ++ (if src = fsCorr then bytesLE 2 w.row else []))
  let s := s.raise 7 0
  if s.on F.HDMA_VEC_MISC_FAULT_EN 0 then s.msix (s.rd F.HDMA_VEC_MISC_FAULT 0) else s

/-- An event put into the window of an instance; the N-th most recent event, this one included, within W makes it
lasting (R400). -/
def State.countEvent (s : State) (src inst : Nat) : State :=
  let w := s.watchOf src inst
  let n := s.srcN src
  let ticks := (s.eng.tick :: w.ticks).take n
  let s := s.setWatch src inst { w with ticks }
  if !w.lasting && (match ticks[n - 1]? with | some t => s.within src t | none => false)
  then s.lastingBegin src inst else s

/-- An event of a watched source at an instance (R400, R401, R403). -/
def State.watch (s : State) (src inst : Nat) : State :=
  let s := s.inc F.FLT_INST_TOTAL (256 * src + inst)
  if s.on F.FLT_SRC_CFG_EN src then s.countEvent src inst else s

/-- The tracker entry that takes an untracked row (R405): a free one, else of those not lasting the one whose newest
event is oldest; none where every entry is lasting. -/
def State.trackerFor (s : State) (o : Nat) : Option Nat :=
  let es := (List.range 32).map (fun i => 32 * o + i)
  match es.find? (fun i => !(s.watchOf fsCorr i).tracked) with
  | some i => some i
  | none => (es.filter (fun i => !(s.watchOf fsCorr i).lasting)).foldl (fun best i =>
      match best with
      | none => some i
      | some b => if (s.watchOf fsCorr i).ticks.headD 0 < (s.watchOf fsCorr b).ticks.headD 0 then some i else some b)
      none

/-- A corrected frame-store word of a row of an octant's slice (R187, R405). FLT_INST_TOTAL counts the octant. -/
def State.watchRow (s : State) (o row : Nat) : State :=
  let s := s.inc F.FLT_INST_TOTAL (32 * o)
  if !s.on F.FLT_SRC_CFG_EN fsCorr then s
  else
    let es := (List.range 32).map (fun i => 32 * o + i)
    match es.find? (fun i => (s.watchOf fsCorr i).tracked && (s.watchOf fsCorr i).row == row) with
    | some i => s.countEvent fsCorr i
    | none => match s.trackerFor o with
      | none => s
      | some i =>
        let s := if (s.watchOf fsCorr i).tracked then s.inc F.OCT_FLT_EVICT o else s
        (s.setWatch fsCorr i { Watch.none with row := row, tracked := true }).countEvent fsCorr i

/-- A lasting state ends (R402): ALARM and PROTECT with it, RETIRE and ISOLATE stay; the tracker entry of a row is
freed (R405). -/
def State.lastingEnd (s : State) (req src inst : Nat) : State :=
  let w := s.watchOf src inst
  if !w.lasting then s
  else
    let s := if src = fsCorr then s.setWatch src inst Watch.none
      else s.setWatch src inst { w with lasting := false, act := 0 }
    s.log 0x0C02 req (entryInst src inst) [src]

/-- FLT_INST_CTL.CLEAR (R403, R405): the history emptied, a lasting state ended, a row's entry freed. -/
def State.clearInst (s : State) (req src inst : Nat) : State :=
  let s := s.lastingEnd req src inst
  if src = fsCorr then s.setWatch src inst Watch.none
  else s.setWatch src inst { s.watchOf src inst with ticks := [] }

/-- The effects reversed of some sources at an instance (Table: Fault actions, Reversed by). -/
def State.endEffect (s : State) (srcs : List Nat) (inst : Nat) : State :=
  srcs.foldl (fun s src => s.setWatch src inst { s.watchOf src inst with effect := false }) s

/-- Whether the ISOLATE action holds a channel's transmitter at electrical idle. -/
def State.isolated (s : State) (c : Nat) : Bool :=
  (s.watchOf fsLockLoss c).effect || (s.watchOf fsSfSet c).effect

/-- Whether PROTECT makes a channel's local request SF (Table: Fault actions). -/
def State.protectSf (s : State) (c : Nat) : Bool :=
  let w (src : Nat) := s.watchOf src c
  ((w fsLockLoss).lasting && (w fsLockLoss).act == 3) || ((w fsSfSet).lasting && (w fsSfSet).act == 3)

/-- Whether a channel's transmitter is at electrical idle, with BURST_EN deasserted (R49): squelched, STANDBY
(R338), or isolated (R404). Self-fencing sets the pair STANDBY (R334). -/
def State.txIdle (s : State) (c : Nat) : Bool :=
  s.on F.CH_LANE_CFG_TX_SQUELCH c || !s.pairActive c || s.isolated c

end Sys2Proof.Machine
end

