-- ==== Sys2Proof/Machine/DeepOps.lean ====
section
/-!
DEFINITION. The deep store, shared operations (11_deep_store): addresses (R286, R287), the layout of a frame in deep
cells (R192), allocation outside what a map-out closes (R306), and requests to the controllers (R288).
-/

namespace Sys2Proof.Machine

def State.mch (s : State) (m : Nat) : MCh := tget (fun _ => MCh.reset) s.mem.chans m
def State.setMch (s : State) (m : Nat) (x : MCh) : State :=
  { s with mem := { s.mem with chans := tput (fun _ => MCh.reset) s.mem.chans m x } }
def State.modMch (s : State) (m : Nat) (f : MCh → MCh) : State := s.setMch m (f (s.mch m))

def State.deepFr (s : State) (id : Nat) : DeepFr := tget (fun _ => DeepFr.none) s.mem.deep id
def State.setDeepFr (s : State) (id : Nat) (x : DeepFr) : State :=
  { s with mem := { s.mem with deep := tput (fun _ => DeepFr.none) s.mem.deep id x } }
def State.modDeepFr (s : State) (id : Nat) (f : DeepFr → DeepFr) : State := s.setDeepFr id (f (s.deepFr id))

/-! ### Frame-store cells (R186, R187) -/

/-- The next n free cells of an octant's slice from cell i on, round the slice. -/
def State.fsFrom (s : State) (o : Nat) : Nat → Nat → Nat → List Nat
  | 0, _, _ => []
  | fuel + 1, n, i =>
    let x := 98304 * o + i
    if n = 0 then []
    else if s.fsCellUsed x || s.fsCellRetired x then s.fsFrom o fuel n ((i + 1) % 98304)
    else x :: s.fsFrom o fuel (n - 1) ((i + 1) % 98304)

/-- Some cells of a slice taken from its free list; which, the spec does not say (a free value, log entry 3). -/
def State.allocFs (s : State) (o n : Nat) : List Nat × State :=
  let v := s.takeFree
  let xs := v.2.fsFrom o (n + v.2.store.fsUsed.length + 16 * v.2.flt.rows.length) n (v.1 % 98304)
  (xs, { v.2 with store := { v.2.store with fsUsed := xs.foldl (fun t x => tput (fun _ => false) t x true) v.2.store.fsUsed } })

/-- Cells of a slice released: back on the free list, but for those of a retired row, which leave it now (R187). -/
def State.freeFs (s : State) (xs : List Nat) : State :=
  let s := { s with store := { s.store with fsUsed := s.store.fsUsed.filter (fun e => !xs.contains e.1) } }
  (xs.filter s.fsCellRetired).foldl (fun s x => s.inc F.OCT_STORE_RETIRED (x / 98304)) s

/-- The side link words of a frame's cells (R186): LAST in bit 31, else the next cell. -/
def linkWords : List Nat → List (Nat × Nat)
  | [] => []
  | [x] => [(x, 2 ^ 31)]
  | x :: y :: l => (x, y) :: linkWords (y :: l)

/-! ### The descriptor (R188) -/

/-- The frame descriptor of a frame of some bytes whose first cell is `loc` (Table: Frame descriptor). -/
def QFrame.descriptor (x : QFrame) (bytes loc : Nat) : List Byte :=
  let b (v : Bool) (n : Nat) : Nat := if v then n else 0
  toBytes (bytesLE 8 x.f.stamp ++ bytesLE 4 (b (x.deep != 0) (2 ^ 31) + loc % 2 ^ 28) ++
    bytesLE 2 (bytes % 16384 + x.dp % 4 * 16384) ++
    [x.kind % 8 + b x.restaged 8 + b x.late 16 + b x.expired 32, x.tid % 32 + b x.bc 32 + b x.prot 64 + b x.f.fcsNew 128] ++
    bytesLE 2 (x.dest % 4096 + (if x.kind = 1 then x.dest % 64 / 8 * 4096 else 0)) ++
    [x.f.entry % 64 + x.f.src % 4 * 64, x.f.kchord % 32 + b x.f.kv 32 + b (bit x.f.kflags 2) 64 + b (bit x.f.kflags 1) 128] ++
    bytesLE 5 x.f.korigin ++ [x.member % 8] ++ List.replicate 6 0)

/-! ### Addresses -/

/-- The cells of the frame area, and those that remain while a device is mapped out (R191). -/
def frameArea : Nat := 264241152
def frameAreaOut : Nat := 247463936

/-- Row, bank and column cell of a local cell under an ORDER (Table: Address orders). -/
def cellPlace (order l : Nat) : Nat × Nat × Nat :=
  if order = 1 then (l / 128, l / 8 % 16, l % 8)
  else if order = 2 then (l / 8 % 32768, l / 2 ^ 18 % 16, l % 8)
  else (l / 128, (l / 8 % 16) ^^^ (l / 128 % 16) ^^^ (l / 2048 % 16), l % 8)

/-- Memory channels in service, `a` of R194 (MEM_STAT.ACTIVE). -/
def State.memActive (s : State) : Nat := s.rd F.MEM_STAT 0

/-! ### The layout of a frame (R192) -/

/-- The deep cells that a frame of some bytes takes. -/
def deepCells (bytes : Nat) : Nat := if bytes ≤ 184 then 1 else 1 + ceilDiv (bytes - 184) 248

/-- How many granules of each of its cells hold data, first cell first. -/
def deepGranules (bytes : Nat) : List Nat :=
  if bytes ≤ 184 then [1 + ceilDiv bytes 64]
  else
    let n := deepCells bytes
    List.replicate (n - 1) 4 ++ [ceilDiv (bytes - 184 - 248 * (n - 2)) 64]

/-- The granules that a frame writes (n_gr of R193). -/
def deepGranuleCount (bytes : Nat) : Nat := (deepGranules bytes).sum

/-- The (cell, granule) pairs of a frame in its cells. -/
def framePlaces (cells : List Nat) (bytes : Nat) : List (Nat × Nat) :=
  (cells.zip (deepGranules bytes)).flatMap (fun e => (List.range e.2).map (fun g => (e.1, g)))

/-- The bytes that a frame's writing puts into its i-th deep cell (R192), as far as they hold data: descriptor, RUN_NEXT and the first
184 bytes of the frame in the first, 248 bytes in each later one, NEXT behind them in every cell but the last. -/
def DeepFr.cellBytes (d : DeepFr) (frame : List Byte) (i : Nat) : List Byte :=
  let data := if i = 0 then d.desc ++ toBytes (bytesLE 4 d.runNext) ++ List.replicate 28 0 ++ frame.take 184
    else (frame.drop (184 + 248 * (i - 1))).take 248
  data ++ (d.cells.drop (i + 1)).head?.elim [] (fun next => toBytes (bytesLE 4 next) ++ List.replicate 4 0)

/-! ### Free cells -/

/-- The next device, which takes over the service block of a device mapped out (R305). -/
def nextDev (d : Nat) : Nat := (d + 1) % 16

/-- The cell of the next device that takes over a cell of the service block of the device mapped out (R305). -/
def takeoverCell (x : Nat) : Nat := (x / 64 - 65536) * 64 + (x % 64 + 4) % 64

/-- The cell whose part such a cell takes over. -/
def homeCell (x : Nat) : Nat := (x / 64 + 65536) * 64 + (x % 64 + 60) % 64

/-- The cell of a byte of service-core memory, and the granule in it (R286): while a device is mapped out, its part lies in the next
device (R305). -/
def State.coreCell (s : State) (a : Nat) : Nat :=
  let x := frameArea + a / 256
  let st := s.rd F.MEM_MAPOUT_STATE 0
  if (st = moOut || st = moTrain) && x % 64 / 4 == s.mem.mdev then takeoverCell x else x
def coreGran (a : Nat) : Nat := a % 256 / 64

/-- The byte of service-core memory at which a granule of a cell begins. -/
def coreByte (x gran : Nat) : Nat := ((if x < frameArea then homeCell x else x) - frameArea) * 256 + 64 * gran

/-- Whether a byte of service-core memory lies in the service block of the device mapped out, and a copy of it runs: an access to it
waits until the copy ends (R306). -/
def State.coreWaits (s : State) (a : Nat) : Bool :=
  let st := s.rd F.MEM_MAPOUT_STATE 0
  (st == moCopy || st == moReturn) && a / 256 % 64 / 4 == s.mem.mdev

/-- Whether a map-out closes a deep cell (R306): it lies on the device, or in the part of the next device that takes
over the service block. -/
def State.cellClosed (s : State) (x : Nat) : Bool :=
  let d := s.mem.mdev
  s.rd F.MEM_MAPOUT_STATE 0 != moIn &&
    (x % 64 / 4 == d || (x % 64 / 4 == nextDev d && decide (4063232 ≤ x / 64) && decide (x / 64 ≤ 4128767)))

def State.cellUsed (s : State) (x : Nat) : Bool := tget (fun _ => false) s.mem.used x

/-- The free deep cells of the frame area (MEM_DEEP_FREE). -/
def State.deepFree (s : State) : Nat :=
  let area := if s.rd F.MEM_MAPOUT_STATE 0 = moIn then frameArea else frameAreaOut
  area - (s.mem.used.filter (fun e => e.2 && !s.cellClosed e.1)).length

/-- The first free cell at or after a cell, round the frame area. -/
def State.cellFrom (s : State) : Nat → Nat → Option Nat
  | 0, _ => none
  | n + 1, x =>
    if !s.cellUsed x && !s.cellClosed x then some x else s.cellFrom n ((x + 1) % frameArea)

/-- One deep cell allocated; which, the spec does not say (a free value, log entry 3). -/
def State.allocCell (s : State) : Option (Nat × State) :=
  let v := s.takeFree
  match v.2.cellFrom (2 * s.mem.used.length + 128) (v.1 % frameArea) with
  | none => none
  | some x => some (x, { v.2 with mem := { v.2.mem with used := tput (fun _ => false) v.2.mem.used x true } })

/-- Some deep cells allocated. -/
def State.allocCells (s : State) : Nat → List Nat × State
  | 0 => ([], s)
  | n + 1 => match s.allocCell with
    | none => ([], s)
    | some (x, s') => let r := s'.allocCells n; (x :: r.1, r.2)

/-- The frames held in the deep store (MEM_DEEP_FRAMES). -/
def State.deepFrames (s : State) : Nat := s.mem.deep.length

/-- Cells returned to the free list; a poison entry goes with its cell (R303). -/
def State.freeCells (s : State) (xs : List Nat) : State :=
  { s with mem := { s.mem with used := s.mem.used.filter (fun e => !xs.contains e.1),
                               poison := s.mem.poison.filter (fun p => !xs.contains p.cell) } }

/-- Once no frame is held while cells are lost, every cell outside the poison table is free again (R304). -/
def State.reclaimLost (s : State) : State :=
  if s.deepFrames = 0 && s.mem.lost != 0 then
    { s with mem := { s.mem with used := s.mem.used.filter (fun e => s.mem.poison.any (fun p => p.cell == e.1)),
                                 lost := 0 } }
  else s

/-- The record of a frame of the deep store gone, with the frame-store cells that it was read into and the deep cells into which
it was being rewritten. -/
def State.clearDeep (s : State) (id : Nat) : State :=
  let d := s.deepFr id
  let s := match d.evac with | none => s | some e => s.freeCells (e.cells ++ (e.adv.toList.filter (fun x => d.adv != some x)))
  (s.freeFs d.into).setDeepFr id DeepFr.none

/-- A frame leaves the deep store: its cells, and its advance cell where asked for, are free (R192). -/
def State.dropDeep (s : State) (id : Nat) (withAdv : Bool) : State :=
  let d := s.deepFr id
  let s := s.freeCells (d.cells ++ (if withAdv then d.adv.toList else []))
  (s.clearDeep id).reclaimLost

/-! ### Requests (R288) -/

/-- A granule request with its bank and row. -/
def State.memReq (s : State) (who cell gran : Nat) (write : Bool) (frame : Nat) (panic : Bool) : MReq :=
  let p := cellPlace (s.rd F.MEM_CFG_ORDER 0) (cell / 64)
  { who, cell, gran, write, frame, panic, bank := p.2.1, row := p.1 }

/-- How many requests of a channel's bank queue are taken. -/
def MCh.inBank (x : MCh) (b : Nat) : Nat := (x.queue.filter (·.bank == b)).length

/-- A request reaches its controller: into its bank queue, or held on the fabric where that is full (R288). -/
def State.memEnqueue (s : State) (r : MReq) : State :=
  let m := r.cell % 64
  let x := s.mch m
  if 16 ≤ x.inBank r.bank then (s.setMch m { x with heldReq := x.heldReq ++ [r] }).inc F.MEM_CH_BQFULL m
  else s.setMch m { x with queue := x.queue ++ [r] }

/-- The held requests of a channel that now find room enter their bank queues, oldest first. -/
def MCh.admitHeld (x : MCh) : MCh :=
  x.heldReq.foldl (fun y r =>
    if y.inBank r.bank < 16 then { y with queue := y.queue ++ [r] }
    else { y with heldReq := y.heldReq ++ [r] }) { x with heldReq := [] }

/-- The requesters of Requests above, as the event log's entry and MReq name them (log entry 40). -/
def whoAdmit : Nat := 0
def whoRestage : Nat := 1
def whoPort : Nat := 2
def whoEvac : Nat := 3
def whoCore : Nat := 4

/-- The granules of a frame requested, for writing or reading. -/
def State.memFrame (s : State) (who id : Nat) (cells : List Nat) (bytes : Nat) (write panic : Bool) : State :=
  (framePlaces cells bytes).foldl (fun s p => s.memEnqueue (s.memReq who p.1 p.2 write id panic)) s

/-- A frame written into the deep store (R192, R195): its first cell is the advance cell of the run it joins, else a
new one, and the first cell of the run's next frame is allocated in advance. The answer is its number. -/
def State.writeDeep (s : State) (x : QFrame) (bytes : Nat) (joined : Option Nat) : Nat × State :=
  let id := s.mem.nextId
  let adv0 := match joined with | none => none | some j => (s.deepFr j).adv
  let s := match joined with | none => s | some j => s.modDeepFr j (fun d => { d with adv := none })
  let n := deepCells bytes - (if adv0.isSome then 1 else 0)
  let r := s.allocCells (n + 1)
  let cells := adv0.toList ++ r.1.take n
  let s := r.2
  let s := { s with mem := { s.mem with nextId := id + 1 } }
  let adv := (r.1.drop n).head?
  let desc := ({ x with deep := id }).descriptor bytes (cells.headD 0)
  let s := s.setDeepFr id { DeepFr.none with cells, adv, wr := (framePlaces cells bytes).length, desc, runNext := adv.getD 0 }
  (id, s.memFrame whoAdmit id cells bytes true false)

/-- The cells that a frame needs to enter the deep store (R193): its own, less the advance cell of the run it joins,
and the advance cell of the next frame. -/
def State.cellsNeeded (s : State) (bytes : Nat) (joined : Option Nat) : Nat :=
  deepCells bytes - (match joined with | none => 0 | some j => if (s.deepFr j).adv.isSome then 1 else 0) + 1

/-- A deep frame read into an octant's slice, where its write has completed (R195). -/
def State.readDeep (s : State) (who id bytes oct : Nat) (panic : Bool) : State :=
  let d := s.deepFr id
  if d.wr != 0 || d.reading then s
  else
    let a := s.allocFs oct (ceilDiv bytes 256)
    let s := a.2.setDeepFr id { d with reading := true, rd := (framePlaces d.cells bytes).length, oct, into := a.1 }
    s.memFrame who id d.cells bytes false panic

/-- Whether a deep frame is readable: its write has completed (R195). -/
def State.deepReady (s : State) (id : Nat) : Bool := (s.deepFr id).wr == 0

end Sys2Proof.Machine
end

