-- ==== Sys2Proof/Machine/LaneOps.lean ====
section
/-!
DEFINITION. Lanes, shared operations (02_lanes): the status fields of a line lane (0 to 63) or Surok lane (64 to
71), gaining and losing the lock stages (R44, R46), lane power (R60), and the clamps of a commit (R52, R56).
-/

namespace Sys2Proof.Machine

/-- Whether a lane number names a Surok lane, and which. -/
def isSurok (l : Nat) : Bool := decide (64 ≤ l)

/-- A field of the lane status register of a lane, in CH_LANE_STAT or TWN_L_STAT, and its instance. -/
def laneFld (l hi lo : Nat) : Fld × Nat :=
  if isSurok l then (⟨0xB0400 + 64 * (l - 64), hi, lo⟩, 0) else (⟨0x40200, hi, lo⟩, l)

def laneSIG (l : Nat) := laneFld l 0 0
def laneCDR (l : Nat) := laneFld l 1 1
def laneCWL (l : Nat) := laneFld l 2 2
def laneFEC (l : Nat) := laneFld l 3 3
def lanePWR (l : Nat) := laneFld l 11 10
def laneLoss (l : Nat) := laneFld l 31 24
def laneRxPol (l : Nat) : Fld × Nat :=
  if isSurok l then (F.TWN_L_CFG_RX_POL (l - 64), 0) else (F.CH_LANE_CFG_RX_POL, l)
def laneFecCorr (l : Nat) : Fld × Nat :=
  if isSurok l then (F.TWN_L_FEC_CORR (l - 64), 0) else (F.CH_FEC_CORR, l)
def laneFecUncorr (l : Nat) : Fld × Nat :=
  if isSurok l then (F.TWN_L_FEC_UNCORR (l - 64), 0) else (F.CH_FEC_UNCORR, l)
def tfAlign (l : Nat) : Fld × Nat :=
  if isSurok l then (F.TWN_L_TF_STAT_ALIGN (l - 64), 0) else (F.CH_TF_STAT_ALIGN, l)

def State.rdP (s : State) (f : Fld × Nat) : Nat := s.rd f.1 f.2
def State.onP (s : State) (f : Fld × Nat) : Bool := s.on f.1 f.2
def State.wrP (s : State) (f : Fld × Nat) (v : Nat) : State := s.wr f.1 f.2 v
def State.incP (s : State) (f : Fld × Nat) : State := s.inc f.1 f.2

/-- The codes of CH_LANE_STAT.PWR. -/
def pwrOn : Nat := 0
def pwrRxOnly : Nat := 1
def pwrDeep : Nat := 2
def pwrExiting : Nat := 3

/-- The codes of CH_TF_STAT.ALIGN (Table: Alignment states). -/
def alOff : Nat := 0
def alHunt : Nat := 1
def alPresync : Nat := 2
def alSync : Nat := 3

/-- The role codes of CH_ROLE. -/
def roleOff : Nat := 0
def roleHead : Nat := 1
def roleTerm : Nat := 2
def roleClient : Nat := 3

/-- The role whose coding a lane follows; a Surok lane carries tree coding continuously, as a terminal's
downstream does. -/
def State.laneRole (s : State) (l : Nat) : Nat := if isSurok l then roleTerm else s.role l

/-- Whether a lane's receiver is powered (R44). -/
def State.rxPowered (s : State) (l : Nat) : Bool := s.rdP (lanePWR l) == pwrOn || s.rdP (lanePWR l) == pwrRxOnly

/-- Whether a lane carries a framer that aligns: a TERM channel or a Surok lane. -/
def State.framed (s : State) (l : Nat) : Bool := s.laneRole l == roleTerm

/-- The framer of a lane leaves SYNC, if it holds it: its line ticks end, and this core tick does not count for
CH_LTICK_WRAP (R20, R21). -/
def State.leaveSync (s : State) (l : Nat) : State :=
  if s.rdP (tfAlign l) = alSync && !isSurok l then
    (s.modFramer l (fun f => { f with noWrap := true, deliver := false })).wr F.CH_LTICK_OFS_VALID l 0
  else s

/-- The framer returns to OFF: the lane has lost stage 3 (03_tick_frame, Alignment). -/
def State.framerOff (s : State) (l : Nat) : State :=
  if s.framed l then
    (((s.leaveSync l).wrP (tfAlign l) alOff).modFramer l (fun f => { f with pre := 0, miss := 0, deliver := false }))
  else s

/-- The framer starts, or returns to, HUNT. -/
def State.framerHunt (s : State) (l : Nat) : State :=
  if s.framed l then
    (((s.leaveSync l).wrP (tfAlign l) alHunt).modFramer l (fun f => { f with pre := 0, miss := 0, deliver := false }))
  else s

/-- A lane drops its stages above stage 1 without counting a loss (power-down, role commit). -/
def State.dropStages (s : State) (l : Nat) : State :=
  let s := s.framerOff l
  let s := ((s.wrP (laneCDR l) 0).wrP (laneCWL l) 0).wrP (laneFEC l) 0
  s.modLane l (fun x => { x with conf := none, badHdr := 0, goodDec := 0, uncRun := 0, hunt := 0 })

/-- A candidate that the codeword hunter is confirming is given up, as its receiver no longer holds stage 1 (R44). -/
def State.dropCandidate (s : State) (l : Nat) : State := s.modLane l (fun x => { x with conf := none })

/-- Codeword lock lost (R46): stages 2 and 3 drop, LOCK_LOSS counts, the loss is an event of LOCK_LOSS (R407), and
the hunter restarts at the next offset, also where a loss of signal or of CDR lock took codeword lock with it, for which the spec
names no start (DESIGN CHOICE, log entry 119). A client lane loses alignment-marker lock in the same way (R445). -/
def State.loseCodewordLock (s : State) (l : Nat) : State :=
  if !s.onP (laneCWL l) then s
  else
    let s := s.framerOff l
    let s := ((s.wrP (laneCWL l) 0).wrP (laneFEC l) 0).incP (laneLoss l)
    let s := s.modLane l (fun x => { x with conf := none, badHdr := 0, goodDec := 0, uncRun := 0,
                                            hunt := (x.hunt + 1) % 2720 })
    let s := s.modFramer l (fun f => { f with seen := { f.seen with noCwl := true } })
    if isSurok l then s else s.watch 3 l

/-- Loss of signal (R46): stages 0 to 3 drop. -/
def State.loseSignal (s : State) (l : Nat) : State :=
  let s := ((s.loseCodewordLock l).dropCandidate l).wrP (laneSIG l) 0 |>.wrP (laneCDR l) 0
  s.modFramer l (fun f => { f with seen := { f.seen with noSig := true, noCwl := true } })

/-- Signal appears (R44); it was absent since the last evaluation point (R95). -/
def State.gainSignal (s : State) (l : Nat) : State :=
  (s.modFramer l (fun f => { f with seen := { f.seen with noSig := f.seen.noSig || !s.onP (laneSIG l) } })).wrP (laneSIG l) 1

/-- Stage 2 is entered (R44, R58); it was absent since the last evaluation point (R95). -/
def State.gainCodewordLock (s : State) (l : Nat) : State :=
  (s.modFramer l (fun f => { f with seen := { f.seen with noCwl := f.seen.noCwl || !s.onP (laneCWL l) } })).wrP (laneCWL l) 1

/-- Whether any of n codewords from one on, of the line tick or burst under way, was uncorrectable (R43, R86). -/
def State.codewordsBad (s : State) (l first n : Nat) : Bool :=
  (s.lane l).unc.any (fun k => decide (first ≤ k) && decide (k < first + n))

/-! ### Lane power (R60, R62) -/

/-- The codes of OCT_PWR_STAT.STATE: PL0 to PL3 as 0 to 3, then S1, S2, S3 (Table: Power states, 15_power). -/
def State.octState (s : State) (o : Nat) : Nat := s.rd F.OCT_PWR_STAT_STATE o

/-- S3 in OCT_PWR_STAT.STATE. -/
def octS3 : Nat := 6

/-- Whether a line lane is to be in DEEP (R60). -/
def State.laneDeep (s : State) (c : Nat) : Bool :=
  s.octState (octOf c) == octS3 || (s.role c == roleOff && s.on F.CH_LANE_CFG_DEEP_OFF c)

/-- The test facilities of a lane cleared and its eye scan abandoned (R62). -/
def State.clearTests (s : State) (l : Nat) : State :=
  let s := ((((s.wr F.TST_PRBS_CFG_GEN_EN l 0).wr F.TST_PRBS_CFG_CHK_EN l 0).wr F.TST_LOOP_NEAR l 0).wr
    F.TST_LOOP_FAR l 0).wr F.TST_INJ_CONT l 0
  (s.wr F.TST_PRBS_STAT_CHK_LOCK l 0).modLane l (fun x => { x with scan := false, chk := .reset, tx := { x.tx with last := none } })

/-- A line lane moves to the power state that R60 wants: into DEEP, dropping its stages and its tests, or out of
DEEP, where it reads EXITING until the PLL has settled (R61). -/
def State.applyLanePower (s : State) (c : Nat) : State :=
  if s.laneDeep c then
    if s.rd F.CH_LANE_STAT_PWR c = pwrDeep then s
    else ((((s.dropStages c).wrP (laneSIG c) 0).wr F.CH_LANE_STAT_PWR c pwrDeep).clearTests c)
  else if s.rd F.CH_LANE_STAT_PWR c = pwrDeep then s.wr F.CH_LANE_STAT_PWR c pwrExiting
  else s

/-- The lane restarts lock in a new role (R22): stages 1 to 3 drop; in head-end role every stage bit reads 0
(R47). -/
def State.relock (s : State) (c : Nat) : State :=
  let s := s.dropStages c
  let s := if s.role c = roleHead then s.wrP (laneSIG c) 0 else s
  if s.role c = roleTerm && s.onP (laneFEC c) then s.framerHunt c else s

/-! ### Clamps at a commit of the channel's scope -/

/-- The sideband fields clamped (R52). -/
def State.clampSideband (s : State) (c : Nat) : State :=
  let lead := s.rd F.CH_SB_CFG_EN_LEAD c
  let lag := s.rd F.CH_SB_CFG_EN_LAG c
  let len := s.rd F.CH_SB_CFG_RST_LEN c
  let ofs := s.rd F.CH_SB_CFG_RST_OFS c
  let lead' := min lead 48
  let lag' := min lag 32
  let len' := max 4 (min len 48)
  let ofs' := min ofs (64 - len')
  let s := (((s.wr F.CH_SB_CFG_EN_LEAD c lead').wr F.CH_SB_CFG_EN_LAG c lag').wr F.CH_SB_CFG_RST_LEN c len').wr
    F.CH_SB_CFG_RST_OFS c ofs'
  s.wrB F.CH_LANE_STAT_SB_CLAMP c (lead' != lead || lag' != lag || len' != len || ofs' != ofs)

/-- A tap's magnitude reduced towards 0 by at most an excess; what is left of the excess beside it. -/
def reduceTap (v : Int) (excess : Nat) : Int × Nat :=
  let r := min v.natAbs excess
  (if 0 ≤ v then v - r else v + r, excess - r)

/-- The transmitter taps of a register reduced until their magnitudes sum to 127 (R56): the main tap first, then POST1,
PRE1 and PRE2; `flag` shows whether any was. -/
def State.clampEq (s : State) (off inst : Nat) (flag : Fld) (fi : Nat) : State :=
  let pre2 := s.rdInt ⟨off, 7, 0⟩ inst
  let pre1 := s.rdInt ⟨off, 15, 8⟩ inst
  let main := s.rd ⟨off, 23, 16⟩ inst
  let post := s.rdInt ⟨off, 31, 24⟩ inst
  let sum := pre2.natAbs + pre1.natAbs + main + post.natAbs
  let ex := sum - 127
  let m := reduceTap main ex
  let po := reduceTap post m.2
  let p1 := reduceTap pre1 po.2
  let p2 := reduceTap pre2 p1.2
  let s := (((s.wr ⟨off, 23, 16⟩ inst m.1.toNat).wr ⟨off, 31, 24⟩ inst (codeInt 8 po.1)).wr ⟨off, 15, 8⟩ inst
    (codeInt 8 p1.1)).wr ⟨off, 7, 0⟩ inst (codeInt 8 p2.1)
  s.wrB flag fi (127 < sum)

/-- The taps of a line lane, at a commit of its channel's scope. -/
def State.clampTaps (s : State) (c : Nat) : State := s.clampEq F.CH_EQ_TX.off c F.CH_LANE_STAT_EQ_CLAMP c

/-- The taps of a Surok lane, at a commit of the device scope. -/
def State.clampSurokTaps (s : State) (i : Nat) : State := s.clampEq (F.TWN_L_EQ_TX i).off 0 (F.TWN_L_STAT_EQ_CLAMP i) 0

end Sys2Proof.Machine
end

