-- ==== Sys2Proof/Machine/FramerOps.lean ====
section
/-!
DEFINITION. The framer's shared operations (03_tick_frame): the fields of a bridge, justification control, the
switching-request filter (R93), the integration of defects (R94 to R98), and the bridge-message queues (R77).
-/

namespace Sys2Proof.Machine

/-! ### Fields of a bridge of 512 bytes (Table: Bridge layout, R70) -/

namespace Br
def ltn (b : List Byte) : Nat := fieldBE b 8 4
def sfp (b : List Byte) : Nat := byteAt b 12 / 4
def jc (b : List Byte) : List Nat := [byteAt b 13, byteAt b 35, byteAt b 504]
def hcrcOk (b : List Byte) : Bool := fieldBE b 14 2 == crc16 (slice b 8 6)
def tmSec (b : List Byte) : Nat := fieldBE b 16 6
def tmNs (b : List Byte) : Nat := fieldBE b 22 4
def tmFrac (b : List Byte) : Nat := fieldBE b 26 2
def domain (b : List Byte) : Nat := byteAt b 28
def srq (b : List Byte) : Nat := fieldBE b 32 2
def rdi (b : List Byte) : Bool := bit (byteAt b 34) 7
def tmv (b : List Byte) : Bool := bit (byteAt b 34) 6
def holdover (b : List Byte) : Bool := bit (byteAt b 34) 5
def kcm (b : List Byte) : Nat := fieldBE b 36 4
def bmsg (b : List Byte) : List Byte := slice b 40 64
def fmap (b : List Byte) : List Nat := (List.range 40).map (fun i => fieldBE b (104 + 8 * i) 8)
def bcrcOk (b : List Byte) : Bool := fieldBE b 508 4 == crc32 (b.take 508)
end Br

/-- The codes of J as CH_TF_STAT.LAST_J has them: 0 for 0, 1 for +1, 2 for -1, 3 for undecided. -/
def jZero : Nat := 0
def jPos : Nat := 1
def jNeg : Nat := 2
def jUndecided : Nat := 3

/-- How many codewords a J adds to a line tick of 1,250 (R79). -/
def jCodewords (j : Nat) : Nat := if j = jPos then 1251 else if j = jNeg then 1249 else 1250

/-- The byte that codes a J (Table: Justification control codes, R81). -/
def jCode (j : Nat) : Nat := if j = jPos then 0x1F else if j = jNeg then 0xE3 else 0x00

/-- What one JC copy decodes to: the code within Hamming distance 2, or none (R81). -/
def jDecode (copy : Nat) : Option Nat :=
  [jZero, jPos, jNeg].find? (fun j => decide (popCount 8 (copy ^^^ jCode j) ≤ 2))

/-- The decided J: the value on which at least two valid copies agree (R82). -/
def jDecide (copies : List Nat) : Nat :=
  let vs := copies.filterMap jDecode
  match [jZero, jPos, jNeg].find? (fun j => decide (2 ≤ (vs.filter (· == j)).length)) with
  | some j => j
  | none => jUndecided

/-! ### The switching-request filter (R93) -/

def State.srqFilter (s : State) (c t : Nat) : Srq := tget (fun _ => Srq.zero) (s.framer c).srq t

/-- Whether any filter of a channel is inconsistent, shown in CH_DEF_STAT (and its latch). -/
def State.showSrqInc (s : State) (c : Nat) : State :=
  let any := (List.range 32).any (fun t => s.on (F.CH_SRQ_RX_INCONS t) c)
  let was := s.on F.CH_DEF_STAT_SRQ_INC c
  let s := s.wrB F.CH_DEF_STAT_SRQ_INC c any
  if any && !was then s.wr F.CH_DEF_LATCH c (s.rd F.CH_DEF_LATCH c ||| 1024) else s

/-- One reception of a switching request of terminal t of a channel (0 at a terminal): none where its check
failed (R93). -/
def State.srqReceive (s : State) (c t : Nat) (v : Option Nat) : State :=
  let x := s.srqFilter c t
  let run := match v with
    | none => 0
    | some v => if 0 < x.run && v = x.last then min (x.run + 1) 3 else 1
  let last := v.getD x.last
  let accept := run = 3
  let old := s.rd (F.CH_SRQ_RX_SRQ1 t) c * 256 + s.rd (F.CH_SRQ_RX_SRQ2 t) c
  let wasValid := s.on (F.CH_SRQ_RX_VALID t) c
  let wasInc := s.on (F.CH_SRQ_RX_INCONS t) c
  let unsettled := if accept then 0 else min (x.unsettled + 1) 12
  let inc := if accept then false else if 12 ≤ unsettled then true else wasInc
  let s := s.modFramer c (fun f => { f with srq := tput (fun _ => Srq.zero) f.srq t { run, last, unsettled } })
  let s := if accept then ((s.wr (F.CH_SRQ_RX_SRQ1 t) c (last / 256)).wr (F.CH_SRQ_RX_SRQ2 t) c (last % 256)).wr
      (F.CH_SRQ_RX_VALID t) c 1 else s
  let s := (s.wrB (F.CH_SRQ_RX_INCONS t) c inc).showSrqInc c
  if (accept && (last != old || !wasValid)) || (inc && !wasInc) then
    s.log 0x0402 engineReq c [t, s.rd (F.CH_SRQ_RX_SRQ1 t) c, s.rd (F.CH_SRQ_RX_SRQ2 t) c, if inc then 1 else 0]
  else s

/-- The filters of a channel reset: run, unsettled, valid and inconsistent to 0 (R93). -/
def State.srqReset (s : State) (c : Nat) : State :=
  let s := s.modFramer c (fun f => { f with
    srq := (List.range 32).foldl (fun q t => tput (fun _ => Srq.zero) q t
      { tget (fun _ => Srq.zero) q t with run := 0, unsettled := 0 }) f.srq })
  let s := (List.range 32).foldl (fun s t => (s.wr (F.CH_SRQ_RX_VALID t) c 0).wr (F.CH_SRQ_RX_INCONS t) c 0) s
  s.showSrqInc c

/-! ### Defects (R94 to R99) -/

/-- One evaluation point of a cause: its runs and whether the defect is set (R94). -/
def integrate (r : Run) (j : Judge) (set clear : Nat) (cur : Bool) : Run × Bool :=
  let r := match j with
    | .bad => { bad := r.bad + 1, good := 0 }
    | .good => { bad := 0, good := r.good + 1 }
    | .neither => r
  (r, if cur then !(decide (max 1 clear ≤ r.good)) else decide (max 1 set ≤ r.bad))

def judge (bad : Bool) : Judge := if bad then .bad else .good

/-- The set and clear counts of a CH_DEF_INT register; a Surok lane integrates with the reset values (R94, log
entry 33). -/
def State.defInt (s : State) (l : Nat) (set clear : Fld) : Nat × Nat :=
  if isSurok l then (getF (regReset (rkey 0 set.off)) set, getF (regReset (rkey 0 clear.off)) clear)
  else (s.rd set l, s.rd clear l)

/-- A bit of CH_DEF_STAT, or of TWN_L_DEF_STAT. -/
def defFld (l b : Nat) : Fld × Nat :=
  if isSurok l then (⟨0xB0428 + 64 * (l - 64), b, b⟩, 0) else (⟨0x4030C, b, b⟩, l)

/-- What of the defect registers of a channel counts as a defect change (R98): CH_DEF_STAT without SRQ_INC, which is no defect
of Table: Defects and has the entry 0x0402 of its own (DEDUCED, log entry 49); CH_DEF_LOB; CH_DEF_RDIT. -/
def State.defWords (s : State) (c : Nat) : Nat × Nat × Nat :=
  (putBit (s.rd F.CH_DEF_STAT c) 10 false, s.rd F.CH_DEF_LOB c, s.rd F.CH_DEF_RDIT c)

/-- The joint bits of CH_DEF_STAT brought up to date: SD of its causes, LOB_ANY, and RDI of a head end. -/
def State.jointDefects (s : State) (c : Nat) : State :=
  let s := s.wrB F.CH_DEF_STAT_SD c (s.on F.CH_DEF_STAT_SD_BER c || s.on F.CH_DEF_STAT_SD_MARGIN c)
  let s := s.wrB F.CH_DEF_STAT_LOB_ANY c (s.on F.CH_DEF_LOB c)
  if s.role c = roleHead then s.wrB F.CH_DEF_STAT_RDI c (s.on F.CH_DEF_RDIT c) else s

/-- The end of a cycle in which defects of a channel may have changed (R98): the latch, one log entry and the
defect-change event if anything changed, and each setting of SF as an event of SF_SET (R407). -/
def State.defectsChanged (s : State) (c : Nat) (old : Nat × Nat × Nat) : State :=
  let s := s.jointDefects c
  let new := s.defWords c
  if new = old then s
  else
    let rose := (bitsSet 11 new.1).filter (fun i => !bit old.1 i)
    let s := s.wr F.CH_DEF_LATCH c (rose.foldl (fun v i => putBit v i true) (s.rd F.CH_DEF_LATCH c))
    let s := s.log 0x0401 engineReq c (bytesLE 4 (s.rd F.CH_DEF_STAT c) ++ bytesLE 4 new.2.1 ++ bytesLE 4 new.2.2)
    let s := s.raise 2 c
    if rose.contains 7 then s.watch 4 c else s

/-- Sums over the newest n entries of the BER window. -/
def berSums (n : Nat) (w : List (Nat × Nat)) : Nat × Nat :=
  (w.take n).foldl (fun a e => (a.1 + e.1, a.2 + e.2)) (0, 0)

/-- The BER cause of SD at an evaluation point (R96). The window keeps the newest max(SET, CLEAR) points, so after a commit that
raises SET or CLEAR it has to fill up to the new count before the cause moves: the spec does not say what it holds then (DESIGN
CHOICE, log entry 118). -/
def State.evalBer (s : State) (c : Nat) (errs bits : Nat) : State :=
  let n := max 1 (s.rd F.CH_DEF_INT_SD_SET c)
  let m := max 1 (s.rd F.CH_DEF_INT_SD_CLEAR c)
  let w := ((errs, bits) :: (s.framer c).ber).take (max n m)
  let mant := max 1 (min 9 (s.rd F.CH_DEF_THR_SD_MANT c))
  let exp := max 3 (min 12 (s.rd F.CH_DEF_THR_SD_EXP c))
  let exceeds (k : Nat) : Bool := let e := berSums k w; decide (mant * e.2 < e.1 * 10 ^ exp)
  let cur := s.on F.CH_DEF_STAT_SD_BER c
  let new := if cur then !(decide (m ≤ w.length) && !exceeds m) else decide (n ≤ w.length) && exceeds n
  (s.modFramer c (fun f => { f with ber := w })).wrB F.CH_DEF_STAT_SD_BER c new

/-- One cause of a lane integrated at an evaluation point, its runs read and put back by the given accessors. -/
def State.evalCause (s : State) (l b : Nat) (set clear : Fld) (get : Framer → Run) (put : Framer → Run → Framer)
    (j : Judge) : State :=
  let n := s.defInt l set clear
  let r := integrate (get (s.framer l)) j n.1 n.2 (s.onP (defFld l b))
  (s.modFramer l (fun f => put f r.1)).wrP (defFld l b) (if r.2 then 1 else 0)

def State.evalLos (s : State) (l : Nat) (j : Judge) : State :=
  s.evalCause l 0 F.CH_DEF_INT_LOS_SET F.CH_DEF_INT_LOS_CLEAR (·.los) (fun f r => { f with los := r }) j
def State.evalLocw (s : State) (l : Nat) (j : Judge) : State :=
  s.evalCause l 1 F.CH_DEF_INT_LOCW_SET F.CH_DEF_INT_LOCW_CLEAR (·.locw) (fun f r => { f with locw := r }) j
def State.evalLof (s : State) (l : Nat) (j : Judge) : State :=
  s.evalCause l 2 F.CH_DEF_INT_LOF_SET F.CH_DEF_INT_LOF_CLEAR (·.lof) (fun f r => { f with lof := r }) j
def State.evalLosf (s : State) (l : Nat) (j : Judge) : State :=
  s.evalCause l 3 F.CH_DEF_INT_LOSF_SET F.CH_DEF_INT_LOSF_CLEAR (·.losf) (fun f r => { f with losf := r }) j
def State.evalMargin (s : State) (l : Nat) (j : Judge) : State :=
  s.evalCause l 6 F.CH_DEF_INT_SD_SET F.CH_DEF_INT_SD_CLEAR (·.sdm) (fun f r => { f with sdm := r }) j
def State.evalSf (s : State) (l : Nat) (j : Judge) : State :=
  s.evalCause l 7 F.CH_DEF_INT_SF_SET F.CH_DEF_INT_SF_CLEAR (·.sf) (fun f r => { f with sf := r }) j
def State.evalRdi (s : State) (l : Nat) (j : Judge) : State :=
  s.evalCause l 8 F.CH_DEF_INT_RDI_SET F.CH_DEF_INT_RDI_CLEAR (·.rdi) (fun f r => { f with rdi := r }) j

/-- The margin cause of SD at this moment (R67, R96). -/
def State.marginBad (s : State) (c : Nat) : Bool :=
  s.on F.CH_EYE_THR_V c && decide (s.rd F.CH_EYE_MARGIN_V c < s.rd F.CH_EYE_THR_V c)

/-- The evaluation point of a HEAD or TERM channel (R94 to R96, R99). LOSF is judged where its header is read
(R91), LOB and the terminals' RDI at their bursts. -/
def State.evaluate (s : State) (c : Nat) : State :=
  let old := s.defWords c
  let f := s.framer c
  let term := s.role c == roleTerm
  let sync := s.rdP (tfAlign c) == alSync
  let los := if term then judge (f.seen.noSig || !s.onP (laneSIG c))
    else if f.seen.granted then judge (!f.seen.shown) else .neither
  let locw := judge (f.seen.noCwl || !s.onP (laneCWL c))
  let lof := if sync then f.seen.faw else .bad
  let sf := judge (decide (s.rd F.CH_DEF_THR_SF_UNC c < f.seen.unc))
  let s := s.evalLos c los
  let s := if term then ((s.evalLocw c locw).evalLof c lof).evalRdi c (if sync then f.seen.rdi else .neither) else s
  let s := ((s.evalBer c f.seen.errs f.seen.bits).evalMargin c (judge (s.marginBad c))).evalSf c sf
  let severe := los == .bad || (term && (locw == .bad || lof == .bad)) || sf == .bad
  let s := if severe then s.inc F.CH_PM_SET c else s
  let s := if severe || f.seen.errored then s.inc F.CH_PM_ET c else s
  (s.modFramer c (fun f => { f with seen := .zero })).defectsChanged c old

/-- The evaluation point of a Surok lane (03_tick_frame): LOS, LOCW, LOF and SF. A setting of LOCW or SF is an
event of SUROK (R407). -/
def State.evaluateLane (s : State) (l : Nat) : State :=
  let f := s.framer l
  let sync := s.rdP (tfAlign l) == alSync
  let old := (s.onP (defFld l 1), s.onP (defFld l 7))
  let s := s.evalLos l (judge (f.seen.noSig || !s.onP (laneSIG l)))
  let s := s.evalLocw l (judge (f.seen.noCwl || !s.onP (laneCWL l)))
  let s := s.evalLof l (if sync then f.seen.faw else .bad)
  let s := s.evalSf l (judge (decide (1 < f.seen.unc)))
  let s := s.modFramer l (fun f => { f with seen := .zero })
  let s := if !old.1 && s.onP (defFld l 1) then s.watch 5 (l - 64) else s
  if !old.2 && s.onP (defFld l 7) then s.watch 5 (l - 64) else s

/-- A role commit resets every defect, every run and the BER windows of a channel (R98). -/
def State.resetDefects (s : State) (c : Nat) : State :=
  let old := s.defWords c
  let clear (f : Framer) : Framer :=
    { f with
      los := .zero, locw := .zero, lof := .zero, losf := .zero, sdm := .zero,
      sf := .zero, rdi := .zero, lobT := [], rdiT := [], ber := [], seen := .zero }
  let s := s.modFramer c clear
  let s := ((s.wr F.CH_DEF_STAT c 0).wr F.CH_DEF_LOB c 0).wr F.CH_DEF_RDIT c 0
  s.defectsChanged c old

/-- LOB or the received RDI of one terminal at its granted burst (R94): its runs and its bit. -/
def State.evalBurst (s : State) (c t : Nat) (shown : Fld) (set clear : Fld) (get : Framer → Tab Run)
    (put : Framer → Tab Run → Framer) (j : Judge) : State :=
  let r := integrate (tget (fun _ => Run.zero) (get (s.framer c)) t) j (s.rd set c) (s.rd clear c)
    (bit (s.rd shown c) t)
  (s.modFramer c (fun f => put f (tput (fun _ => Run.zero) (get f) t r.1))).wr shown c (putBit (s.rd shown c) t r.2)

def State.evalLob (s : State) (c t : Nat) (j : Judge) : State :=
  s.evalBurst c t F.CH_DEF_LOB F.CH_DEF_INT_LOB_SET F.CH_DEF_INT_LOB_CLEAR (·.lobT) (fun f x => { f with lobT := x }) j
def State.evalRdiT (s : State) (c t : Nat) (j : Judge) : State :=
  s.evalBurst c t F.CH_DEF_RDIT F.CH_DEF_INT_RDI_SET F.CH_DEF_INT_RDI_CLEAR (·.rdiT)
    (fun f x => { f with rdiT := x }) j

/-! ### Bridge messages (R76, R77) -/

/-- A message that enters a channel's receive queue, or is dropped when the queue is full (R77). -/
def State.bmEnqueue (s : State) (c : Nat) (m : List Byte) : State :=
  if 16 ≤ (s.framer c).bmRx.length then s.inc F.CH_BM_CTL_RX_DROP c
  else (s.modFramer c (fun f => { f with bmRx := f.bmRx ++ [m] })).raise 1 c

/-- The head of a channel's transmit queue taken out, or 64 bytes of 0 (R76). -/
def State.bmTake (s : State) (c : Nat) : List Byte × State :=
  match (s.framer c).bmTx with
  | [] => (List.replicate 64 0, s)
  | m :: ms => (m, s.modFramer c (fun f => { f with bmTx := ms }))

/-- Both bridge-message queues of a channel emptied (R22). -/
def State.bmEmpty (s : State) (c : Nat) : State := s.modFramer c (fun f => { f with bmTx := [], bmRx := [] })

/-- TX_POST (R77): CH_BM_TXBUF copied into the transmit queue, or the ignored write counted. -/
def State.txPost (s : State) (c : Nat) : State :=
  if 16 ≤ (s.framer c).bmTx.length then s.inc F.CH_BM_CTL_TX_FULL c
  else
    let m := (List.range 16).flatMap (fun k => toBytes (bytesLE 4 (s.rd (F.CH_BM_TXBUF k) c)))
    s.modFramer c (fun f => { f with bmTx := f.bmTx ++ [m] })

/-- RX_POP (R77): the head of the receive queue removed. -/
def State.rxPop (s : State) (c : Nat) : State := s.modFramer c (fun f => { f with bmRx := f.bmRx.drop 1 })

end Sys2Proof.Machine
end

