-- ==== Sys2Proof/Machine/ImgOps.lean ====
section
/-!
DEFINITION. The rolling digest (R362): the fold of one change that has taken effect.
-/

namespace Sys2Proof.Machine

/-- Kinds of fold records (Table: Fold record). -/
def foldReg : Nat := 1
def foldEntry : Nat := 2
def foldExact : Nat := 3
def foldRestore : Nat := 4

/-- A list cut or filled with zeros to n bytes. -/
def exactly (n : Nat) (l : List Byte) : List Byte := (l ++ List.replicate n 0).take n

/-- SHA3-512: 64 bytes (log entry 4). -/
def sha512 (msg : List Byte) : List Byte := exactly 64 (Config.sha3_512 msg)

/-- A fold record, its fields little-endian (R2). -/
def foldRecord (kind req index ofs : Nat) (data : List Byte) : List Byte :=
  toBytes ([kind, req] ++ bytesLE 2 index ++ bytesLE 4 ofs) ++ data

/-- One change folded: D := SHA3-512(D followed by the record). Before the loader's commit boundary there is no D and
nothing is folded. The folds of writes in front of it are in their order (State.foldWritten). -/
def State.fold (s : State) (kind req index ofs : Nat) (data : List Byte) : State :=
  if s.img.d = [] then s
  else { s with same := s.same.filter (·.fold.isNone)
                img := { s.img with d := sha512 (s.img.d ++ foldRecord kind req index ofs data),
                                    folds := s.img.folds + 1 } }

/-- Folds of writes after a digest, each with the digest in front of it, and the digest that they leave. -/
def foldChain : List Byte → List (CycWrite × List Byte) → List CycWrite × List Byte
  | d, [] => ([], d)
  | d, (x, rec) :: l =>
    let r := foldChain (sha512 (d ++ rec)) l
    ({ x with fold := some (d, rec) } :: r.1, r.2)

/-- The fold of a requester's write: writes in one cycle are folded in ascending requester id (R362), so it goes in front of those of
higher requesters, which are folded after it anew. -/
def State.foldWritten (s : State) (req key : Nat) (rec : List Byte) : State :=
  if s.img.d = [] then s
  else
    let above (x : CycWrite) := x.cyc == s.pegs.cyc && decide (req < x.req) && x.fold.isSome
    let later := (s.same.filter above).filterMap (fun x => x.fold.map (fun f => (x, f.1, f.2)))
    let base := match later with | [] => s.img.d | x :: _ => x.2.1
    let r := foldChain base (({ cyc := s.pegs.cyc, req, key, mask := 0, fold := none }, rec) :: later.map (fun x => (x.1, x.2.2)))
    { s with same := s.same.filter (fun x => !above x) ++ r.1, img := { s.img with d := r.2, folds := s.img.folds + 1 } }

/-- INDEX of a register's fold record. -/
def foldIndex (r : RegRow) (inst : Nat) : Nat :=
  match r.bank with
  | .dev | .req | .reqChan | .fltSrc | .fltInst | .event | .task | .logEntry => 0
  | _ => inst

/-- INDEX and OFS of the fold of one register; registers banked per requester are not folded. -/
def foldPlace (k : Nat) : Option (Nat × Nat) :=
  match findRow (k % 0x100000) with
  | none => none
  | some r => if r.bank == .req || r.bank == .reqChan then none else some (foldIndex r (k / 0x100000), k % 0x100000)

/-- The value of a register in effect, four bytes. -/
def State.foldData (s : State) (k : Nat) : List Byte := toBytes (bytesLE 4 (tget regReset s.eff k).toNat)

/-- One register's value in effect folded. -/
def State.foldKey (s : State) (req k : Nat) : State :=
  match foldPlace k with
  | none => s
  | some p => s.fold foldReg req p.1 p.2 (s.foldData k)

/-- The fold of a write of one register whose value data is (R32, R362). -/
def State.foldValue (s : State) (req k : Nat) (data : List Byte) : State :=
  match foldPlace k with
  | none => s
  | some p => s.foldWritten req k (foldRecord foldReg req p.1 p.2 data)

end Sys2Proof.Machine
end

