-- ==== Sys2Proof/Machine/PwrOps.lean ====
section
/-!
DEFINITION. Power, operations that other families use (15_power): sleeping octants, wakes of octants (R389) and of
dozing channels (R395), and the fold of a write (R32, R429).
-/

namespace Sys2Proof.Machine

def State.octPwr (s : State) (o : Nat) : OctPwr := tget (fun _ => OctPwr.reset) s.pwr.octs o
def State.setOctPwr (s : State) (o : Nat) (x : OctPwr) : State :=
  { s with pwr := { s.pwr with octs := tput (fun _ => OctPwr.reset) s.pwr.octs o x } }
def State.modOctPwr (s : State) (o : Nat) (f : OctPwr → OctPwr) : State := s.setOctPwr o (f (s.octPwr o))

/-- The codes of OCT_PWR_STAT.STATE beside PL0 to PL3 as 0 to 3 and S3 as 6. -/
def stS1 : Nat := 4
def stS2 : Nat := 5
def stS3 : Nat := 6
def stEntering : Nat := 8
def stExiting : Nat := 9
def stLevel : Nat := 10

/-- Whether an octant is in S1, S2 or S3. -/
def State.asleep (s : State) (o : Nat) : Bool :=
  let st := s.octState o
  st == stS1 || st == stS2 || st == stS3

/-- Whether an octant runs: at a level, or changing level. -/
def State.octRuns (s : State) (o : Nat) : Bool :=
  let st := s.octState o
  decide (st ≤ 3) || st == stLevel

/-- The wake sources (Table: Wake sources), numbered as OCT_PWR_STAT.WAKE_SRC. -/
def wkPattern : Nat := 0
def wkSignal : Nat := 1
def wkFrame : Nat := 2
def wkTimer : Nat := 3
def wkGpio : Nat := 4
def wkPartner : Nat := 5
def wkRequest : Nat := 6

/-- Whether a wake source is enabled for an octant. -/
def State.wakeEnabled (s : State) (o src : Nat) : Bool :=
  if src = wkPattern then s.on F.OCT_PWR_WAKE_PATTERN o
  else if src = wkSignal then s.on F.OCT_PWR_WAKE_SIGNAL o
  else if src = wkFrame then s.on F.OCT_PWR_WAKE_FRAME o
  else if src = wkTimer then s.on F.OCT_PWR_WAKE_TIMER o
  else if src = wkGpio then s.on F.OCT_PWR_WAKE_GPIO o
  else true

/-- A wake of an octant (R389): latched while the octant sleeps or enters sleep; without effect during an exit and
on a running octant. During an in-service test only the partner's declaration and a request count (R414). -/
def State.wakeOct (s : State) (o src : Nat) : State :=
  let x := s.octPwr o
  if s.wakeEnabled o src && (s.asleep o || (s.octState o == stEntering && (!x.test || src == wkPartner || src == wkRequest)))
      && x.wake.isNone then
    (s.setOctPwr o { x with wake := some src }).wr F.OCT_PWR_STAT_WAKE_SRC o src
  else s

/-- A wake ends the doze of a channel (R395): WOKE, event 8/0; the transmitter follows (DOZE_TX_READY). -/
def State.wakeChannel (s : State) (c : Nat) : State :=
  if !s.on F.CH_PWR_STAT_DOZING c then s
  else
    let s := { s with pwr := { s.pwr with waking := c :: s.pwr.waking.filter (· != c) } }
    ((s.wr F.CH_PWR_STAT_DOZING c 0).wr F.CH_PWR_STAT_WOKE c 1).raise 8 0

/-! ### Registers of a sleeping octant (R429) -/

/-- The octant that holds a register instance, where one does. -/
def keyOctant (k : Nat) : Option Nat :=
  match findRow (k % 0x100000) with
  | none => none
  | some r =>
    let i := k / 0x100000
    match r.bank with
    | .chan => some (i / 8)
    | .oct => some i
    | .queue => some (i / 512)
    | .meter => some (i / 2048)
    | .lane => if i < 64 then some (i / 8) else none
    | .reqChan => some (i % 64 / 8)
    | _ => none

/-- Whether a register instance belongs to an octant in S2 or S3. -/
def State.keySleeps (s : State) (k : Nat) : Bool :=
  match keyOctant k with
  | none => false
  | some o => s.octState o == stS2 || s.octState o == stS3

/-- A write of RW fields folded (R32), at once or, for a sleeping octant, at its exit. -/
def State.foldWrite (s : State) (req k : Nat) : State :=
  if s.keySleeps k then
    { s with pwr := { s.pwr with sleepFolds := (k, req) :: s.pwr.sleepFolds.filter (·.1 != k) } }
  else s.foldValue req k (s.foldData k)

/-! ### Writes of one device cycle (R37) -/

/-- The bits of a register that requesters above this one have written in the device cycle under way: their values stand. -/
def State.claimed (s : State) (req key : Nat) : Nat :=
  (s.same.filter (fun x => x.cyc == s.pegs.cyc && x.key == key && decide (req < x.req))).foldl (fun m x => m ||| x.mask) 0

/-- A requester makes a further access: one that it makes after another of its own lies in a later cycle, and a record of an
earlier cycle is given up. -/
def State.newAccess (s : State) (req : Nat) : State :=
  { s with same := if s.same.any (fun x => x.req == req || x.cyc != s.pegs.cyc) then [] else s.same }

/-- A write of some bits of a register noted for the cycle. -/
def State.noteWrite (s : State) (req key mask : Nat) : State :=
  { s with same := { cyc := s.pegs.cyc, req, key, mask, fold := none } :: s.same }

/-- What a whole-word write of registers of one offset with some effect leaves: nothing of it but its folds where a higher requester
has written each of them whole in this cycle, for both writes are applied (R37). -/
def State.ordered (s : State) (req off : Nat) (insts : List Nat) (effect : State → State) : State :=
  let s := s.newAccess req
  let t := effect s
  if !insts.isEmpty && insts.all (fun i => s.claimed req (rkey i off) == 0xFFFFFFFF) then
    if t.img.folds = s.img.folds then s else insts.foldl (fun u i => u.foldValue req (rkey i off) (t.foldData (rkey i off))) s
  else insts.foldl (fun u i => u.noteWrite req (rkey i off) 0xFFFFFFFF) t

/-- A write of the register at an offset folded, in each of some instances. -/
def State.foldWrites (s : State) (req off : Nat) (insts : List Nat) : State :=
  insts.foldl (fun s i => s.foldWrite req (rkey i off)) s

end Sys2Proof.Machine
end

