-- ==== Sys2Proof/Machine/Store.lean ====
section
/-!
DEFINITION. The frame store, queues and order restoration (07_store_order): cells and entries (R186 to R190),
spraying (R202), admission and spill (R193), the reorder contexts (R204 to R206), stage 8 (R195, R338, R390), and
restaging (R196).
-/

namespace Sys2Proof.Machine
open Host (Outcome)

/-! ### Frames and queues -/

/-- The bytes of a frame as stored, destination address through FCS (R186). -/
def QFrame.len (q : QFrame) : Nat := q.f.body.length + 4

/-- The frame-store cells of a frame (R186). -/
def QFrame.fsCells (q : QFrame) : Nat := ceilDiv q.len 256

def QEnt.frames : QEnt → List QFrame
  | .one q => [q]
  | .run fs => fs

def QEnt.isRun : QEnt → Bool
  | .one _ => false
  | .run _ => true

/-- The numbers of the delivery queues of receive rings and cores, and of the Surok queues. -/
def qRing (r : Nat) : Nat := 4096 + r
def qCore (k : Nat) : Nat := 4224 + k
def qSurok (g : Nat) : Nat := 4240 + g

def State.queue (s : State) (q : Nat) : List QEnt := tget (fun _ => []) s.store.queues q
def State.setQueue (s : State) (q : Nat) (l : List QEnt) : State :=
  { s with store := { s.store with queues := tput (fun _ => []) s.store.queues q l } }

/-- The frames of a queue in order. -/
def State.qFrames (s : State) (q : Nat) : List QFrame := (s.queue q).flatMap QEnt.frames

/-- bytes_q: the bytes queued, deep runs included (R193). -/
def State.qBytes (s : State) (q : Nat) : Nat := ((s.qFrames q).map QFrame.len).sum

/-- How many frames a queue holds. -/
def State.qCount (s : State) (q : Nat) : Nat := (s.qFrames q).length

def State.ctxOf (s : State) (chord g : Nat) : Ctx := tget (fun _ => Ctx.reset) s.store.ctx (8 * chord + g)
def State.setCtx (s : State) (chord g : Nat) (x : Ctx) : State :=
  { s with store := { s.store with ctx := tput (fun _ => Ctx.reset) s.store.ctx (8 * chord + g) x } }

def Ctx.fifoOf (x : Ctx) (m : Nat) : List (Nat × QFrame) := tget (fun _ => []) x.fifo m

/-! ### Entries (R190) -/

/-- The entries in use of an octant: those of its channels' queues and of the contexts whose home it is. -/
def State.descUsed (s : State) (o : Nat) : Nat :=
  ((s.store.queues.filter (fun e => decide (e.1 < 4096) && e.1 / 512 == o)).map (fun e => e.2.length)).sum +
    ((s.store.ctx.filter (fun e => s.rd (F.QSH_CHORD_CFG_HOME (e.1 / 8)) 0 == o)).map
      (fun e => (e.2.fifo.map (fun x => x.2.length)).sum)).sum

/-- The entries in use of the device pool. -/
def State.devUsed (s : State) : Nat :=
  ((s.store.queues.filter (fun e => decide (4096 ≤ e.1))).map (fun e => e.2.length)).sum

/-- Whether the pool of a queue has an entry free. -/
def State.entryFree (s : State) (q : Nat) : Bool :=
  if q < 4096 then decide (s.descUsed (q / 512) < 131072) else decide (s.devUsed < 65536)

/-- A frame dropped for want of an entry counts where its pool is. -/
def State.countNoEntry (s : State) (q : Nat) : State :=
  if q < 4096 then s.inc F.OCT_DESC_FULL (q / 512) else s.inc F.DEV_DESC_FULL 0

/-! ### Slices -/

def State.held (s : State) (o : Nat) : Nat := tget (fun _ => 0) s.store.held o
def State.pool (s : State) (o : Nat) : Nat := tget (fun _ => 0) s.store.pool o

/-- Staging cells in use in an octant (CH_BOW_STAT.STAGED of its channels). -/
def State.stagedIn (s : State) (o : Nat) : Nat :=
  ((List.range 8).map (fun i => s.rd F.CH_BOW_STAT_STAGED (8 * o + i))).sum

/-- Cells of a slice in use, staging and restage pool included (OCT_STORE_USE). -/
def State.sliceUsed (s : State) (o : Nat) : Nat := s.held o + s.pool o + s.stagedIn o

/-- Free cells of a slice outside the staging cells and the restage pool (R193): the staging cells of its TERM
channels and the pool are set aside whole. -/
def State.sliceFree (s : State) (o : Nat) : Nat :=
  let terms := (List.range 8).filter (fun i => s.role (8 * o + i) == roleTerm)
  98304 - s.rd F.OCT_STORE_RETIRED o - (terms.map (fun i => s.rd F.CH_BOW_CFG_STAGE_CELLS (8 * o + i))).sum -
    s.rd F.OCT_STORE_RES_RESTAGE_CELLS o - s.held o

/-- OCT_STORE_USE and its peak brought up to date. -/
def State.noteUse (s : State) (o : Nat) : State :=
  let u := s.sliceUsed o
  let s := s.wr F.OCT_STORE_USE o u
  if s.rd F.OCT_STORE_PEAK o < u then s.wr F.OCT_STORE_PEAK o u else s

def State.setHeld (s : State) (o n : Nat) : State :=
  ({ s with store := { s.store with held := tput (fun _ => 0) s.store.held o n } }).noteUse o
def State.setPool (s : State) (o n : Nat) : State :=
  ({ s with store := { s.store with pool := tput (fun _ => 0) s.store.pool o n } }).noteUse o

/-- Cells of an entry channel's share (CH_STORE_USE); an injected or Surok frame counts for no channel (R12). -/
def State.chUse (s : State) (q : QFrame) (n : Nat) : State :=
  if q.f.src = 0 then s.wr F.CH_STORE_USE q.f.entry n else s

/-- The cells that a frame holds are free again, with its advance cell where its run ends. -/
def State.release (s : State) (q : QFrame) : State :=
  if q.deep != 0 then s.dropDeep q.deep true
  else if q.restaged then (s.freeFs q.cells).setPool q.slice (s.pool q.slice - q.cells.length)
  else ((s.chUse q (s.rd F.CH_STORE_USE q.f.entry - q.cells.length)).freeFs q.cells).setHeld q.slice (s.held q.slice - q.cells.length)

/-- The octant in whose slice a frame is written (R11, R12, R331): its entry octant, or for an injected frame the
owner of its destination, the next awake octant for a ring, core or Surok queue. -/
def State.homeOct (s : State) (q : QFrame) : Nat :=
  if q.f.src = 0 then octOf q.f.entry
  else if q.f.src = 3 then q.f.entry % 8
  else if q.kind = 0 || q.kind = 1 then q.dest / 512
  else
    let o := q.dest % 8
    match (List.range 8).find? (fun i => !s.asleep ((o + i) % 8)) with
    | some i => (o + i) % 8
    | none => o

/-! ### Chords (R200 to R202) -/

/-- None of LOS, LOCW, LOF and SF is set on a channel. -/
def State.clearOfDefects (s : State) (c : Nat) : Bool :=
  !s.on F.CH_DEF_STAT_LOS c && !s.on F.CH_DEF_STAT_LOCW c && !s.on F.CH_DEF_STAT_LOF c && !s.on F.CH_DEF_STAT_SF c

/-- The member of a chord at an index: a channel, 64 for the Surok link, or none where it is invalid. -/
def State.member (s : State) (chord i : Nat) : Option Nat :=
  let m := s.rd (F.QSH_CHORD_M_MEMBER chord i) 0
  if s.on (F.QSH_CHORD_M_VALID chord i) 0 && decide (m ≤ 64) then some m else none

/-- T-OPERATE in CH_TERM_CTL.STATE. -/
def tOperate : Nat := 4

/-- Whether a channel is up for sending (R201). -/
def State.txUp (s : State) (c : Nat) : Bool :=
  (s.role c == roleHead || s.role c == roleTerm) && s.pairActive c && s.clearOfDefects c &&
    (s.role c != roleTerm || s.rd F.CH_TERM_CTL_STATE c == tOperate)

/-- Whether a member is up for receiving; the Surok member while the partner is not declared FAILED (R201). -/
def State.rxUp (s : State) (m : Nat) : Bool :=
  if m = 64 then s.rd F.TWN_STAT_PARTNER 0 != 1 else s.clearOfDefects m

/-- The members of a chord that are up, as bits: QSH_CHORD_STAT.TX_UP and RX_UP. The Surok link only receives. -/
def State.txUpMask (s : State) (chord : Nat) : Nat :=
  (List.range 8).foldl (fun v i => match s.member chord i with
    | some m => if m < 64 && s.txUp m then v + 2 ^ i else v
    | none => v) 0
def State.rxUpMask (s : State) (chord : Nat) : Nat :=
  (List.range 8).foldl (fun v i => match s.member chord i with
    | some m => if s.rxUp m then v + 2 ^ i else v
    | none => v) 0

/-- Whether a frame carries a Klola tag as it stands (R198). -/
def taggedBody (body : List Byte) : Bool := fieldBE body 12 2 == 0x88B5

/-- The member's queue for a chord and class group. -/
def State.memberQueue (s : State) (chord g c : Nat) : Nat := 64 * c + 8 * g + s.rd (F.QSH_CHORD_CFG_QK chord) 0

/-- The member that a frame is sprayed to (R202): the smallest bytes_q × 256 / WEIGHT for a tagged frame, the flow
hash among the members up for another. -/
def State.sprayMember (s : State) (chord g hash : Nat) (tagged : Bool) : Option Nat :=
  let up := bitsSet 8 (s.txUpMask chord)
  let load (i : Nat) : Nat := s.qBytes (s.memberQueue chord g ((s.member chord i).getD 0))
  let weight (i : Nat) : Nat := max 1 (s.rd (F.QSH_CHORD_M_WEIGHT chord i) 0)
  if !s.on (F.QSH_CHORD_CFG_TX_EN chord) 0 || up.isEmpty then none
  else if tagged then
    up.foldl (fun best i => match best with
      | none => some i
      | some b => if load i * weight b < load b * weight i then some i else some b) none
  else up[hash % up.length]?

/-- A frame for a chord gets its member's queue, TID and BC, or is dropped with no member up (R202). -/
def State.spray (s : State) (q : QFrame) : Option QFrame × State :=
  let chord := q.dest % 32
  let g := q.dest / 4096 % 8
  match s.sprayMember chord g q.hash (taggedBody q.f.body) with
  | none => (none, s.inc (F.QSH_CHORD_NOUP chord) 0)
  | some i =>
    let c := (s.member chord i).getD 0
    let bc := s.on (F.QSH_CHORD_M_BC chord i) 0
    (some { q with dest := s.memberQueue chord g c, tid := s.rd (F.QSH_CHORD_M_TID chord i) 0, bc }, s)

/-! ### Stage 8 -/

/-- The queue that a destination names: for a chord the member's, after spraying. -/
def QFrame.target (q : QFrame) : Nat :=
  if q.kind = 2 then qRing q.dest
  else if q.kind = 3 then qCore q.dest
  else if q.kind = 4 then qSurok (q.dest % 8)
  else q.dest

/-- The partner declared (R336): FAILED or LINK_LOST. -/
def State.declared (s : State) : Bool :=
  let p := s.rd F.TWN_STAT_PARTNER 0
  p == 1 || p == 2

/-- Where a frame queued to an L0 queue goes (R338): a STANDBY channel's frames to the Surok queue of their class
group, or nowhere while the partner is declared. -/
def State.redirect (s : State) (q : Nat) : Option Nat :=
  if 4096 ≤ q || s.pairActive (q / 64) then some q
  else if s.declared then none
  else some (qSurok (q % 64 / 8))

/-- The frame at the tail of a queue's last entry, where that entry is a run marker (R195). -/
def State.tailRun (s : State) (q : Nat) : Option Nat :=
  match (s.queue q).getLast? with
  | some (.run fs) => fs.getLast?.map (·.deep)
  | _ => none

/-- A frame put at the tail of a queue: into the run there if both are deep, else as an entry of its own (R195). A
run's advance cell that the frame did not take goes back to the free list. -/
def State.append (s : State) (q : Nat) (x : QFrame) : State :=
  let l := s.queue q
  match x.deep != 0, l.getLast? with
  | true, some (.run fs) =>
    let s := match fs.getLast? with
      | some t => ((s.freeCells (s.deepFr t.deep).adv.toList).modDeepFr t.deep (fun d => { d with adv := none }))
      | none => s
    s.setQueue q (l.dropLast ++ [.run (fs ++ [x])])
  | _, _ =>
    if s.entryFree q then s.setQueue q (l ++ [if x.deep != 0 then .run [x] else .one x])
    else (s.countNoEntry q).release x

/-- A frame for a receive ring (R276) or a core (R284): dropped where its queue is at its limit. -/
def State.appendLimited (s : State) (q : Nat) (x : QFrame) (limit : Nat) (fld : Fld) (inst : Nat) : State :=
  if max 1 limit ≤ s.qCount q then (s.inc fld inst).release x else s.append q x

/-- Stage 8: a frame enters the queue of its destination (R195), is redirected or dropped for a STANDBY channel
(R338), or dropped for a sleeping octant, which it wakes (R390). -/
def State.enqueue (s : State) (x : QFrame) : State :=
  if x.kind = 2 then
    s.appendLimited (qRing x.dest) x (s.rd F.HDMA_RING_QMAX x.dest) F.HDMA_RING_QDROP x.dest
  else if x.kind = 3 then
    s.appendLimited (qCore x.dest) x (s.rd (F.HDMA_CORE_QMAX x.dest) 0) (F.HDMA_CORE_DROP x.dest) 0
  else match s.redirect x.target with
    | none => (s.inc F.TWN_STBY_DROP 0).release x
    | some q =>
      if 4096 ≤ q then s.append q x
      else if !s.octRuns (q / 512) then ((s.inc F.PWR_SLEEP_DROP 0).release x).wakeOct (q / 512) wkFrame
      else
        let s := s.append q x
        if s.on F.CH_PWR_STAT_DOZING (q / 64) && s.wakeEnabled (q / 512) wkFrame then s.wakeChannel (q / 64) else s

/-- A queue with only the frames whose place, counted from `i`, is to be kept; an emptied run marker goes. -/
def keepOnly (keep : Nat → Bool) : List QEnt → Nat → List QEnt
  | [], _ => []
  | .one x :: l, i => (if keep i then [.one x] else []) ++ keepOnly keep l (i + 1)
  | .run fs :: l, i =>
    let fs' := ((fs.zipIdx i).filter (fun e => keep e.2)).map (·.1)
    (if fs'.isEmpty then [] else [.run fs']) ++ keepOnly keep l (i + fs.length)

/-- Plans with the places of a queue's frames counted without the i-th, which leaves it; a plan that held it loses
it. -/
def plansWithout (q i : Nat) (ps : List Plan) : List Plan :=
  ps.map (fun p => { p with frames := (p.frames.filter (fun f => !(f.queue == q && f.ix == i))).map (fun f =>
    if f.queue = q ∧ i < f.ix then { f with ix := f.ix - 1 } else f) })

/-- The i-th frame of a queue taken out, its cells not yet released. -/
def State.pull (s : State) (q i : Nat) : State :=
  let s := s.setQueue q (keepOnly (· != i) (s.queue q) 0)
  if q < 4096 then
    let t := tget (fun _ => Tree.reset) s.trees (q / 64)
    if t.plans.isEmpty then s
    else { s with trees := tput (fun _ => Tree.reset) s.trees (q / 64) { t with plans := plansWithout q i t.plans } }
  else s

/-- The plans of a channel without their frames, which have left its queues. -/
def State.unplan (s : State) (c : Nat) : State :=
  let t := tget (fun _ => Tree.reset) s.trees c
  { s with trees := tput (fun _ => Tree.reset) s.trees c { t with plans := t.plans.map (fun p => { p with frames := [] }) } }

/-- A queue that has become empty loses its deficit, and so does its group once all eight are (R213). -/
def State.dropDeficit (s : State) (q : Nat) : State :=
  if 4096 ≤ q || s.qCount q != 0 then s
  else
    let zero (s : State) (i : Nat) : State := { s with egress := { s.egress with deficit := tput (fun _ => 0) s.egress.deficit i 0 } }
    let s := zero s q
    if (List.range 8).all (fun k => s.qCount (q / 8 * 8 + k) == 0) then zero s (4096 + q / 8) else s

/-- The frames queued on a channel that becomes STANDBY move to the Surok queues in queue order (R338), or are
dropped while the partner is declared. -/
def State.moveToSurok (s : State) (c : Nat) : State :=
  (List.range 64).foldl (fun s k =>
    let q := 64 * c + k
    let fs := s.qFrames q
    (fs.foldl (fun s x => match s.redirect q with
      | some d => if d = q then s else s.append d { x with kind := 0, dest := q }
      | none => (s.inc F.TWN_STBY_DROP 0).release x) (if fs.isEmpty then s else (s.setQueue q []).dropDeficit q))) s

/-- A pair set STANDBY (R338). -/
def State.pairStandby (s : State) (c : Nat) : State :=
  if s.pairValid c && s.pairActive c then ((s.wr (F.TWN_PAIR_STATE c) 0 0).moveToSurok c).unplan c else s

/-! ### Reorder contexts (R199, R204 to R208) -/

/-- The difference of two origin stamps as a 40-bit two's-complement number (R199). -/
def diff40 (a b : Nat) : Int :=
  let d : Nat := (a + 2 ^ 40 - b % 2 ^ 40) % 2 ^ 40
  if d < 2 ^ 39 then (d : Int) else (d : Int) - 2 ^ 40

/-- Peg-0 time in units of 0.25 ns, modulo 2^40. -/
def State.now4 (s : State) : Nat := s.now16 / 4 % 2 ^ 40

/-- Whether a frame is a keepalive (R203): addresses and EtherType 0 around its tag, LOB set. -/
def isKeepalive (f : Frame) : Bool :=
  f.kv && (f.body.take 12).all (· == 0) && bit f.kflags 1 && fieldBE f.body 20 2 == 0

/-- The member of a chord on which a frame arrived, by its entry. -/
def State.memberOf (s : State) (chord : Nat) (f : Frame) : Option Nat :=
  let m := if f.src = 3 then 64 else f.entry
  (List.range 8).find? (fun i => s.member chord i == some m)

/-- The context that a frame enters at stage 7 (R204), as (chord, member): tagged, from a line lane or the Surok
link, by a member of an RX_EN chord. Copies do not pass stage 7 (log entry 44). -/
def State.ctxFor (s : State) (x : QFrame) : Option (Nat × Nat) :=
  if !x.f.kv || x.copy || !(x.f.src == 0 || x.f.src == 3) || !s.on (F.QSH_CHORD_CFG_RX_EN x.f.kchord) 0 then none
  else (s.memberOf x.f.kchord x.f).map (fun i => (x.f.kchord, i))

/-- Whether a frame is a stray (R204): tagged, on a channel that is no member of its chord. -/
def State.stray (s : State) (x : QFrame) : Bool :=
  x.f.kv && !x.copy && x.f.src == 0 && (s.memberOf x.f.kchord x.f).isNone

/-- The class group of a destination (R204); a ring or core has none and counts as 0 (log entry 44). -/
def QFrame.group (x : QFrame) : Nat :=
  if x.kind = 0 || x.kind = 1 then x.dest % 64 / 8 else if x.kind = 4 then x.dest % 8 else 0

/-- WINDOW of a chord in µs (R207). -/
def State.windowUs (s : State) (chord : Nat) : Nat := max 1 (min 1024 (s.rd (F.QSH_CHORD_CFG_WINDOW chord) 0))

/-- A context with the members that have come up since it was last looked at set to unknown (R205). -/
def State.ctxRefresh (s : State) (chord : Nat) (x : Ctx) : Ctx :=
  let up := s.rxUpMask chord
  let rose := (bitsSet 8 up).filter (fun i => !bit x.up i)
  { x with up, known := rose.foldl (fun k i => tput (fun _ => 0) k i 0) x.known }

/-- known[m] taken to max(known[m], s), or to s where it is unknown. -/
def Ctx.know (x : Ctx) (m st : Nat) : Ctx :=
  let k := tget (fun _ => 0) x.known m
  { x with known := tput (fun _ => 0) x.known m (if k = 0 || 0 < diff40 st (k - 1) then st + 1 else k) }

/-- The member whose FIFO head has the smallest stamp; ties: the lowest index. -/
def Ctx.pick (x : Ctx) : Option (Nat × Nat × QFrame) :=
  (List.range 8).foldl (fun best m => match (x.fifoOf m).head? with
    | none => best
    | some h => match best with
      | none => some (m, h.1, h.2)
      | some b => if diff40 h.2.f.korigin b.2.2.f.korigin < 0 then some (m, h.1, h.2) else best) none

/-- The earliest arrival among the FIFO heads. -/
def Ctx.earliest (x : Ctx) : Option Nat :=
  (List.range 8).foldl (fun best m => match (x.fifoOf m).head? with
    | none => best
    | some h => match best with
      | none => some h.1
      | some b => if h.1 < b then some h.1 else some b) none

/-- Every member other than a that is up has delivered past a stamp, less the guard (R205). -/
def State.ctxClear (s : State) (chord : Nat) (x : Ctx) (a st : Nat) : Bool :=
  let guard : Int := 4 * (s.rd (F.QSH_CHORD_GRD chord) 0 : Int)
  (bitsSet 8 x.up).all (fun m => m == a ||
    (let k := tget (fun _ => 0) x.known m
     k != 0 && decide (guard ≤ diff40 (k - 1) st)))

/-- A frame leaves a context for stage 8, marked and counted. -/
def State.ctxRelease (s : State) (chord : Nat) (x : QFrame) (late expired : Bool) : State :=
  let s := if late then s.inc (F.QSH_CHORD_LATE chord) 0 else s
  let s := if expired then s.inc (F.QSH_CHORD_EXPIRED chord) 0 else s
  s.enqueue { x with late := x.late || late, expired := x.expired || expired }

/-- The head of a member's FIFO taken out of a context, front moved (R205). -/
def State.ctxPop (s : State) (chord g a : Nat) (x : QFrame) : State :=
  let c := s.ctxOf chord g
  let st := x.f.korigin
  s.setCtx chord g { c with fifo := tput (fun _ => []) c.fifo a ((c.fifoOf a).drop 1),
                            front := match c.front with
                              | none => some st
                              | some f => if 0 < diff40 st f then some st else some f }

/-- The release loop (R205), with at most n releases; `all` releases every frame, as a reset does (R206). -/
def State.releaseLoop (s : State) (chord g : Nat) (all : Bool) : Nat → State
  | 0 => s
  | n + 1 =>
    let c := s.ctxOf chord g
    match c.pick, c.earliest with
    | some (a, _, x), some e =>
      let expired := all || decide (4000 * s.windowUs chord ≤ s.now16 / 4 - e)
      if expired || s.ctxClear chord c a x.f.korigin then
        ((s.ctxPop chord g a x).ctxRelease chord x false expired).releaseLoop chord g all n
      else s
    | _, _ => s

/-- How many frames a context holds. -/
def Ctx.count (x : Ctx) : Nat := (x.fifo.map (fun e => e.2.length)).sum

/-- The release loop run to its end. -/
def State.runLoop (s : State) (chord g : Nat) : State :=
  let s := s.setCtx chord g (s.ctxRefresh chord (s.ctxOf chord g))
  s.releaseLoop chord g false (s.ctxOf chord g).count

/-- REORDER_RELEASE_LOOP (R205): the loop of one context, every 0.5 µs. -/
def reorderLoop (chord group : Nat) (s : State) : State := s.runLoop chord group

/-- A context reset (R206): what it holds is released with EXPIRED, known is unknown, front unset; the history
stays (R350). -/
def State.ctxReset (s : State) (chord g : Nat) : State :=
  let s := s.releaseLoop chord g true (s.ctxOf chord g).count
  s.setCtx chord g { s.ctxOf chord g with known := [], front := none, up := 0 }

/-- The contexts reset of every chord of which a channel is a member (R206). -/
def State.resetChordsOf (s : State) (c : Nat) : State :=
  (List.range 32).foldl (fun s ch =>
    if (List.range 8).any (fun i => s.member ch i == some c) then (List.range 8).foldl (fun s g => s.ctxReset ch g) s
    else s) s

/-- The terminal records of a head end back to H-IDLE, with all that a record loses there (R345, R107). -/
def State.idleRecords (s : State) (c : Nat) : State :=
  let ts := (List.range 32).filter (fun t => s.on (F.CH_TREC_STATE_STATE t) c)
  let s := ts.foldl (fun s t =>
    let s := ((s.wr (F.CH_TREC_STATE_STATE t) c 0).wr (F.CH_TREC_STATE_ATTEST_OK t) c 0).wr (F.CH_TREC_DRIFT t) c 0
    let s := (s.wr (F.CH_GRANT_R t) c 0).wr (F.CH_GRANT_G t) c 0
    (List.range 4).foldl (fun s k => s.wr (F.CH_GRANT_CG t k) c 0) s) s
  let x := tget (fun _ => Tree.reset) s.trees c
  { s with trees := tput (fun _ => Tree.reset) s.trees c { x with terms := [] } }

/-- A valid pair becomes STANDBY: its frames leave (R338), its chords are reset (R206), and a head end's records are
H-IDLE (R345). -/
def State.goStandby (s : State) (c : Nat) : State :=
  if s.pairValid c && s.pairActive c then
    let s := (s.pairStandby c).resetChordsOf c
    if s.role c = roleHead then s.idleRecords c else s
  else s

/-- A frame enters its context on a member (R204, R205): a keepalive too that of its action's destination. -/
def State.ctxArrive (s : State) (chord m : Nat) (x : QFrame) : State :=
  let st := x.f.korigin
  if isKeepalive x.f then
    ((s.setCtx chord x.group ((s.ctxRefresh chord (s.ctxOf chord x.group)).know m st)).runLoop chord x.group).release x
  else
    let g := x.group
    let c := (s.ctxRefresh chord (s.ctxOf chord g)).know m st
    let dup := bit x.f.kflags 2
    let key := (st, x.f.arrLen)
    if dup && c.hist.contains key then
      (((s.setCtx chord g c).inc (F.QSH_CHORD_DUPDROP chord) 0).release x).runLoop chord g
    else
      let hist := if dup then (c.hist ++ [key]).drop (c.hist.length + 1 - 1024) else c.hist
      let c := { c with hist }
      let behind := match c.front with | none => false | some f => decide (diff40 st f < 0)
      let s := s.setCtx chord g c
      let home := s.rd (F.QSH_CHORD_CFG_HOME chord) 0
      let s := if behind then s.ctxRelease chord x true false
        else if 131072 ≤ s.descUsed home then (s.inc F.OCT_DESC_FULL home).release x
        else s.setCtx chord g { c with fifo := tput (fun _ => []) c.fifo m (c.fifoOf m ++ [(s.now16 / 4, x)]) }
      s.runLoop chord g

/-- The release condition of R205 evaluated at a frame's arrival (R193). -/
def State.releasableNow (s : State) (chord m : Nat) (x : QFrame) : Bool :=
  let st := x.f.korigin
  if isKeepalive x.f then true
  else
    let c := (s.ctxRefresh chord (s.ctxOf chord x.group)).know m st
    if bit x.f.kflags 2 && c.hist.contains (st, x.f.arrLen) then true
    else if (match c.front with | none => false | some f => decide (diff40 st f < 0)) then true
    else
      let smallest := match c.pick with
        | none => true
        | some (a, _, h) =>
          let d := diff40 st h.f.korigin
          decide (d < 0) || (d == 0 && decide (m < a))
      (c.fifoOf m).isEmpty && smallest && s.ctxClear chord c m st

/-- Every context with the members that came up since set to unknown: run after each command, so that no rise of a
member is missed (R205). -/
def State.refreshContexts (s : State) : State :=
  s.store.ctx.foldl (fun s e => s.setCtx (e.1 / 8) (e.1 % 8) (s.ctxRefresh (e.1 / 8) e.2)) s

/-! ### Admission and spill (R193, R194) -/

/-- The cap of the deep-path budget in 1/128 byte (R194). -/
def State.budgetCap (s : State) : Nat := max 1 (s.rd F.MEM_DEEP_BURST_BURST 0) * 1024 * 128

/-- reserve[dp] in 1/128 byte. -/
def State.reserve (s : State) (dp : Nat) : Nat :=
  let n := if dp = 1 then s.rd F.MEM_DEEP_BURST_RES1 0 else if dp = 2 then s.rd F.MEM_DEEP_BURST_RES2 0
    else if dp = 3 then s.rd F.MEM_DEEP_BURST_RES3 0 else 0
  n * s.budgetCap / 16

/-- A refill of the budget (R194): RATE × 62.5 × a / 64 bytes, capped. -/
def State.refillBudget (s : State) : State :=
  let rate := min 10240 (s.rd F.MEM_DEEP_BUDGET 0)
  { s with store := { s.store with tokens := min s.budgetCap (s.store.tokens + rate * 125 * s.memActive) } }

/-- DEEP_BUDGET_REFILL (R194). -/
def deepBudgetRefill (s : State) : State := s.refillBudget

/-- The expected wait of a queue lies above SPILL_WAIT (R193). -/
def State.waits (s : State) (q o : Nat) : Bool :=
  let b := s.qBytes q
  let floor := max 1 (s.rd F.OCT_STORE_DRAIN o) * 1024
  let drain64 := max (tget (fun _ => 0) s.store.drained q) (64 * floor)
  decide (0 < b) && decide (s.rd F.OCT_STORE_CFG_SPILL_WAIT o < 64 * b / drain64)

/-- The reason for which a frame spills, if any: the counter of the last that applies (R193). -/
def State.spillReason (s : State) (x : QFrame) (o : Nat) : Option Fld :=
  let r := if (x.kind == 0 || x.kind == 1 || x.kind == 4) && s.waits x.target o then some F.OCT_SPILL_WAIT else none
  let r := match s.ctxFor x with
    | some (chord, m) =>
      if decide (32 < s.windowUs chord) && !s.releasableNow chord m x then some F.OCT_SPILL_REORD else r
    | none => r
  if min 98304 (s.rd F.OCT_STORE_CFG_SPILL_MARK o) < s.sliceUsed o + x.fsCells then some F.OCT_SPILL_CONG else r

/-- The run that a frame admitted now would join: the tail run of its queue, for a frame that no context holds. -/
def State.joinRun (s : State) (x : QFrame) : Option Nat :=
  if (s.ctxFor x).isSome then none
  else match s.redirect x.target with
    | none => none
    | some q => s.tailRun q

/-- Whether the deep store takes a frame (R193, R303): cells, budget, and a poison table with room. -/
def State.deepTakes (s : State) (x : QFrame) : Bool :=
  decide (s.cellsNeeded x.len (s.joinRun x) ≤ s.deepFree) &&
    decide (64 * deepGranuleCount x.len * 128 + s.reserve x.dp ≤ s.store.tokens) &&
    decide (s.mem.poison.length < 256)

/-- Stage 6 writes a frame into the deep store (R192, R193). -/
def State.putDeep (s : State) (x : QFrame) (fld : Fld) (o : Nat) : QFrame × State :=
  let s := { s with store := { s.store with tokens := s.store.tokens - 64 * deepGranuleCount x.len * 128 } }
  let r := s.writeDeep x x.len (s.joinRun x)
  ({ x with deep := r.1, cells := [], slice := o }, r.2.inc fld o)

/-- Stage 6 writes a frame into the slice, or drops it (R193). -/
def State.putSlice (s : State) (x : QFrame) (o : Nat) : Option QFrame × State :=
  let n := x.fsCells
  if n ≤ s.sliceFree o then
    let a := s.allocFs o n
    (some { x with deep := 0, cells := a.1, slice := o },
      (a.2.chUse x (s.rd F.CH_STORE_USE x.f.entry + n)).setHeld o (s.held o + n))
  else (none, s.inc F.OCT_STORE_DROP o)

/-- Stage 6 stores a frame (R193). -/
def State.place (s : State) (x : QFrame) : Option QFrame × State :=
  let o := s.homeOct x
  match s.spillReason x o with
  | none => s.putSlice x o
  | some fld =>
    if s.deepTakes x then let r := s.putDeep x fld o; (some r.1, r.2)
    else (s.inc (F.MEM_DEEP_REFUSED x.dp) 0).putSlice x o

/-- Stage 7 and 8 of a stored frame. -/
def State.order (s : State) (x : QFrame) : State :=
  match s.ctxFor x with
  | some (chord, m) => s.ctxArrive chord m { x with member := m }
  | none => (if s.stray x then s.inc (F.QSH_CHORD_STRAY x.f.kchord) 0 else s).enqueue x

/-- A frame leaves stage 5 for its destination: spraying, stages 6 to 8. -/
def State.admitFrame (s : State) (x : QFrame) : State :=
  let r := if x.kind = 1 then s.spray x else (some x, s)
  match r.1 with
  | none => r.2
  | some x =>
    let p := r.2.place x
    match p.1 with
    | none => p.2
    | some x => p.2.order x

/-! ### Frames that leave a queue -/

/-- The head frame of a queue, if it can be read now (R195, R197): a run marker blocks, except in TERM role, where
the real-time port reads it. -/
def State.headOf (s : State) (q : Nat) : Option QFrame :=
  match (s.queue q).head? with
  | some (.one x) => some x
  | some (.run (x :: _)) => if decide (q < 4096) && s.role (q / 64) == roleTerm && s.deepReady x.deep then some x else none
  | _ => none

/-- Whether a queue is held up by a deep head (R197). -/
def State.deepBlocked (s : State) (q : Nat) : Bool :=
  match (s.queue q).head? with
  | some (.run _) => (s.headOf q).isNone
  | _ => false

/-- A queue without its head frame. -/
def dropHead : List QEnt → List QEnt
  | .run (_ :: y :: fs) :: l => .run (y :: fs) :: l
  | _ :: l => l
  | [] => []

/-- The head frame of a queue taken out; its cells stay to be released once it has been read. -/
def State.dequeue (s : State) (q : Nat) : State := s.setQueue q (dropHead (s.queue q))

/-- Bytes that leave a queue count for its drain rate (R193). -/
def State.countDrain (s : State) (q bytes : Nat) : State :=
  let d := tget (fun _ => 0) s.store.dequeued q + bytes
  { s with store := { s.store with dequeued := tput (fun _ => 0) s.store.dequeued q d } }

/-- What the reading of a frame's words finds (R187): corrected words by row, and whether a word is uncorrectable.
`i` is the frame's number among those read. -/
def State.readWords (s : State) (r : FsRead) (i o : Nat) : State × Bool :=
  let s := (r.corrected.filter (fun e => e.1 == i && decide (e.2.toNat < 6144))).foldl
    (fun s e => s.watchRow o e.2.toNat) s
  if r.uncorrectable.contains i then ((s.inc F.OCT_STORE_UNC o).watch fsUnc o, true) else (s, false)

/-! ### Restaging (R196) -/

/-- The bytes of the slice-held frames ahead of a queue's first run marker. -/
def aheadBytes : List QEnt → Nat
  | .one x :: l => x.len + aheadBytes l
  | _ => 0

/-- The first run of a queue. -/
def firstRun : List QEnt → List QFrame
  | .run fs :: _ => fs
  | .one _ :: l => firstRun l
  | [] => []

/-- The octant whose slice takes a queue's restaged frames: the egress octant, for a Surok queue that of R12. -/
def restageOct (q : Nat) : Nat := if q < 4096 then q / 512 else q % 8

/-- Whether the restage agent serves a queue (R196): HEAD and CLIENT channels and the Surok queues. -/
def State.restages (s : State) (q : Nat) : Bool :=
  (decide (4240 ≤ q) && decide (q < 4248)) ||
    (decide (q < 4096) && (s.role (q / 64) == roleHead || s.role (q / 64) == roleClient))

/-- The frames of a run that the agent starts to read, in order (R196): until the bytes ahead rise above the mark or
the pool has no room. -/
def State.restageRun (s : State) (q ahead mark : Nat) : List QFrame → State
  | [] => s
  | x :: fs =>
    let o := restageOct q
    if mark < ahead then s
    else if (s.deepFr x.deep).reading then s.restageRun q (ahead + x.len) mark fs
    else if !s.deepReady x.deep || s.rd F.OCT_STORE_RES_RESTAGE_CELLS o < s.pool o + x.fsCells then s
    else ((s.setPool o (s.pool o + x.fsCells)).readDeep whoRestage x.deep x.len o false).restageRun q (ahead + x.len)
      mark fs

/-- RESTAGE_READ (R196). -/
def restageRead (q : Nat) (s : State) : State :=
  let l := s.queue q
  let mark := 1024 * s.rd F.OCT_STORE_RES_RESTAGE_KIB (restageOct q)
  if s.restages q && decide (aheadBytes l < mark) then s.restageRun q (aheadBytes l) mark (firstRun l) else s

/-- The entries of a queue with the first frame of its first run turned into a descriptor in the slice (R196). -/
def unrun (oct : Nat) (cells : List Nat) : List QEnt → List QEnt
  | .run (x :: fs) :: l =>
    .one { x with deep := 0, restaged := true, slice := oct, cells } :: (if fs = [] then l else .run fs :: l)
  | e :: l => e :: unrun oct cells l
  | [] => []

/-- The frames of a queue's first run whose reading has ended take their places in the slice, in order (R196). One that is not the
last of its run needs an entry beside the run's, and is dropped where its pool has none (R190). -/
def State.landRestaged (s : State) (q : Nat) : Nat → State
  | 0 => s
  | n + 1 => match firstRun (s.queue q) with
    | [] => s
    | x :: fs =>
      let d := s.deepFr x.deep
      if d.reading && d.rd == 0 then
        (if fs.isEmpty || s.entryFree q then
          ((s.setQueue q (unrun d.oct d.into (s.queue q))).modDeepFr x.deep (fun d => { d with into := [] })).dropDeep x.deep true
        else
          (((s.countNoEntry q).pull q ((s.qFrames q).findIdx (·.deep == x.deep))).setPool d.oct (s.pool d.oct - x.fsCells)).dropDeep
            x.deep true).landRestaged q n
      else s

end Sys2Proof.Machine
end

