-- ==== Sys2Proof/Machine/Copy.lean ====
section
/-!
DEFINITION. The sending side of the sympathetic copy (13_twin): its records (R342) and the copy buffer (R343), for the
families whose changes it carries.
-/

namespace Sys2Proof.Machine

/-- The types of copy records (Table: Copy record). -/
def rcTrec : Nat := 1
def rcTerm : Nat := 2
def rcFmap : Nat := 3
def rcKey : Nat := 4
def rcReq : Nat := 5
def rcReg : Nat := 6
def rcTbl : Nat := 7
def rcEm : Nat := 8
def rcHand : Nat := 9
def rcBegin : Nat := 10
def rcEnd : Nat := 11

/-- A body filled up to whole words. -/
def padWords (b : List Byte) : List Byte := b ++ List.replicate ((4 - b.length % 4) % 4) 0

/-- The bytes of a record (Table: Copy record). -/
def Rec.bytes (r : Rec) : List Byte :=
  let b := padWords r.body
  toBytes ([r.typ, b.length / 4] ++ bytesBE 2 r.index ++ bytesBE 4 r.seq) ++ b

/-- The copy runs while the partner is up (R343). -/
def State.copying (s : State) : Bool := s.paired && s.rd F.TWN_STAT_PARTNER 0 == 0

/-- The size of the copy buffer (R343). -/
def copyBufferSize : Nat := 262144

/-- One more record put into the copy buffer; a RESYNC_END is what a resync's acknowledgement waits for. -/
def State.putRec (s : State) (typ index : Nat) (body : List Byte) : State :=
  let seq := (s.rd F.TWN_COPY_SEQ 0 + 1) % 2 ^ 32
  let s := s.wr F.TWN_COPY_SEQ 0 seq
  { s with twin := { s.twin with
      buf := s.twin.buf ++ [({ typ, index, seq, body }, none)], resync := if typ = rcEnd then some seq else s.twin.resync } }

/-- The bytes of the records in the copy buffer. -/
def State.bufBytes (s : State) : Nat := (s.twin.buf.map (fun e => e.1.bytes.length)).sum

/-- Whether a record fits into the copy buffer. -/
def State.recFits (s : State) (body : List Byte) : Bool := decide (s.bufBytes + (padWords body).length + 8 ≤ copyBufferSize)

/-- A record sent by the copy (R343): a full buffer asks for a resync; what a resync sends waits until there is room. -/
def State.copyRec (s : State) (typ index : Nat) (body : List Byte) : State :=
  if !s.copying || s.twin.resyncDue then s
  else if s.twin.whole.isEmpty && s.recFits body then s.putRec typ index body
  else if s.twin.resync.isNone then { s with twin := { s.twin with resyncDue := true } }
  else { s with twin := { s.twin with whole := s.twin.whole ++ [(typ, index, body)] } }

/-- The records that a resync still has to send, up to n of them, put into the copy buffer as far as there is room. -/
def State.refill (s : State) : Nat → State
  | 0 => s
  | n + 1 => match s.twin.whole with
    | [] => s
    | (typ, index, body) :: rs =>
      if s.recFits body then ({ s with twin := { s.twin with whole := rs } }.putRec typ index body).refill n else s

/-- Whether this engine's copy carries a channel: its pair is valid and it is the active member. -/
def State.copies (s : State) (c : Nat) : Bool := s.pairValid c && s.pairActive c

/-- INDEX of a record: channel and terminal. -/
def recIndex (c t : Nat) : Nat := 256 * c + t

/-! ### Terminal records, terminals and local requests -/

def State.treeTerm (s : State) (c t : Nat) : Term := tget (fun _ => Term.reset) (tget (fun _ => Tree.reset) s.trees c).terms t

/-- The codewords granted to a terminal after the line tick of its last valid report, up to one before u (R147). -/
def State.grantedSince (s : State) (c t u : Nat) : Nat :=
  let x := s.treeTerm c t
  x.old + ((x.granted.filter (fun e => (match x.lastRep with
    | none => true
    | some m => decide (0 < (e.1 + 2 ^ 32 - m) % 2 ^ 32) && decide ((e.1 + 2 ^ 32 - m) % 2 ^ 32 < 2 ^ 31)) &&
    e.1 != u)).map (·.2)).sum

/-- A TREC body: the 32 bytes of the record, and 16 bytes of grant state, whose layout the spec leaves open: codewords
granted since the last report, p_blk, prev_m, and prev_demand with its top bit set where prev_m holds. -/
def State.trecBody (s : State) (c t : Nat) : List Byte :=
  let x := s.treeTerm c t
  let regs := (List.range 5).flatMap (fun k => bytesBE 4 (s.reg c (0x40500 + 32 * t + 4 * k)).toNat)
  let grant := bytesBE 4 (s.grantedSince c t (2 ^ 32)) ++ bytesBE 4 x.pBlk ++ bytesBE 4 (x.prevM.getD 0) ++
    bytesBE 4 (x.prevDemand + (if x.prevM.isSome then 2 ^ 31 else 0))
  toBytes (regs ++ List.replicate 12 0 ++ grant)

def State.copyTrec (s : State) (c t : Nat) : State :=
  if s.role c = roleHead && s.copies c then s.copyRec rcTrec (recIndex c t) (s.trecBody c t) else s

/-- A TERM body: CH_TERM_CTL, CH_TF_CFG's TID fields, the delay in effect, AT, and the last arrival stamp of block 0 with the
number of its line tick, from which R348 takes the difference (DESIGN CHOICE, log entry 93). -/
def State.termBody (s : State) (c : Nat) : List Byte :=
  let t := tget (fun _ => Tree.reset) s.trees c
  toBytes (bytesBE 4 (s.reg c F.CH_TERM_CTL.off).toNat ++ bytesBE 4 ((s.reg c F.CH_TF_CFG_TID.off).toNat % 64) ++
    bytesBE 4 (s.rd F.CH_TERM_EQD_NOW c) ++ bytesBE 4 (s.rd F.CH_TERM_EQD_AT c) ++
    (match t.arr.head? with | none => List.replicate 12 0 | some a => bytesBE 8 a.stamp0 ++ bytesBE 4 a.ltn))

def State.copyTerm (s : State) (c : Nat) : State :=
  if s.role c = roleTerm && s.copies c then s.copyRec rcTerm (recIndex c 0) (s.termBody c) else s

/-- The codes of REQ (Table: Switching-request encoding). -/
def rqDNR : Nat := 1
def rqWTR : Nat := 5
def rqSD : Nat := 9
def rqSF : Nat := 11
def rqFS : Nat := 13
def rqLO : Nat := 15

/-- The local request of a channel (R340): the highest of the operator's LO or FS, SF, SD and NR. -/
def State.localReq (s : State) (c : Nat) : Nat :=
  let oper := tget (fun _ => 0) s.twin.oper c
  if !s.pairValid c then 0
  else if rqFS ≤ oper then oper
  else if s.on F.CH_DEF_STAT_LOS c || s.on F.CH_DEF_STAT_LOF c || s.on F.CH_DEF_STAT_SF c || s.protectSf c then rqSF
  else if s.on F.CH_DEF_STAT_SD c then rqSD
  else 0

/-- The local requests of every channel, 4 bits each, channel 0 first. -/
def State.localReqs (s : State) : Nat := (List.range 64).foldl (fun v c => v * 16 + s.localReq c) 0

/-- A REQ record where a local request has changed. -/
def State.copyReqs (s : State) : State :=
  if !s.copying then s
  else
    let v := s.localReqs
    if v = s.twin.sentReq then s
    else { s with twin := { s.twin with sentReq := v } }.copyRec rcReq 0 (toBytes (bytesBE 32 v))

end Sys2Proof.Machine
end

