-- ==== Sys2Proof/Machine/Finish.lean ====
section
/-!
DEFINITION. What every command does besides its own effect: nothing while the engine is held in reset or is in device standby, and
at its end the self-fencing of R334, the tasks that its events made READY (R313), the members that came up (R205), and the cycle's
entries of the event log (R408).
-/

namespace Sys2Proof.Machine
open Host (Outcome)

/-- Whether the engine does nothing: held in reset (R375, R376, R422, R441) or in device standby (R397). -/
def State.isHeld (s : State) : Bool :=
  s.pwr.off || s.pwr.tripped || s.pwr.input || s.pwr.standby

/-- Whether the engine holds TWIN_ALIVE low other than by reset (R334). -/
def State.holdLow (s : State) : Bool := s.fout || s.pwr.standby || decide (2 ≤ s.eng.devLate)

/-- The TWIN_ALIVE outputs driven to a level. -/
def State.driveAlive (s : State) (high : Bool) : State :=
  if s.twin.high = high then s else { s with twin := { s.twin with high } }.emit (.twinAlive high)

/-- Self-fencing (R334): in the cycle in which the outputs go low, every valid pair becomes STANDBY, which idles its
transmitter. -/
def State.selfFence (s : State) : State :=
  if s.holdLow = s.twin.fence then s
  else if s.holdLow then
    let s := { s with twin := { s.twin with fence := true } }
    (List.range 64).foldl State.goStandby (s.driveAlive false)
  else { s with twin := { s.twin with fence := false } }

/-- The end of a command. -/
def State.finish (s : State) : State := s.selfFence.readyAll.refreshContexts.copyReqs.flushLog

/-- What a command leaves: its own effect, what ends every command, and the queue as it was. -/
def State.after (s t : State) : State := { t.finish with pending := s.pending }

/-- The outcome of a command that only a running engine carries out. -/
def done (s t : State) : Outcome State Fault Refusal := .next (if s.isHeld then s else s.after t)

/-- The outcome of a requester's write outside the IMG region: until PHASE is RUN the engine ignores those of requesters
other than 17 (R360). -/
def doneWrite (req : Nat) (s t : State) : Outcome State Fault Refusal :=
  done s (if req = 17 || s.rd F.IMG_STAT_PHASE 0 = 4 then t else s)

/-- The outcome of a command that also acts on an engine that is held: releases, feeds, PCI Express. -/
def doneAlways (s t : State) : Outcome State Fault Refusal := .next (s.after t)

/-! ### The store's own commands -/

/-- REORDER_RELEASE_LOOP (R205): the loop of one context, every 0.5 µs. -/
def execReorderReleaseLoop (chord : Fin 32) (group : Fin 8) (s : State) : Outcome State Fault Refusal :=
  done s (reorderLoop chord group s)

/-- DEEP_BUDGET_REFILL (R194). -/
def execDeepBudgetRefill (s : State) : Outcome State Fault Refusal := done s (deepBudgetRefill s)

/-- RESTAGE_READ (R196). -/
def execRestageRead (queue : Fin 4248) (s : State) : Outcome State Fault Refusal := done s (restageRead queue s)

end Sys2Proof.Machine
end

