-- ==== Sys2Proof/Machine/Tables.lean ====
section
/-!
DEFINITION. The classifier's tables (06_parse_classify): where their entries lie in the aperture (Table: BAR2
aperture), reading them, and the lookups of R163, R165 and R170.
-/

namespace Sys2Proof.Machine

/-! ### The aperture -/

/-- The base and the entry size of the table that holds an aperture offset, where one does (Table: BAR2 aperture). -/
def apertureTable (ofs : Nat) : Option (Nat × Nat) :=
  if ofs < 0x4000 then some (0, 64)
  else if ofs < 0x4800 then some (0x4000, 64)
  else if 0x10000 ≤ ofs ∧ ofs < 0x20000 then some (0x10000, 64)
  else if 0x20000 ≤ ofs ∧ ofs < 0x30000 then some (0x20000, 128)
  else if 0x40000 ≤ ofs ∧ ofs < 0x80000 then some (0x40000, 128)
  else if 0x400000 ≤ ofs ∧ ofs < 0xC00000 then some (0x400000, 128)
  else if 0xC00000 ≤ ofs ∧ ofs < 0x1400000 then some (0xC00000, 32)
  else none

/-- The first byte of the entry that holds an aperture offset, and the entry's size. -/
def entryOf (ofs : Nat) : Option (Nat × Nat) :=
  (apertureTable ofs).map (fun t => (t.1 + (ofs - t.1) / t.2 * t.2, t.2))

/-- A byte of the master tables; a byte that nothing has written reads 0. -/
def State.tblByte (s : State) (a : Nat) : Byte := tget (fun _ => 0) s.cls.tbl a

def State.tblBytes (s : State) (base n : Nat) : List Byte := (List.range n).map (fun i => s.tblByte (base + i))

/-- Bytes stored into the master tables. -/
def State.tblPut (s : State) (base : Nat) (bs : List Byte) : State :=
  let r := bs.foldl (fun (p : Tab Byte × Nat) b => (tput (fun _ => 0) p.1 p.2 b, p.2 + 1)) (s.cls.tbl, base)
  { s with cls := { s.cls with tbl := r.1 } }

def State.nodeEnt (s : State) (i : Nat) : List Byte := s.tblBytes (64 * i) 64
def State.profEnt (s : State) (i : Nat) : List Byte := s.tblBytes (0x4000 + 64 * i) 64
def State.editEnt (s : State) (i : Nat) : List Byte := s.tblBytes (0x10000 + 64 * i) 64
def State.tmplEnt (s : State) (i : Nat) : List Byte := s.tblBytes (0x20000 + 128 * i) 128
def State.patEnt (s : State) (i : Nat) : List Byte := s.tblBytes (0x40000 + 128 * i) 128
def State.ternEnt (s : State) (i : Nat) : List Byte := s.tblBytes (0x400000 + 128 * i) 128
def State.actEnt (s : State) (i : Nat) : List Byte := s.tblBytes (0xC00000 + 32 * i) 32

/-- The valid entries of a table of 128-byte entries, in ascending index: those whose last byte has bit 7 set. -/
def State.validEnts (s : State) (base n : Nat) : List Nat :=
  s.cls.tbl.filterMap (fun e =>
    if base ≤ e.1 ∧ e.1 < base + 128 * n ∧ (e.1 - base) % 128 = 127 ∧ bit e.2.toNat 7 then some ((e.1 - base) / 128)
    else none)

/-! ### Lookups -/

/-- A key cut or padded with zero bytes to a width (R162). -/
def padKey (n : Nat) (k : List Byte) : List Byte := (k ++ List.replicate n 0).take n

/-- The key that the segments of a profile build from a field vector, before it is cut (R162). -/
def buildKey (fv prof : List Byte) (segs : Nat) : List Byte :=
  (List.range 8).flatMap (fun i =>
    let v := fieldLE prof (segs + 2 * i) 2
    let start := v / 1024
    (List.range (v % 32)).flatMap (fun j => if start + j ≤ 39 then slice fv (4 * (start + j)) 4 else []))

/-- The exact entry that a lookup hits (R163). -/
def State.exactHit (s : State) (key : List Byte) (prof : Nat) (wide : Bool) (epoch : Nat) : Option EmEnt :=
  s.cls.em.find? (fun e => e.key == key && e.prof == prof && e.wide == wide && bit e.epochs epoch)

/-- Whether a ternary entry matches a key (R165). -/
def ternMatch (e key : List Byte) (prof epoch : Nat) : Bool :=
  let ctl := fieldLE e 80 4
  (bit ctl 28 || ctl / 2 ^ 23 % 32 == prof) && bit (ctl / 2 ^ 18) epoch &&
    (List.range 40).all (fun i => ((byteAt key i ^^^ byteAt e i) &&& byteAt e (40 + i)) == 0)

/-- The ternary hit, as its action index and OVERRIDE: the lowest matching index (R165). -/
def State.ternHit (s : State) (key : List Byte) (prof epoch : Nat) : Option (Nat × Bool) :=
  ((s.validEnts 0x400000 65536).find? (fun i => ternMatch (s.ternEnt i) key prof epoch)).map (fun i =>
    let ctl := fieldLE (s.ternEnt i) 80 4
    (ctl % 2 ^ 18, bit ctl 22))

/-- The action index that a pass chooses (R166). -/
def State.chooseAct (s : State) (prof : List Byte) (fv : List Byte) (p epoch : Nat) : Nat :=
  let ctl := byteAt prof 0
  let wide := bit ctl 1
  let tc := if bit ctl 2 then s.ternHit (padKey 40 (buildKey fv prof 24)) p epoch else none
  let em := if bit ctl 0 then
      s.exactHit (padKey (if wide then 64 else 32) (buildKey fv prof 8)) p wide epoch else none
  match tc, em with
  | some (a, true), _ => a
  | _, some e => e.act
  | some (a, false), none => a
  | none, none => fieldLE prof 4 4 % 2 ^ 18

/-- Whether a pattern entry matches in the searched part of a payload (R170). -/
def patMatch (e payload : List Byte) (group epoch : Nat) : Bool :=
  let len := byteAt e 64
  let lo := fieldLE e 66 2
  let hi := fieldLE e 68 2
  byteAt e 65 % 16 == group && bit (fieldLE e 70 4 / 2 ^ 18) epoch &&
    (List.range (payload.length + 1)).any (fun p =>
      decide (lo ≤ p) && decide (p ≤ hi) && decide (p + len ≤ payload.length) && slice payload p len == e.take len)

/-- The action index of the lowest-numbered matching pattern (R170). -/
def State.patHit (s : State) (payload : List Byte) (group epoch : Nat) : Option Nat :=
  ((s.validEnts 0x40000 2048).find? (fun i => patMatch (s.patEnt i) payload group epoch)).map (fun i =>
    fieldLE (s.patEnt i) 70 4 % 2 ^ 18)

/-! ### Writing the tables (R173) -/

def State.stageOf (s : State) (req : Nat) : Stage := tget (fun _ => Stage.none) s.cls.stage req
def State.setStage (s : State) (req : Nat) (x : Stage) : State :=
  { s with cls := { s.cls with stage := tput (fun _ => Stage.none) s.cls.stage req x } }

/-- Some bytes with written ones put in from an index; `none` leaves a byte as it is (byte enables). -/
def mergeBytes (bs : List Byte) (ofs : Nat) (data : List (Option Byte)) : List Byte :=
  (data.foldl (fun (p : List Byte × Nat) b => (match b with | some v => p.1.set p.2 v | none => p.1, p.2 + 1))
    (bs, ofs)).1

/-- One 32-bit word written by a requester into the entry that holds it: staged, or with the last word the whole
entry applied to the tables and folded (R173, R362). -/
def State.tableWord (s : State) (req ofs : Nat) (data : List (Option Byte)) : State :=
  match entryOf ofs with
  | none => s
  | some (base, size) =>
    let st := s.stageOf req
    let same := st.base == base && st.bytes != []
    let s := if same || st.bytes == [] then s else s.inc F.CLS_STAGE_ABORT 0
    let old := if same then st.bytes else s.tblBytes base size
    let new := mergeBytes old (ofs - base) (data.take 4)
    if ofs - base + 4 < size then s.setStage req { base, bytes := new }
    else ((s.tblPut base new).setStage req Stage.none).fold foldEntry req 0 base new

end Sys2Proof.Machine
end

