-- ==== Sys2Proof/Machine/Parser.lean ====
section
/-!
DEFINITION. The parser (06_parse_classify): the walk of the graph (R157 to R160), the field vector (R161) and the
Klola tag that a pass reads (R189).
-/

namespace Sys2Proof.Machine

/-- The slow-path reasons that the engine raises (Table: Slow-path reasons). -/
def spDepth : Nat := 1
def spLength : Nat := 2
def spUnknown : Nat := 3
def spNode : Nat := 4
def spTtl : Nat := 5
def spBig : Nat := 6
def spEdit : Nat := 7
def spLoop : Nat := 8

/-- frame_len: from byte 0 to the last byte before the FCS (R154). -/
def Frame.len (f : Frame) : Nat := f.body.length

/-- The metadata words 0 to 3 of a pass (Table: Field-vector metadata). -/
def metaWords (f : Frame) (role : Nat) : List Nat :=
  let w0 := if f.src = 0 then
      f.entry % 64 + role % 4 * 2 ^ 8 + f.tid % 32 * 2 ^ 10 + (if f.bc then 2 ^ 15 else 0) + (if f.prot then 2 ^ 16 else 0)
    else f.src % 4 * 2 ^ 6
  let w1 := f.meta16 % 2 ^ 16 + f.pass % 4 * 2 ^ 16 + f.epoch % 4 * 2 ^ 20
  let w2 := f.len % 2 ^ 16 + f.pay % 512 * 2 ^ 16 + min f.labels 15 * 2 ^ 25
  [w0, w1, w2, f.kprev]

/-- The field vector as a pass begins (R161). -/
def fvStart (f : Frame) (role : Nat) : List Byte :=
  toBytes ((metaWords f role).flatMap (bytesBE 4)) ++ List.replicate 144 0

/-- Where the walk stands: offset, innermost length, the node visited before and visits in a row, what the walk has
found, and the node that marked layer 2. -/
structure WalkAt where
  ofs : Nat
  bound : Nat
  prev : Option Nat
  run : Nat
  w : Walk
  mpls : Option Nat
  deriving DecidableEq, Repr

/-- How a visit ends: a trap, the end of the walk, or the next node. -/
inductive Visit where
  | trap (reason : Nat)
  | exit (w : Walk)
  | next (node : Nat) (st : WalkAt)
  deriving DecidableEq, Repr

/-- The extracts of a node that are used, as (source, length, word) (R158). -/
def nodeExtracts (n : List Byte) : List (Nat × Nat × Nat) :=
  ((List.range 3).map (fun i => (byteAt n (52 + 3 * i), min 32 (byteAt n (53 + 3 * i)), byteAt n (54 + 3 * i)))).filter
    (fun e => decide (0 < e.2.1) && decide (4 ≤ e.2.2))

/-- The frame bytes that a node reads, as offsets in the frame (R159). -/
def nodeReads (n : List Byte) (ofs : Nat) : List Nat :=
  (if bit (byteAt n 15) 0 then [] else [ofs + byteAt n 0, ofs + byteAt n 1]) ++
    (if byteAt n 7 = 0 then [] else [ofs + byteAt n 6]) ++
    (if bit (byteAt n 12) 0 then [ofs + byteAt n 10, ofs + byteAt n 10 + 1] else []) ++
    (nodeExtracts n).flatMap (fun e => (List.range e.2.1).map (fun i => ofs + e.1 + i))

/-- The advance of a node (R158). -/
def nodeAdvance (n body : List Byte) (ofs : Nat) : Nat :=
  byteAt n 5 + (if byteAt n 7 = 0 then 0
    else (byteAt body (ofs + byteAt n 6) &&& byteAt n 7) / 2 ^ (byteAt n 8 % 16) * (byteAt n 8 / 16))

/-- One extract copied into the field vector; bytes beyond word 39 are discarded. -/
def extract (body : List Byte) (ofs : Nat) (fv : List Byte) (e : Nat × Nat × Nat) : List Byte :=
  (List.range e.2.1).foldl (fun v i => v.set (4 * e.2.2 + i) (body.getD (ofs + e.1 + i) 0)) fv

/-- The selector of a node. -/
def nodeSelector (n body : List Byte) (ofs : Nat) : Nat :=
  ((byteAt body (ofs + byteAt n 0) * 256 + byteAt body (ofs + byteAt n 1)) &&& fieldLE n 2 2) / 2 ^ (byteAt n 4 % 16)

/-- The NEXT of the lowest enabled transition that matches a selector. -/
def nodeTrans (n : List Byte) (sel : Nat) : Option Nat :=
  ((List.range 8).find? (fun i =>
    let value := fieldLE n (20 + 4 * i) 2
    let flags := byteAt n (23 + 4 * i)
    bit flags 0 && (if bit flags 1 then sel / 256 == value / 256 else sel == value))).map
    (fun i => byteAt n (22 + 4 * i))

/-- What a node leaves of the walk beside the place: extracts, marks, labels and key profile. -/
def nodeRecord (n body : List Byte) (node : Nat) (st : WalkAt) : Walk × Option Nat :=
  let w := st.w
  let fv := (nodeExtracts n).foldl (extract body st.ofs) w.fv
  let id := byteAt n 13 % 8
  let marks := bit (byteAt n 13) 7 && (w.lay.getD id none).isNone
  let lay := if marks then w.lay.set id (some st.ofs) else w.lay
  let mpls := if marks && id == 2 then some node else st.mpls
  let labels := if mpls = some node then w.labels + 1 else w.labels
  let prof := if bit (byteAt n 14) 7 then byteAt n 14 % 32 else w.prof
  ({ w with fv, lay, labels, prof }, mpls)

/-- One visit of a node (R158, R159). -/
def visit (n body : List Byte) (node : Nat) (st : WalkAt) : Visit :=
  if !bit (byteAt n 63) 7 then .trap spNode
  else
    let run := if st.prev = some node then st.run + 1 else 1
    let adv := nodeAdvance n body st.ofs
    let reads := nodeReads n st.ofs
    let lchk := bit (byteAt n 12) 0
    let claimed := st.ofs + byteAt n 11 + fieldBE body (st.ofs + byteAt n 10) 2
    let short := decide (body.length < st.ofs + adv) || reads.any (fun i => decide (body.length ≤ i)) ||
      decide (adv < byteAt n 9) || (lchk && (decide (st.bound < claimed) || decide (claimed < st.ofs + adv)))
    let deep := decide (256 < st.ofs + adv) || reads.any (fun i => decide (256 ≤ i))
    if short then .trap spLength
    else if deep then .trap spDepth
    else
      let r := nodeRecord n body node st
      let ofs := st.ofs + adv
      let w := { r.1 with pay := ofs }
      if bit (byteAt n 15) 0 then .exit w
      else
        let sel := nodeSelector n body st.ofs
        match nodeTrans n sel with
        | none => if bit (byteAt n 15) 1 then .trap spUnknown else go node n run ofs claimed lchk st w r.2 (byteAt n 16)
        | some nx => go node n run ofs claimed lchk st w r.2 nx
where
  /-- The next node with REPEAT_MAX applied. -/
  go (node : Nat) (n : List Byte) (run ofs claimed : Nat) (lchk : Bool) (st : WalkAt) (w : Walk) (mpls : Option Nat)
      (nx : Nat) : Visit :=
    let nx := if byteAt n 17 ≠ 0 ∧ byteAt n 17 ≤ run ∧ nx = node then byteAt n 18 else nx
    if nx = 0xFF then .exit w
    else .next nx { ofs, bound := if lchk then claimed else st.bound, prev := some node, run, w, mpls }

/-- The walk over at most a number of visits; one more is PARSE_DEPTH. -/
def walkFrom (graph : Nat → List Byte) (body : List Byte) : Nat → Nat → WalkAt → Except Nat Walk
  | 0, _, _ => .error spDepth
  | k + 1, node, st => match visit (graph node) body node st with
    | .trap r => .error r
    | .exit w => .ok w
    | .next nx st' => walkFrom graph body k nx st'

/-- One pass's walk (R158): a reason, or what it found. A key profile that is not valid traps as well (R159). -/
def State.walk (s : State) (f : Frame) (role : Nat) : Except Nat Walk :=
  let w0 : Walk := { lay := List.replicate 8 none, pay := 0, labels := 0, fv := fvStart f role, prof := 0 }
  match walkFrom s.nodeEnt f.body 16 f.node
    { ofs := 0, bound := f.len, prev := none, run := 0, w := w0, mpls := none } with
  | .error r => .error r
  | .ok w => if bit (byteAt (s.profEnt w.prof) 63) 7 then .ok w else .error spNode

/-- The Klola tag that a pass read, where it marked layer 7 (R189): chord, origin stamp, and the flags DUP (bit 2)
and LOB (bit 1). -/
def Walk.tag (w : Walk) (body : List Byte) : Option (Nat × Nat × Nat) :=
  (w.lay.getD 7 none).map (fun o =>
    let v := fieldBE body (o - 2) 8
    (v / 2 ^ 43 % 32, v / 8 % 2 ^ 40, v % 8))

/-- A frame after its walk: KTAG and ORIGIN of the tag read (R189). -/
def Frame.withTag (f : Frame) (w : Walk) : Frame :=
  match w.tag f.body with
  | none => f
  | some (chord, origin, flags) => { f with kv := true, kchord := chord, korigin := origin, kflags := flags }

/-- Field-vector word 3 of the pass after this one. The three flag bits are those of the tag as it came, its reserved bit 0 with
them: the spec does not say whether that bit reads 0 (DESIGN CHOICE, log entry 129). -/
def Walk.word3 (w : Walk) (body : List Byte) : Nat :=
  match w.tag body with
  | none => 0
  | some (chord, _, flags) => chord + 32 + flags * 64

end Sys2Proof.Machine
end

