-- ==== Sys2Proof/Machine/Meters.lean ====
section
/-!
DEFINITION. Meters (08_egress, R220 to R224). Meter m of octant o has the number 2048 * o + m, under which its
registers and its buckets are held.
-/

namespace Sys2Proof.Machine

/-- A full bucket at the caps' reset value: what an unlisted meter holds (log entry 45). -/
def mtrFull : Nat := 16384 * 65536

def State.mtrC (s : State) (m : Nat) : Nat := tget (fun _ => mtrFull) s.egress.mtrC m
def State.mtrP (s : State) (m : Nat) : Nat := tget (fun _ => mtrFull) s.egress.mtrP m

def State.setMtr (s : State) (m c p : Nat) : State :=
  { s with egress := { s.egress with mtrC := tput (fun _ => mtrFull) s.egress.mtrC m c,
                                     mtrP := tput (fun _ => mtrFull) s.egress.mtrP m p } }

/-- The caps of a meter's buckets in 2^-16 byte. -/
def State.mtrCaps (s : State) (m : Nat) : Nat × Nat :=
  (s.rd F.OCT_MTR_CBS m * 65536, s.rd F.OCT_MTR_PBS m * 65536)

/-- Both buckets of a meter at their caps (R219, R224). -/
def State.mtrFill (s : State) (m : Nat) : State := let c := s.mtrCaps m; s.setMtr m c.1 c.2

/-- One refill of a meter (R215, R220). -/
def State.mtrRefill (s : State) (m : Nat) : State :=
  let caps := s.mtrCaps m
  s.setMtr m (min caps.1 (s.mtrC m + s.rd F.OCT_MTR_CIR m)) (min caps.2 (s.mtrP m + s.rd F.OCT_MTR_PIR m))

/-- The colours. -/
inductive Colour where
  | green | yellow | red
  deriving DecidableEq, Repr

/-- A number held to a meter's or shaper's OVERHEAD range, from the 8-bit field (R216, R220). -/
def overhead (v : Nat) : Int :=
  let i : Int := if v < 128 then (v : Int) else (v : Int) - 256
  if i < -32 then -32 else if 96 < i then 96 else i

/-- The bytes charged for a number of bytes with an overhead, at least 1. -/
def charged (bytes : Nat) (ov : Nat) : Nat := max 1 ((bytes : Int) + overhead ov).toNat

/-- The pre-colour of a frame from its field vector (R222). -/
def State.preColour (s : State) (m : Nat) (fv : List Byte) : Colour :=
  if !s.on F.OCT_MTR_CFG_AWARE m then .green
  else
    let w := fieldBE fv (4 * min 39 (s.rd F.OCT_MTR_CFG_PCOL_WORD m)) 4
    let b := s.rd F.OCT_MTR_CFG_PCOL_BIT m
    if s.on F.OCT_MTR_CFG_PCOL_W m then
      if bit w (b + 1) then .red else if bit w b then .yellow else .green
    else if bit w b then .yellow else .green

/-- The colour of b (in 2^-16 byte) and the buckets after it (R221). -/
def colourOf (rfc4115 : Bool) (pc : Colour) (b tc tp : Nat) : Colour × Nat × Nat :=
  if !rfc4115 then
    if pc = .red || tp < b then (.red, tc, tp)
    else if pc = .yellow || tc < b then (.yellow, tc, tp - b)
    else (.green, tc - b, tp - b)
  else if pc = .green && b ≤ tc then (.green, tc - b, tp)
  else if pc ≠ .red && b ≤ tp then (.yellow, tc, tp - b)
  else (.red, tc, tp)

/-- A frame metered (R221, R224): its colour, counted. -/
def State.meter (s : State) (m len : Nat) (fv : List Byte) : Colour × State :=
  if !s.on F.OCT_MTR_CFG_EN m then (.green, s.inc F.OCT_MTR_GREEN m)
  else
    let b := charged (len + 4) (s.rd F.OCT_MTR_CFG_OVERHEAD m) * 65536
    let r := colourOf (s.on F.OCT_MTR_CFG_MODE m) (s.preColour m fv) b (s.mtrC m) (s.mtrP m)
    let s := s.setMtr m r.2.1 r.2.2
    (r.1, match r.1 with
      | .green => s.inc F.OCT_MTR_GREEN m
      | .yellow => s.inc F.OCT_MTR_YELLOW m
      | .red => s.inc F.OCT_MTR_RED m)

/-- The drop precedence that a colour picks from DP of an action (R169). -/
def dpOf (dp : Nat) : Colour → Nat
  | .green => dp % 4
  | .yellow => dp / 4 % 4
  | .red => dp / 16 % 4

end Sys2Proof.Machine
end

