-- ==== Sys2Proof/Machine/Egress.lean ====
section
/-!
DEFINITION. The egress side of a channel (08_egress): shapers (R215 to R219), the deficit round robin (R213), samples
(R225, R226) and gate lists (R227 to R234).
-/

namespace Sys2Proof.Machine
open Host (Outcome)

/-! ### Shapers: by queue; 4096 + 8 * channel + group; 4608 + channel -/

def shpQueue (q : Nat) : Nat := q
def shpGroup (c g : Nat) : Nat := 4096 + 8 * c + g
def shpChan (c : Nat) : Nat := 4608 + c

/-- The channel of a shaper. -/
def shpChannel (k : Nat) : Nat := if k < 4096 then k / 64 else if k < 4608 then (k - 4096) / 8 else k - 4608

/-- A field of a shaper given as its L0, L1 and L2 registers. -/
def State.shpRd (s : State) (k : Nat) (l0 : Fld) (l1 : Nat → Fld) (l2 : Fld) : Nat :=
  if k < 4096 then s.rd l0 k
  else if k < 4608 then s.rd (l1 ((k - 4096) % 8)) ((k - 4096) / 8)
  else s.rd l2 (k - 4608)

def State.shpEn (s : State) (k : Nat) : Bool := s.shpRd k F.QSH_SHP_CFG_EN F.CH_CG_SHP_CFG_EN F.CH_L2_SHP_CFG_EN == 1
def State.shpMode (s : State) (k : Nat) : Nat := s.shpRd k F.QSH_SHP_CFG_MODE F.CH_CG_SHP_CFG_MODE F.CH_L2_SHP_CFG_MODE
def State.shpOver (s : State) (k : Nat) : Nat :=
  s.shpRd k F.QSH_SHP_CFG_OVERHEAD F.CH_CG_SHP_CFG_OVERHEAD F.CH_L2_SHP_CFG_OVERHEAD
def State.shpZero (s : State) (k : Nat) : Bool :=
  s.shpRd k F.QSH_SHP_CFG_RESET_TO F.CH_CG_SHP_CFG_RESET_TO F.CH_L2_SHP_CFG_RESET_TO == 1
def State.shpInc (s : State) (k : Nat) : Nat := s.shpRd k F.QSH_SHP_RATE F.CH_CG_SHP_RATE F.CH_L2_SHP_RATE
def State.shpBurst (s : State) (k : Nat) : Nat := s.shpRd k F.QSH_SHP_BURST F.CH_CG_SHP_BURST F.CH_L2_SHP_BURST
/-- The cap of a shaper in 2^-16 token; a BURST of 0 acts as 1. -/
def State.shpCap (s : State) (k : Nat) : Int := (max 1 (s.shpBurst k) * 65536 : Nat)

/-- The level of a shaper that nothing has changed: 64 tokens, the reset value of SHP_LEVEL. -/
def shpFull : Int := 64 * 65536

/-- The level of a shaper in 2^-16 token. -/
def State.shpLevel (s : State) (k : Nat) : Int := tget (fun _ => shpFull) s.egress.shp k
def State.setShp (s : State) (k : Nat) (v : Int) : State :=
  { s with egress := { s.egress with shp := tput (fun _ => shpFull) s.egress.shp k v } }

/-- What the next refill of a shaper adds beside INC (R217, R218). -/
def State.shpRet (s : State) (k : Nat) : Int := tget (fun _ => 0) s.egress.ret k
def State.setRet (s : State) (k : Nat) (v : Int) : State :=
  { s with egress := { s.egress with ret := tput (fun _ => 0) s.egress.ret k v } }

/-- SHP_LEVEL: whole tokens, rounded towards zero. -/
def State.shpShown (s : State) (k : Nat) : Int := (s.shpLevel k).tdiv 65536

/-- One refill of a shaper (R215, R217). -/
def State.shpRefill (s : State) (k : Nat) : State :=
  let v := s.shpLevel k + (s.shpInc k : Int) + s.shpRet k
  (s.setShp k (if s.shpCap k < v then s.shpCap k else v)).setRet k 0

/-- The shapers that a refill can change: those with an INC, a level that is listed, or a charge to return. -/
def State.shpKeys (s : State) : List Nat :=
  let ofReg (k : Nat) : List Nat :=
    let off := k % 0x100000
    let i := k / 0x100000
    if off = 0x70114 then [shpQueue i]
    else if off = 0x41304 then [shpChan i]
    else if 0x41208 ≤ off ∧ off < 0x41300 ∧ (off - 0x41208) % 32 = 0 then [shpGroup i ((off - 0x41208) / 32)]
    else []
  (s.eff.flatMap (fun e => ofReg e.1) ++ s.egress.shp.map (·.1) ++ s.egress.ret.map (·.1)).eraseDups

/-- The meters that a refill can change. -/
def State.mtrKeys (s : State) : List Nat :=
  (s.eff.filterMap (fun e => if e.1 % 0x100000 = 0x50408 ∨ e.1 % 0x100000 = 0x5040C then some (e.1 / 0x100000) else none)).eraseDups

/-- SHAPER_REFILL (R215, R220): every shaper and meter of an octant that is not asleep. -/
def shaperRefill (s : State) : State :=
  let s1 := (s.shpKeys.filter (fun k => !s.asleep (octOf (shpChannel k)))).foldl State.shpRefill s
  (s1.mtrKeys.filter (fun m => !s1.asleep (m / 2048))).foldl State.mtrRefill s1

/-- The tokens in 2^-16 that a frame of some bytes, as transmitted, costs a shaper (R216). -/
def State.shpCost (s : State) (k bytes : Nat) : Int :=
  ((if s.shpMode k = 0 then 1 else charged bytes (s.shpOver k)) * 65536 : Nat)

/-- A frame charged to a shaper in use (R214). -/
def State.shpCharge (s : State) (k bytes : Nat) : State :=
  if s.shpEn k then s.setShp k (s.shpLevel k - s.shpCost k bytes) else s

/-- The charge of a frame returned at the next refill (R217). -/
def State.shpReturn (s : State) (k bytes : Nat) : State :=
  if s.shpEn k then s.setRet k (s.shpRet k + s.shpCost k bytes) else s

/-- The three shapers of a queue. -/
def shpOf (q : Nat) : List Nat := [shpQueue q, shpGroup (q / 64) (q % 64 / 8), shpChan (q / 64)]

/-- Whether a shaper lets a frame go. -/
def State.shpPasses (s : State) (k : Nat) : Bool := !s.shpEn k || decide (0 < s.shpLevel k)

/-- Every shaper of a channel (R209). -/
def shpOfChannel (c : Nat) : List Nat :=
  (List.range 64).map (fun k => shpQueue (64 * c + k)) ++ (List.range 8).map (shpGroup c) ++ [shpChan c]

/-- Every shaper of a channel at its cap (R219). -/
def State.shpFillChannel (s : State) (c : Nat) : State :=
  (shpOfChannel c).foldl (fun s k => (s.setShp k (s.shpCap k)).setRet k 0) s

/-- Every meter of an octant at its caps (R219). -/
def State.mtrFillOct (s : State) (o : Nat) : State :=
  let ms := ((s.eff.map (fun e => (e.1 % 0x100000, e.1 / 0x100000))).filterMap (fun e =>
    if (e.1 = 0x50410 ∨ e.1 = 0x50414) ∧ e.2 / 2048 = o then some e.2 else none)) ++
    ((s.egress.mtrC ++ s.egress.mtrP).filterMap (fun e => if e.1 / 2048 = o then some e.1 else none))
  ms.eraseDups.foldl State.mtrFill s

/-- The effect of a commit on a shaper of which `old` is the state before (R218). -/
def State.shpCommit (s old : State) (k : Nat) : State :=
  let same := s.shpEn k == old.shpEn k && s.shpMode k == old.shpMode k && s.shpOver k == old.shpOver k &&
    s.shpInc k == old.shpInc k && s.shpBurst k == old.shpBurst k && s.shpZero k == old.shpZero k
  if same then s
  else if k < 4096 then
    if s.shpMode k != old.shpMode k then s.setShp k (s.shpCap k)
    else if s.shpCap k < s.shpLevel k then s.setShp k (s.shpCap k) else s
  else (s.setShp k (if s.shpZero k then 0 else s.shpCap k)).setRet k (-(s.shpInc k : Int))

/-! ### Deficit round robin (R213) -/

def State.deficit (s : State) (i : Nat) : Nat := tget (fun _ => 0) s.egress.deficit i
def State.setDeficit (s : State) (i v : Nat) : State :=
  { s with egress := { s.egress with deficit := tput (fun _ => 0) s.egress.deficit i v } }
def State.ringCur (s : State) (r : Nat) : Nat := tget (fun _ => 0) s.egress.cur r
def State.setRingCur (s : State) (r v : Nat) : State :=
  { s with egress := { s.egress with cur := tput (fun _ => 0) s.egress.cur r v } }

/-- The next member's turn, with its quantum where it is eligible; a quantum below 64 acts as 64. -/
def State.drrNext (s : State) (ring : Nat) (set : List (Nat × Nat)) (key quantum : Nat → Nat) : State :=
  let nx := (s.ringCur ring + 1) % 8
  let s := s.setRingCur ring nx
  if set.any (·.1 == nx) then s.setDeficit (key nx) (s.deficit (key nx) + max 64 (quantum nx)) else s

/-- The round robin of a ring of 8 members: `set` the eligible ones with the length of their head frame, `key` where the
deficit of a member is held, `quantum` its quantum. The turns end once a member's deficit covers its frame. -/
def State.drr (s : State) (ring : Nat) (set : List (Nat × Nat)) (key quantum : Nat → Nat) : Nat → Nat × State
  | 0 => ((set.headD (0, 0)).1, s)
  | n + 1 =>
    let cur := s.ringCur ring
    match set.find? (·.1 == cur) with
    | some (_, len) =>
      if len ≤ s.deficit (key cur) then (cur, s.setDeficit (key cur) (s.deficit (key cur) - len))
      else (s.drrNext ring set key quantum).drr ring set key quantum n
    | none => (s.drrNext ring set key quantum).drr ring set key quantum n

/-- Turns enough for any frame: 257 quanta of 64 bytes to each of 8 members. -/
def drrFuel : Nat := 2100

/-! ### Gate lists -/

def State.gate (s : State) (c : Nat) : Gate := tget (fun _ => Gate.reset) s.egress.gates c
def State.setGate (s : State) (c : Nat) (x : Gate) : State :=
  { s with egress := { s.egress with gates := tput (fun _ => Gate.reset) s.egress.gates c x } }

/-- The states of a list over one cycle, as (state, length in 1/100 ns) in order (R228). -/
def GateList.spans (g : GateList) : List (Nat × Nat) :=
  let cut := g.entries.foldl (fun (p : List (Nat × Nat) × Nat) e =>
    let len := min e.2 (g.cycle - p.2)
    (if len = 0 then p.1 else p.1 ++ [(e.1, len)], p.2 + len)) ([], 0)
  let l := match cut.1.getLast? with
    | none => [(0xFF, g.cycle)]
    | some x => cut.1.dropLast ++ [(x.1, x.2 + (g.cycle - cut.2))]
  l.map (fun e => (e.1, 100 * e.2))

/-- The state in force at a position, and the spans from there through one whole cycle. -/
def spansFrom : List (Nat × Nat) → Nat → List (Nat × Nat) → List (Nat × Nat)
  | [], _, done => done
  | (st, len) :: l, pos, done => if pos < len then (st, len - pos) :: l ++ done ++ [(st, pos)] else spansFrom l (pos - len) (done ++ [(st, len)])

/-- How long a group stays open through a list of spans: none where every span has it open. -/
def openFor (g : Nat) : List (Nat × Nat) → Option Nat
  | [] => none
  | (st, len) :: l => if bit st g then (openFor g l).map (· + len) else some 0

/-- The position of an instant of the bound peg, in 1/100 ns, in a list's cycle (R228). -/
def GateList.pos (g : GateList) (t100 : Nat) : Nat :=
  (((t100 : Int) - (100 * g.start : Nat)) % ((100 * max 1 g.cycle : Nat) : Int)).toNat

/-- The gate state of a list at an instant. -/
def GateList.stateAt (g : GateList) (t100 : Nat) : Nat := ((spansFrom g.spans (g.pos t100) []).headD (0xFF, 0)).1

/-- How long from an instant a list keeps a group open; none: for ever. -/
def GateList.openAt (g : GateList) (t100 cg : Nat) : Option Nat := openFor cg (spansFrom g.spans (g.pos t100) [])

/-- The longest span for which a list keeps a group open, joined across the wrap (R234); none: without limit. -/
def GateList.longest (g : GateList) (cg : Nat) : Option Nat :=
  let starts := (List.range (g.spans.length + 1)).map (fun i => ((g.spans.take i).map (·.2)).sum)
  let runs := starts.map (fun p => openFor cg (spansFrom g.spans (p % max 1 (100 * g.cycle)) []))
  runs.foldl (fun m r => match m, r with | some a, some b => some (max a b) | _, _ => none) (some 0)

/-- The list in operation at an instant: from its S on the one that is still pending (R231). -/
def Gate.listAt (x : Gate) (t100 : Nat) : Option GateList :=
  match x.pend with
  | some p => if 100 * p.start ≤ t100 then some p else x.oper
  | none => x.oper

/-- How long from an instant a channel keeps a group open, a pending list included, whose S closes the group only where its own state
there does (R233); none: for ever. -/
def State.gateOpenFor (s : State) (c t100 cg : Nat) : Option Nat :=
  let x := s.gate c
  let a := match x.listAt t100 with | none => none | some g => g.openAt t100 cg
  match x.pend with
  | none => a
  | some p =>
    let d := 100 * p.start - t100
    if d = 0 || (match a with | some v => decide (v < d) | none => false) then a
    else if bit (p.stateAt (100 * p.start)) cg then (p.openAt (100 * p.start) cg).map (· + d)
    else some d

/-- The gate state of a channel in force at an instant (R227). -/
def State.gateState (s : State) (c t100 : Nat) : Nat :=
  match (s.gate c).listAt t100 with | none => 0xFF | some g => g.stateAt t100

/-- The time of a channel's bound peg now, in 1/100 ns. -/
def State.bound100 (s : State) (c : Nat) : Nat := s.pegTime (s.boundPeg c) * 100 / unitNs

/-- The overrun that the mode in effect allows, in 1/100 ns (R233). -/
def State.gateOverrun (s : State) (c : Nat) : Nat := if s.on F.CH_GATE_CFG_MODE c then 100 * s.rd F.CH_GATE_OVR c else 0

/-- Whether the gate of a group passes a frame of a line duration at an instant (R233). -/
def State.gatePasses (s : State) (c t100 cg dur : Nat) : Bool :=
  bit (s.gateState c t100) cg &&
    (match s.gateOpenFor c t100 cg with | none => true | some d => decide (dur ≤ d + s.gateOverrun c))

/-- Whether a head frame is dropped for its length (R234). -/
def State.gateOversize (s : State) (c cg dur : Nat) : Bool :=
  match (s.gate c).oper with
  | none => false
  | some g => match g.longest cg with | none => false | some d => decide (d + s.gateOverrun c < dur)

/-- CH_GATE_STAT's OPER, PEND and STATE brought up to date. -/
def State.showGate (s : State) (c : Nat) : State :=
  let x := s.gate c
  ((s.wrB F.CH_GATE_STAT_OPER c x.oper.isSome).wrB F.CH_GATE_STAT_PEND c x.pend.isSome).wr F.CH_GATE_STAT_STATE c
    (s.gateState c (s.bound100 c))

/-- GATE_ENTRY_CHANGE (R228): the state in force is that of the position reached. -/
def gateEntryChange (c : Nat) (s : State) : State := s.showGate c

/-- The entry in operation as read back in CH_GATE_OG and CH_GATE_OI. -/
def State.gateOper (s : State) (c i : Nat) : Nat × Nat := match (s.gate c).oper with | none => (0, 0) | some g => g.entries.getD i (0, 0)

/-- GATE_LIST_START (R231, R232): at S the pending list replaces the list in operation. -/
def gateListStart (c : Nat) (s : State) : State :=
  match (s.gate c).pend with
  | none => s
  | some p =>
    if 100 * p.start ≤ s.bound100 c then (s.setGate c { s.gate c with oper := some p, pend := none }).showGate c else s

/-- Both lists discarded and every gate opened (R231). -/
def State.gateDiscard (s : State) (c : Nat) : State := (s.setGate c { s.gate c with oper := none, pend := none }).showGate c

/-- The admin entries copied at the cutoff (R229). -/
def State.gateSnapshot (s : State) (c : Nat) : State :=
  let es := (List.range 256).map (fun i =>
    (s.rd ⟨0x42000 + 8 * i, 7, 0⟩ c, s.rd ⟨0x42004 + 8 * i, 31, 0⟩ c))
  s.setGate c { s.gate c with snap := es }

/-- The activation of the admin list at a commit boundary (R229 to R231). -/
def State.gateActivate (s : State) (c : Nat) : State :=
  let cycle := s.rd F.CH_GATE_CYCLE c
  let len := s.rd F.CH_GATE_CFG_LEN c
  let ns := s.rd F.CH_GATE_BASE_NS c
  if cycle = 0 || 10 ^ 9 < cycle || len = 0 || 256 < len || 10 ^ 9 ≤ ns then s.wr F.CH_GATE_STAT_REJECT c 1
  else
    let base := (s.rd F.CH_GATE_BASE_SH c * 2 ^ 32 + s.rd F.CH_GATE_BASE_SL c) * 10 ^ 9 + ns
    let first := s.pegTime (s.boundPeg c) + 4000 * unitNs
    let n := if first ≤ base * unitNs then 0 else ceilDiv (first - base * unitNs) (cycle * unitNs)
    let start := base + n * cycle
    let x := s.gate c
    let s := (s.wr F.CH_GATE_STAT_REJECT c 0).wrB F.CH_GATE_STAT_REPLACED c x.pend.isSome
    let s := if n = 0 then s else (s.inc F.CH_GATE_LATE c).wr F.CH_GATE_N c (min n 0xFFFFFFFF)
    let s := s.setGate c { x with pend := some { entries := x.snap.take len, cycle, start } }
    let s := ((s.wr F.CH_GATE_S_SL c (start / 10 ^ 9 % 2 ^ 32)).wr F.CH_GATE_S_SH c (start / 10 ^ 9 / 2 ^ 32)).wr F.CH_GATE_S_NS c
      (start % 10 ^ 9)
    s.showGate c

/-- The fields of a channel whose change activates the admin list (R229): CH_GATE_CFG without MODE, base and cycle. -/
def State.gateKey (s : State) (c : Nat) : List Nat :=
  [s.rd F.CH_GATE_CFG_EN c, s.rd F.CH_GATE_CFG_ACT_SEQ c, s.rd F.CH_GATE_CFG_LEN c, s.rd F.CH_GATE_BASE_SL c,
   s.rd F.CH_GATE_BASE_SH c, s.rd F.CH_GATE_BASE_NS c, s.rd F.CH_GATE_CYCLE c]

/-- What a commit does to a channel's gates (R229, R231). -/
def State.gateCommit (s old : State) (c : Nat) : State :=
  if s.gateKey c = old.gateKey c then s
  else if s.on F.CH_GATE_CFG_EN c then s.gateActivate c
  else s.gateDiscard c

/-! ### Samples (R225, R226) -/

def State.samplesOf (s : State) (q : Nat) : Samples := tget (fun _ => Samples.none) s.egress.samples q

/-- One more sample of depth and delay. -/
def Samples.add (x : Samples) (d t : Nat) : Samples :=
  { n := x.n + 1, dMin := if x.n = 0 then d else min x.dMin d, dMax := max x.dMax d, dSum := x.dSum + d,
    tMin := if x.n = 0 then t else min x.tMin t, tMax := max x.tMax t, tSum := x.tSum + t }

/-- One sample of a queue (R225), written into its history ring. -/
def State.sampleQueue (s : State) (q : Nat) : State :=
  let d := s.qBytes q
  let t := match (s.qFrames q).head? with | none => 0 | some x => (diff64 s.now16 x.f.stamp).toNat / 16
  let p := (s.rd F.QSH_Q_SAMPLES_PTR q + 1) % 64
  let s := { s with egress := { s.egress with samples := tput (fun _ => Samples.none) s.egress.samples q ((s.samplesOf q).add d t) } }
  let h := BitVec.ofNat 32 (min 65535 (d / 1024) * 65536 + min 65535 (t / 1000))
  (s.setReg q (0x70200 + 4 * p) h).wr F.QSH_Q_SAMPLES_PTR q p

/-- Every queue of a channel sampled. -/
def State.sampleChannel (s : State) (c : Nat) : State := (List.range 64).foldl (fun s k => s.sampleQueue (64 * c + k)) s

/-- The samples of one queue latched and restarted (R226). Where none were taken since the last boundary, COUNT is 0 and the values
stay as latched before, for the spec gives a minimum, maximum and mean of none no value (DESIGN CHOICE, log entry 131). -/
def State.latchQueue (s : State) (q : Nat) : State :=
  let x := s.samplesOf q
  if x.n = 0 then (s.wr F.QSH_Q_SAMPLES_SFN q (s.eng.tick / 64)).wr F.QSH_Q_SAMPLES_COUNT q 0
  else
  let sat (v : Nat) : Nat := min v 0xFFFFFFFF
  let s := ((s.wr F.QSH_Q_DEPTH_MIN q (sat (x.dMin / 64))).wr F.QSH_Q_DEPTH_MAX q (sat (x.dMax / 64))).wr F.QSH_Q_DEPTH_MEAN q
    (sat (x.dSum / max 1 x.n / 64))
  let s := ((s.wr F.QSH_Q_DELAY_MIN q (sat x.tMin)).wr F.QSH_Q_DELAY_MAX q (sat x.tMax)).wr F.QSH_Q_DELAY_MEAN q
    (sat (x.tSum / max 1 x.n))
  let s := (s.wr F.QSH_Q_SAMPLES_SFN q (s.eng.tick / 64)).wr F.QSH_Q_SAMPLES_COUNT q (min 127 x.n)
  { s with egress := { s.egress with samples := tput (fun _ => Samples.none) s.egress.samples q Samples.none } }

/-! ### Bytes on the line -/

/-- The blocks of a frame of some bytes behind its link header (R83). -/
def frameBlocks (bytes : Nat) : Nat := 2 + (bytes + 1) / 8

/-- The line duration of a frame of B bytes in 1/100 ns (R233). -/
def State.lineDuration (s : State) (c bytes : Nat) : Nat :=
  if s.role c = roleClient then 2 * (bytes + 20) else 16 * frameBlocks bytes

/-- Whether a frame leaves protected (R370): its descriptor or the terminal asks for it, and it is no broadcast. -/
def State.wantsProt (s : State) (c tid : Nat) (desc bc : Bool) : Bool := !bc && (desc || s.on (F.CH_PP_REQUIRE tid) c)

/-- B of a frame as a head end or client transmits it (R216, R262). -/
def State.sentBytes (s : State) (c : Nat) (x : QFrame) : Nat :=
  if s.role c = roleClient then max 64 x.len
  else if s.role c = roleHead && s.wantsProt c x.tid x.prot x.bc then x.len + 16 else x.len

/-! ### The commands -/

/-- SHAPER_REFILL. -/
def execShaperRefill (s : State) : Outcome State Fault Refusal := done s (shaperRefill s)
/-- GATE_ENTRY_CHANGE. -/
def execGateEntryChange (c : Fin 64) (s : State) : Outcome State Fault Refusal := done s (gateEntryChange c s)
/-- GATE_LIST_START. -/
def execGateListStart (c : Fin 64) (s : State) : Outcome State Fault Refusal := done s (gateListStart c s)

end Sys2Proof.Machine
end

