-- ==== Sys2Proof/Machine/LineOut.lean ====
section
/-!
DEFINITION. What a lane's transmitter makes of frames and bridges (02_lanes, 05_frets): blocks in their places, Idle blocks
between them, scrambling, codewords, injections and PAM4 levels (R39, R41, R65, R83, R85, R139 to R142).
-/

namespace Sys2Proof.Machine

/-- Whether a lane's transmitter inverts its levels (CH_LANE_CFG.TX_POL, TWN_L_CFG.TX_POL). -/
def State.txInverted (s : State) (l : Nat) : Bool :=
  if isSurok l then s.on (F.TWN_L_CFG_TX_POL (l - 64)) 0 else s.on F.CH_LANE_CFG_TX_POL l

/-- Blocks that a lane sends from a block of its line tick or burst on; they leave coded with the rest of it. -/
def State.putBlocks (s : State) (l block : Nat) (bs : List Block) : State :=
  s.modLane l (fun x => { x with tx := { x.tx with items := x.tx.items ++ [(block, bs)] } })

/-- A bridge at the beginning of a lane's line tick (R68, R70). -/
def State.putBridge (s : State) (l : Nat) (bytes : List Byte) : State := s.putBlocks l 0 (dataBlocks bytes)

/-- A frame with its link header, from a block on (R83). -/
def State.putFrame (s : State) (l block : Nat) (bytes : List Byte) : State := s.putBlocks l block (frameToBlocks bytes)

/-- The PAM4 levels of a run of codewords (R39), 2,720 symbols each. -/
def codewordLevels (cws : List Nat) : List Nat := cws.flatMap (pam4Levels 2720)

/-- The line tick that a continuously sending lane has on the line ends, `blocks` long: its codewords leave, with the injections
that fall on them (R41, R65, R85). Where the transmitter has sent nothing in it, nothing leaves. -/
def State.sendLineTick (s : State) (l blocks : Nat) : State :=
  let x := s.lane l
  if x.tx.items.isEmpty then s
  else
    let n := blocks / 80
    let r := lineCodewords x.tx.scr (layBlocks 0 blocks x.tx.items) x.tx.inj
    let late := (x.tx.inj.filter (fun m => decide (n ≤ m.1))).map (fun m => (m.1 - n, m.2))
    (s.setLane l { x with tx := { x.tx with items := [], scr := r.2, inj := late } }).emit
      (.symbols l (invertLevels (s.txInverted l) (codewordLevels r.1)))

/-- The levels of a burst with its lead (R50, R139 to R142): the preamble pattern from `lead` blocks before the preamble on, the
delimiter, and the payload codewords. -/
def burstLevels (lead : Nat) (cws : List Nat) : List Nat :=
  preambleLevels (64 - lead) (lead + 128) ++ pam4Levels 528 (ofBits delimiter) ++ codewordLevels cws

/-- A burst of k payload codewords ends, its payload beginning at a block of the upstream line tick: it leaves, scrambled from the
all-zero state (R142), with the injections that fall on its codewords. -/
def State.sendBurstLine (s : State) (c payload k : Nat) : State :=
  let x := s.lane c
  let r := lineCodewords 0 (layBlocks payload (80 * k) x.tx.items) x.tx.inj
  (s.setLane c { x with tx := { x.tx with items := [], scr := r.2, inj := [], sent := x.tx.sent + k } }).emit
    (.symbols c (invertLevels (s.txInverted c) (burstLevels (s.rd F.CH_SB_CFG_EN_LEAD c) r.1)))

end Sys2Proof.Machine
end

