-- ==== Sys2Proof/Machine/Edit.lean ====
section
/-!
DEFINITION. Edit programs (06_parse_classify, R177 to R180): the operations on the bytes of a frame and the offsets of
its layers, their faults, the incremental IPv4 checksum, and the template's fields that the final frame sets.
-/

namespace Sys2Proof.Machine

/-- A frame while a program runs: its bytes; the offsets of layers 0 to 7 and, as 8, 9 and 10, of the IPv4, IPv6 and
UDP headers of a template, as 11 of its byte 0 as the pass began, and as 12 of the template's first byte; its labels; the template
placed; and whether a value that the spec does not state was taken. -/
structure EditSt where
  body : List Byte
  lay : List (Option Nat)
  labels : Nat
  tmpl : List Byte
  used : Bool
  deriving DecidableEq, Repr

/-- Why a program does not complete: EDIT_FAULT, or TTL_EXPIRED. -/
inductive EditErr where
  | fault | ttl
  deriving DecidableEq, Repr

def EditSt.at (x : EditSt) (l : Nat) : Option Nat := x.lay.getD l none

/-- Bytes from an offset replaced by others of the same number. -/
def patch (body : List Byte) (ofs : Nat) (new : List Nat) : List Byte :=
  (new.foldl (fun (p : List Byte × Nat) v => (p.1.set p.2 (BitVec.ofNat 8 v), p.2 + 1)) (body, ofs)).1

/-- The EtherType in front of an offset set, where the frame has one there. -/
def setEtherType (body : List Byte) (ofs v : Nat) : List Byte := if ofs < 2 then body else patch body (ofs - 2) (bytesBE 2 v)

/-- Bytes inserted at an offset; layers at or behind it move. -/
def EditSt.insertAt (x : EditSt) (ofs : Nat) (new : List Byte) : EditSt :=
  { x with body := x.body.take ofs ++ new ++ x.body.drop ofs,
           lay := x.lay.map (·.map (fun o => if ofs ≤ o then o + new.length else o)) }

/-- Bytes removed from an offset; layers behind them move, and layers that start within them are gone, but for one at
their first byte where something follows in its place. -/
def EditSt.removeAt (x : EditSt) (ofs n : Nat) (keepFirst : Bool) : EditSt :=
  let move (o : Nat) : Option Nat :=
    if o < ofs then some o else if ofs + n ≤ o then some (o - n) else if o = ofs && keepFirst then some o else none
  { x with body := x.body.take ofs ++ x.body.drop (ofs + n), lay := x.lay.map (·.bind move) }

/-- The one's-complement sum of a list of 16-bit words, folded. -/
def ocSum (ws : List Nat) : Nat := ws.foldl (fun a w => let t := a + w; t % 65536 + t / 65536) 0

/-- The 16-bit words of some bytes, most significant byte first, an odd byte padded with 0. -/
def words16 (bs : List Byte) : List Nat := (List.range (ceilDiv bs.length 2)).map (fun i => fieldBE bs (2 * i) 2)

/-- The IPv4 header checksum updated for one 16-bit word of the header that has changed (R180). -/
def incChecksum (body : List Byte) (ip old new : Nat) : List Byte :=
  let hc := fieldBE body (ip + 10) 2
  patch body (ip + 10) (bytesBE 2 (65535 - ocSum [65535 - hc, 65535 - old, new]))

/-- The IP version of the header at an offset. -/
def ipVersion (body : List Byte) (ip : Nat) : Nat := byteAt body ip / 16

/-! ### Operations (Table: Edit operations) -/

/-- MPLS_POP. -/
def EditSt.pop (x : EditSt) (a imm : Nat) : Except EditErr EditSt :=
  match x.at 2 with
  | none => .error .fault
  | some o =>
    if a = 0 || 4 < a || x.labels < a then .error .fault
    else
      let bos := bit (fieldBE x.body (o + 4 * (a - 1)) 4) 8
      let body := if bos then setEtherType x.body o imm else x.body
      let left := x.labels - a
      .ok { ({ x with body := body }).removeAt o (4 * a) (left != 0) with labels := left }

/-- The word that a source names: IMM, ARG0 or ARG1. -/
def editSource (a imm arg0 arg1 : Nat) : Option Nat :=
  if a = 0 then some (imm % 2 ^ 32) else if a = 1 then some arg0 else if a = 2 then some arg1 else none

/-- The TTL that MPLS_PUSH copies from the outer IP header; the spec states none for another IP version. -/
def outerTtl (body : List Byte) (ip : Nat) : Option Nat :=
  if ipVersion body ip = 4 then some (byteAt body (ip + 8))
  else if ipVersion body ip = 6 then some (byteAt body (ip + 7)) else none

/-- MPLS_PUSH; `free` is the TTL where the spec states none. -/
def EditSt.push (x : EditSt) (src : Option Nat) (ttlCopy : Bool) (free : Nat) : Except EditErr EditSt :=
  match src with
  | none => .error .fault
  | some v =>
    let entry (bos : Bool) (ttl : Nat) : List Byte :=
      toBytes (bytesBE 4 (v / 512 * 512 + (if bos then 256 else 0) + (if ttlCopy then ttl else v % 256)))
    match x.at 2, x.at 3 with
    | some o, _ =>
      let y := x.insertAt o (entry false (byteAt x.body (o + 3)))
      .ok { y with lay := y.lay.set 2 (some o), labels := x.labels + 1 }
    | none, some o =>
      let t := outerTtl x.body o
      let y := ({ x with body := setEtherType x.body o 0x8847 }).insertAt o (entry true (t.getD (free % 256)))
      .ok { y with lay := y.lay.set 2 (some o), labels := 1, used := x.used || (ttlCopy && t.isNone) }
    | none, none => .error .fault

/-- MPLS_SWAP. -/
def EditSt.swap (x : EditSt) (src : Option Nat) : Except EditErr EditSt :=
  match src, x.at 2 with
  | some v, some o =>
    .ok { x with body := patch x.body o (bytesBE 4 (v / 512 * 512 + fieldBE x.body o 4 % 512)) }
  | _, _ => .error .fault

/-- DEC_TTL (R179, R180). -/
def EditSt.decTtl (x : EditSt) (a : Nat) : Except EditErr EditSt :=
  match x.at a with
  | none => .error .fault
  | some o =>
    let dec (i : Nat) : Except EditErr (List Byte) :=
      if byteAt x.body i ≤ 1 then .error .ttl else .ok (patch x.body i [byteAt x.body i - 1])
    if a = 2 then (dec (o + 3)).map (fun b => { x with body := b })
    else if a = 3 || a = 6 then
      if ipVersion x.body o = 4 then
        (dec (o + 8)).map (fun b => { x with body := incChecksum b o (fieldBE x.body (o + 8) 2) (fieldBE b (o + 8) 2) })
      else if ipVersion x.body o = 6 then (dec (o + 7)).map (fun b => { x with body := b })
      else .error .fault
    else .error .fault

/-- SET_DSCP (R180). -/
def EditSt.setDscp (x : EditSt) (a dscp : Nat) : Except EditErr EditSt :=
  match x.at a with
  | none => .error .fault
  | some o =>
    if a ≠ 3 && a ≠ 6 then .error .fault
    else if ipVersion x.body o = 4 then
      let b := patch x.body (o + 1) [dscp * 4 + byteAt x.body (o + 1) % 4]
      .ok { x with body := incChecksum b o (fieldBE x.body o 2) (fieldBE b o 2) }
    else if ipVersion x.body o = 6 then
      .ok { x with body := patch x.body o [0x60 + dscp / 4, dscp % 4 * 64 + byteAt x.body (o + 1) % 64] }
    else .error .fault

/-- SET_TC. -/
def EditSt.setTc (x : EditSt) (a tc : Nat) : Except EditErr EditSt :=
  match x.at a with
  | none => .error .fault
  | some o =>
    if a = 1 then .ok { x with body := patch x.body o [tc * 32 + byteAt x.body o % 32] }
    else if a = 2 then
      let v := byteAt x.body (o + 2)
      .ok { x with body := patch x.body (o + 2) [v / 16 * 16 + tc * 2 + v % 2] }
    else .error .fault

/-- KLOLA_INS (R189, R198): the tag after the source MAC address, with the arrival stamp as origin. -/
def EditSt.klolaIns (x : EditSt) (imm stamp : Nat) : Except EditErr EditSt :=
  if (x.at 7).isSome then .error .fault
  else
    let v := 0x88B5 * 2 ^ 48 + imm % 32 * 2 ^ 43 + stamp / 4 % 2 ^ 40 * 8 + (if bit imm 5 then 4 else 0)
    let y := x.insertAt 12 (toBytes (bytesBE 8 v))
    .ok { y with lay := y.lay.set 7 (some 14) }

/-- KLOLA_DEL. -/
def EditSt.klolaDel (x : EditSt) : Except EditErr EditSt :=
  match x.at 7 with
  | none => .error .fault
  | some o => let y := x.removeAt (o - 2) 8 false; .ok { y with lay := y.lay.set 7 none }

/-- STRIP. -/
def EditSt.strip (x : EditSt) (a : Nat) : Except EditErr EditSt :=
  if 6 < a then .error .fault
  else match x.at a with
    | none => .error .fault
    | some 0 => .ok x
    | some o =>
      let y := x.removeAt 0 o false
      let lay := match x.at 7 with | some t => if t < o + 2 then y.lay.set 7 none else y.lay | none => y.lay
      .ok { y with lay, labels := if (y.at 2).isSome then x.labels else 0 }

/-- ENCAP with the bytes of a template entry. -/
def EditSt.encap (x : EditSt) (t : List Byte) : Except EditErr EditSt :=
  if !bit (byteAt t 127) 7 then .error .fault
  else
    let n := min 112 (byteAt t 112)
    let y := x.insertAt 0 (t.take n)
    let pos (i : Nat) : Option Nat := if byteAt t i = 0xFF then none else some (byteAt t i)
    let first := if n = 0 then none else some 0
    .ok { y with lay := y.lay.take 8 ++ [pos 113, pos 114, pos 115, y.at 11, first], tmpl := t }

/-- Whether the result begins with an Ethernet header (R178): with byte 0 of the frame as the pass began, with the first byte of
INNER_L2 or with that of a template. -/
def EditSt.etherFirst (x : EditSt) : Bool := [5, 11, 12].any (fun l => x.at l == some 0)

/-- One operation of a program (R177). -/
def editOp (s : State) (stamp arg0 arg1 free op : Nat) (x : EditSt) : Except EditErr EditSt :=
  let opc := op / 2 ^ 56
  let a := op / 2 ^ 52 % 16
  let b := op / 2 ^ 48 % 16
  let imm := op % 2 ^ 48
  if opc = 1 then x.pop a (imm % 65536)
  else if opc = 2 then x.push (editSource a imm arg0 arg1) (bit b 0) free
  else if opc = 3 then x.swap (editSource a imm arg0 arg1)
  else if opc = 4 then x.decTtl a
  else if opc = 5 then x.setDscp a (imm % 64)
  else if opc = 6 then x.setTc a (imm % 8)
  else if opc = 7 then x.klolaIns (imm % 64) stamp
  else if opc = 8 then x.klolaDel
  else if opc = 9 then x.strip a
  else if opc = 10 then x.encap (s.tmplEnt (imm % 512))
  else .error .fault

/-- The operations of a program up to END. -/
def editRun (f : Nat → EditSt → Except EditErr EditSt) : List Nat → EditSt → Except EditErr EditSt
  | [], x => .ok x
  | op :: ops, x => if op / 2 ^ 56 = 0 then .ok x else match f op x with
    | .error e => .error e
    | .ok y => editRun f ops y

/-! ### The template's fields (R180) -/

/-- The checksum of a UDP header and what follows it under an IPv6 header. -/
def udpChecksum6 (body : List Byte) (ip udp : Nat) : Nat :=
  let n := body.length - udp
  let sum := ocSum (words16 (slice body (ip + 8) 32) ++ [n / 65536, n % 65536, 17] ++ words16 (body.drop udp))
  if sum = 65535 then 65535 else 65535 - sum

/-- The fields of a UDP header of a template: length, source port with ENTROPY, and checksum. Of a template with an IPv4 and an IPv6
header the checksum is that of the IPv6 one: the spec does not say which of the two the UDP header is under (DESIGN CHOICE, log
entry 130). -/
def fixUdp (t body : List Byte) (ip4 ip6 : Option Nat) (udp hash : Nat) : List Byte :=
  let flags := byteAt t 116
  let body := patch body (udp + 4) (bytesBE 2 (body.length - udp))
  let body := if bit flags 0 then patch body udp (bytesBE 2 (49152 + hash % 16384)) else body
  match ip4, ip6 with
  | _, some o =>
    if bit flags 1 then patch body (udp + 6) [0, 0]
    else
      let zeroed := patch body (udp + 6) [0, 0]
      patch body (udp + 6) (bytesBE 2 (udpChecksum6 zeroed o udp))
  | some _, none => patch body (udp + 6) [0, 0]
  | none, none => body

/-- The length and checksum fields of the template set from the final frame. -/
def EditSt.fixUp (x : EditSt) (hash : Nat) : List Byte :=
  let b := x.body
  let b := match x.at 8 with
    | none => b
    | some o =>
      let b := patch (patch b (o + 2) (bytesBE 2 (b.length - o))) (o + 10) [0, 0]
      patch b (o + 10) (bytesBE 2 (65535 - ocSum (words16 (slice b o (byteAt b o % 16 * 4)))))
  let b := match x.at 9 with
    | none => b
    | some o => patch b (o + 4) (bytesBE 2 (b.length - o - 40))
  match x.at 10 with
  | none => b
  | some o => fixUdp x.tmpl b (x.at 8) (x.at 9) o hash

/-- CRC-32C, reflected, initial value and final XOR all ones. -/
def crc32c (bs : List Byte) : Nat :=
  (bs.foldl (fun c b => (List.range 8).foldl (fun c _ => if c % 2 = 1 then c / 2 ^^^ 0x82F63B78 else c / 2)
    (c ^^^ b.toNat)) 0xFFFFFFFF) ^^^ 0xFFFFFFFF

/-- The flow hash of a pass (R180): CRC-32C over its ternary key. -/
def State.flowHash (s : State) (w : Walk) : Nat := crc32c (padKey 40 (buildKey w.fv (s.profEnt w.prof) 24))

/-- An edit program run on a frame (R177 to R180): the bytes that it gives, and whether it took the free value. -/
def State.runEdit (s : State) (f : Frame) (w : Walk) (act : List Byte) (hash free : Nat) :
    Except EditErr (List Byte × Bool) :=
  let prog := s.editEnt (fieldLE act 10 2 % 1024)
  let ops := (List.range 8).map (fun i => fieldLE prog (8 * i) 8)
  let x0 : EditSt := { body := f.body, lay := w.lay ++ [none, none, none, some 0, none], labels := w.labels, tmpl := [], used := false }
  match editRun (editOp s f.stamp (fieldLE act 16 4) (fieldLE act 20 4) free) ops x0 with
  | .error e => .error e
  | .ok x =>
    if x.body.length < 14 || !x.etherFirst then .error .fault else .ok (x.fixUp hash, x.used)

end Sys2Proof.Machine
end

