-- ==== Sys2Proof/Machine/Ptp.lean ====
section
/-!
DEFINITION. PTP messages (09_pegs): the recogniser (R250), the correction of the transparent clock (R251 to R254), and
the stamp records of messages (R255).
-/

namespace Sys2Proof.Machine

/-- Where a recognised PTP message has its header, and its UDP header with whether IPv4 carries it. -/
structure PtpAt where
  ofs : Nat
  udp : Option (Nat × Bool)
  deriving DecidableEq, Repr

/-- An IP header at an offset that carries UDP to port 319 or 320 (R250). -/
def ptpIp (b : List Byte) (v4 : Bool) (o : Nat) : Option PtpAt :=
  let udp := if v4 then o + 20 else o + 40
  let ok := if v4 then byteAt b o == 0x45 && byteAt b (o + 9) == 17 && fieldBE b (o + 6) 2 % 16384 == 0
    else byteAt b o / 16 == 6 && byteAt b (o + 6) == 17
  let port := fieldBE b (udp + 2) 2
  if ok && (port == 319 || port == 320) then some { ofs := udp + 8, udp := some (udp, v4) } else none

/-- Up to n MPLS labels, the last followed by IPv4 or IPv6 as its first nibble shows. -/
def ptpMpls (b : List Byte) : Nat → Nat → Option PtpAt
  | 0, _ => none
  | n + 1, o =>
    if bit (byteAt b (o + 2)) 0 then
      let nib := byteAt b (o + 4) / 16
      if nib = 4 then ptpIp b true (o + 4) else if nib = 6 then ptpIp b false (o + 4) else none
    else ptpMpls b n (o + 4)

/-- The headers from an EtherType on, up to n VLAN tags first. -/
def ptpType (b : List Byte) : Nat → Nat → Option PtpAt
  | n, o =>
    let et := fieldBE b o 2
    if et = 0x8100 ∨ et = 0x88A8 then
      match n with
      | 0 => none
      | n + 1 => ptpType b n (o + 4)
    else if et = 0x88F7 then some { ofs := o + 2, udp := none }
    else if et = 0x8847 ∨ et = 0x8848 then ptpMpls b 4 (o + 2)
    else if et = 0x0800 then ptpIp b true (o + 2)
    else if et = 0x86DD then ptpIp b false (o + 2)
    else none

/-- The recogniser (R250): it reads the first 128 bytes of the frame at most, and checks versionPTP 2. -/
def ptpFind (body : List Byte) : Option PtpAt :=
  let b := body.take 128
  match ptpType b 2 (if taggedBody b then 20 else 12) with
  | none => none
  | some p => if p.ofs + 2 ≤ b.length ∧ byteAt b (p.ofs + 1) % 16 = 2 then some p else none
where
  /-- Whether a frame begins with a Klola tag. -/
  taggedBody (b : List Byte) : Bool := fieldBE b 12 2 == 0x88B5

/-- messageType of a PTP message. -/
def PtpAt.msgType (p : PtpAt) (body : List Byte) : Nat := byteAt body p.ofs % 16

/-- Whether a message leaving a channel is corrected (Table: Corrected messages). -/
def State.ptpCorrects (s : State) (c src typ : Nat) : Bool :=
  s.on F.CH_PTP_CFG_TC_EN c && src != 1 && src != 2 && (if s.on F.CH_PTP_CFG_P2P c then typ == 0 else decide (typ ≤ 3))

/-- The residence time of a message in 1/16 ns (R252), STAMP being modulo 2^64: none where it is negative or the message came
before the oldest kept step (R253). `cyc` is the device cycle of its arrival. -/
def State.residence (s : State) (stamp cyc exit : Nat) : Option Int :=
  let steps := s.pegs.steps
  let gone := match steps.getLast? with | some o => decide (cyc < o.1) | none => false
  let moved := ((steps.filter (fun e => decide (cyc < e.1))).map (·.2)).sum
  let r := diff64 exit stamp - moved
  if gone || r < 0 then none else some r

/-- H-OPERATE in a terminal record (Table: Terminal record states at the head end). -/
def hOperate : Nat := 4

/-- The ingress term in 1/16 ns (R252), none where it is unknown (R253). Where κ leaves no positive divisor, the
spec states no value: `free`. -/
def State.ingressTerm (s : State) (f : Frame) (free : Nat) : Option Int :=
  if f.src = 3 then if s.on F.TWN_LINK_DLY_VALID 0 then some (s.rd F.TWN_LINK_DLY_DLY 0) else none
  else if !s.on F.CH_PTP_CFG_IN_ADD f.entry then some 0
  else if s.role f.entry = roleTerm then
    if s.on F.CH_PTP_TDLY_VALID f.entry then some (s.rd F.CH_PTP_TDLY_DLY f.entry) else none
  else if s.role f.entry = roleHead then
    let k := s.rdInt F.CH_PTP_KAPPA f.entry
    let d := (s.rd F.CH_TREE_DEPTH_DEPTH f.entry : Int) - (s.rd (F.CH_TREC_EQD f.tid) f.entry : Int)
    if s.rd (F.CH_TREC_STATE_STATE f.tid) f.entry ≠ hOperate then none
    else if k ≤ -(2 * 10 ^ 9) then some free
    else some (roundDiv (d * 256 * (10 ^ 9 + k)) (100 * (2 * 10 ^ 9 + k)).toNat)
  else if s.role f.entry = roleClient then some (s.rd F.CH_PTP_LINKDLY f.entry)
  else some 0

/-- The UDP checksum updated for a change of 8 bytes of the datagram (R254). -/
def udpAdjust (body : List Byte) (udp : Nat) (v4 : Bool) (old new : List Nat) : List Byte :=
  let hc := fieldBE body (udp + 6) 2
  if v4 && hc = 0 then body
  else
    let v := 65535 - ocSum ((65535 - hc) :: old.map (65535 - ·) ++ new)
    patch body (udp + 6) (bytesBE 2 (if v = 0 then 65535 else v))

/-- correctionField raised by a correction in 1/16 ns (R252, R253): the frame's bytes and whether it saturated. -/
def ptpAdd (body : List Byte) (p : PtpAt) (corr : Int) : List Byte × Bool :=
  let o := p.ofs + 8
  let raw := fieldBE body o 8
  let old : Int := if raw < 2 ^ 63 then (raw : Int) else (raw : Int) - 2 ^ 64
  let sum := old + corr * 4096
  let sat := decide (2 ^ 63 - 1 < sum)
  let new := if sat then 2 ^ 63 - 1 else codeInt 64 sum
  let w (v : Nat) : List Nat := (List.range 4).map (fun i => v / 2 ^ (16 * (3 - i)) % 65536)
  let b := patch body o (bytesBE 8 new)
  (match p.udp with | none => b | some (u, v4) => udpAdjust b u v4 (w raw) (w new), sat)

/-- The correction of a message that leaves a channel (R251 to R253): its bytes, whether it was corrected, and the
correction added in 1/16 ns. -/
def State.ptpCorrect (s : State) (c : Nat) (f : Frame) (p : PtpAt) (body : List Byte) (exit : Nat) :
    List Byte × Bool × Int × State :=
  if !s.ptpCorrects c f.src (p.msgType body) then (body, false, 0, s)
  else
    let v := s.takeFree
    match v.2.residence f.stamp f.cyc exit, v.2.ingressTerm f v.1 with
    | some r, some t =>
      let x := ptpAdd body p (r + t)
      let s := v.2.inc F.CH_PTP_CORR c
      (x.1, true, r + t, if x.2 then s.inc F.CH_PTP_SAT c else s)
    | _, _ => (body, false, 0, v.2.inc F.CH_PTP_NOCORR c)

/-- A frame that leaves a channel with an exit stamp in 1/16 ns of peg 0 (R251, R255): its bytes, whether they changed,
and its stamp record, made in the bound peg. -/
def State.ptpExit (s : State) (c : Nat) (f : Frame) (body : List Byte) (exit : Nat) : List Byte × Bool × State :=
  match ptpFind body with
  | none => (body, false, s)
  | some p =>
    let r := s.ptpCorrect c f p body exit
    let s := r.2.2.2
    let ofs := (exit : Int) - (s.now16 : Int)
    let s := if s.on F.CH_PTP_CFG_REC_TX c && decide (p.msgType body ≤ 3) then
        s.stampRecord c (shift16 (s.bound16 c) ofs) true r.2.1 (r.2.2.1 / 16).toNat body p.ofs
      else s
    (r.1, r.2.1, s)

/-- A frame that arrives on a channel (R255): its receive record, in the bound peg. -/
def State.ptpEntry (s : State) (c : Nat) (body : List Byte) (ago : Nat) : State :=
  if !s.on F.CH_PTP_CFG_REC_RX c then s
  else match ptpFind body with
    | none => s
    | some p =>
      if p.msgType body ≤ 3 then
        s.stampRecord c (s.rxBound c ago) false false 0 body p.ofs
      else s

end Sys2Proof.Machine
end

