-- ==== Sys2Proof/Machine/Send.lean ====
section
/-!
DEFINITION. Stage 10 and the scheduler: the tree link header (R84) and payload protection of what is sent (R370), the
selection of a frame (R209 to R214, R234, R236), LOB (R202), and the Surok link's transmitter (R329, R330).
-/

namespace Sys2Proof.Machine
open Host (Outcome)

/-! ### Protection (R370) -/

/-- Where a payload key is held: channel, terminal, slot, and direction (0 down, 1 up). -/
def keyIx (c t slot dir : Nat) : Nat := ((c * 32 + t) * 4 + slot) * 2 + dir

def State.payKey (s : State) (c t slot dir : Nat) : List Byte := tget (fun _ => []) s.img.keys (keyIx c t slot dir)

/-- The nonce of a protected frame (R370). -/
def ppNonce (dir tid ltn idx : Nat) : List Byte := toBytes ([dir, tid] ++ bytesBE 4 ltn ++ bytesBE 4 idx ++ [0, 0])

/-- The tree link header (Table: Tree link header). -/
def linkHeader (tid : Nat) (bc prot : Bool) (key len : Nat) : List Byte :=
  let v := tid % 32 * 2 ^ 43 + (if bc then 2 ^ 42 else 0) + (if prot then 2 ^ 41 else 0) + key % 4 * 2 ^ 39 + len % 65536 * 2 ^ 16
  let h := toBytes (bytesBE 6 v)
  h ++ toBytes (bytesBE 2 (crc16 h))

/-- The counter of a frame that is dropped for its protection (R370): a protected broadcast, or no key; none where it leaves. -/
def State.sealDrop (s : State) (c dir tid : Nat) (bc asks : Bool) : Option Fld :=
  let t := if dir = 1 then 0 else tid
  if bc && asks then some F.CH_PP_BCDROP
  else if s.wantsProt c t asks bc && (!s.on (F.CH_PP_CUR_VALID t) c || s.payKey c t (s.rd (F.CH_PP_CUR t) c) dir == []) then
    some F.CH_PP_NOKEY
  else none

/-- A frame with its link header, protected where it is to be (R370): none where it is dropped. `dir` is 0 from a head end and 1
from a terminal, whose own keys stand at t = 0; `idx` the index of its Start block in line tick `ltn`, `asks` whether its
descriptor or grant asks for protection. -/
def State.sealFrame (s : State) (c dir tid : Nat) (bc asks : Bool) (ltn idx : Nat) (bytes : List Byte) :
    Option (List Byte) × State :=
  let t := if dir = 1 then 0 else tid
  match s.sealDrop c dir tid bc asks with
  | some fld => (none, s.inc fld c)
  | none =>
    if s.wantsProt c t asks bc then
      let slot := s.rd (F.CH_PP_CUR t) c
      let h := linkHeader tid bc true slot (bytes.length + 16)
      (some (h ++ Config.gcmSeal (s.payKey c t slot dir) (ppNonce dir tid ltn idx) (h.take 6) bytes), s)
    else (some (linkHeader (if bc then 0 else tid) bc false 0 bytes.length ++ bytes), s)

/-! ### What leaves a queue -/

/-- The FCS of a frame as it leaves: the one it arrived with, or a fresh one where the frame was changed (R180). -/
def leavingFcs (f : Frame) (body : List Byte) (changed : Bool) : List Byte :=
  if f.fcsNew || changed then fcsBytes body else f.fcs

/-- A frame's body with LOB set in its tag (R202). -/
def withLob (body : List Byte) : List Byte := body.set 19 (BitVec.ofNat 8 (byteAt body 19 ||| 2))

/-- Whether a frame leaves with LOB set by its member: a tagged frame sent for a chord with none queued behind it. -/
def State.lobNow (s : State) (q : Nat) (x : QFrame) : Bool := x.kind == 1 && taggedBody x.f.body && s.qCount q == 0

/-- A queue notes that it has sent a frame: counts, drain rate, its channel's line tick, and a round-robin member that
has become empty loses its deficit (R203, R213). -/
def State.noteSent (s : State) (q : Nat) (x : QFrame) : State :=
  let s := (s.inc F.QSH_Q_TX q).countDrain q x.len
  let s := { s with store := { s.store with sent := tput (fun _ => false) s.store.sent q true } }
  s.dropDeficit q

/-- The device cycle in 1/100 block of 0.16 ns; a cycle of 0.5 ns is 3.125 blocks. -/
def cyclesToBlocks (n : Nat) : Nat := ceilDiv (n * 25) 8

/-- The line tick that a head end has on the line: its number and the device cycle at which block 0 was launched. -/
def State.lineTickNow (s : State) (c : Nat) : Option (Nat × Nat) := (tget (fun _ => Tree.reset) s.trees c).line.map (fun l => (l.1, l.2.1))

def State.tree (s : State) (c : Nat) : Tree := tget (fun _ => Tree.reset) s.trees c
def State.setTree (s : State) (c : Nat) (x : Tree) : State :=
  { s with trees := tput (fun _ => Tree.reset) s.trees c x }
def State.modTree (s : State) (c : Nat) (f : Tree → Tree) : State := s.setTree c (f (s.tree c))

/-- The head of the measurement queue shown in CH_TUNE_MEAS0 and CH_TUNE_MEAS1, and its level. -/
def State.showMeas (s : State) (c : Nat) : State :=
  let q := (s.tree c).meas
  let h := q.headD (0, 0)
  ((s.setReg c F.CH_TUNE_MEAS0.off h.1).setReg c F.CH_TUNE_MEAS1.off h.2).wr F.CH_TUNE_MSTAT_LEVEL c q.length

/-- The block of a head end's line tick at which the next frame can start (R85): the first free one, and not before
now. -/
def State.headBlock (s : State) (c launched : Nat) : Nat := max (s.tree c).busyTo (cyclesToBlocks (s.pegs.cyc - launched))

/-- How far ahead of now a block of a line tick launched at a device cycle begins, in 1/16 ns: a block is 0.16 ns and a cycle 0.5
ns. -/
def State.blockAhead (s : State) (launched block : Nat) : Int :=
  ((block * 256 / 100 : Nat) : Int) - ((8 * (s.pegs.cyc - launched) : Nat) : Int)

/-- The instant at which a frame's Start leaves in a block of a line tick (R210, R247), in 1/16 ns of peg 0. -/
def State.exit16 (s : State) (c launched block : Nat) : Nat := shift16 s.now16 (s.latency c true + s.blockAhead launched block)

/-- The same instant in the bound peg, in 1/100 ns. -/
def State.exit100 (s : State) (c launched block : Nat) : Nat :=
  shift16 (s.bound16 c) (s.latency c true + s.blockAhead launched block) * 100 / 16

/-- How many blocks a head end's line tick holds (R79). -/
def State.tickBlocks (s : State) (c : Nat) : Nat := 80 * jCodewords (s.framer c).j

/-- A frame made ready to leave on a tree, its Start at a block of a line tick, at an instant of peg 0: dropped where its protection
drops it (R370), else with LOB (R202), PTP correction and stamp record (R251, R255), FCS and link header. -/
def State.treeOut (s : State) (c dir tid : Nat) (bc asks : Bool) (ltn block exit : Nat) (x : QFrame) (lob : Bool) :
    Option (List Byte) × State :=
  match s.sealDrop c dir tid bc asks with
  | some fld => (none, s.inc fld c)
  | none =>
    let body := if lob then withLob x.f.body else x.f.body
    let p := s.ptpExit c x.f body exit
    p.2.2.sealFrame c dir tid bc asks ltn block (p.1 ++ leavingFcs x.f p.1 (p.2.1 || lob))

/-- A frame sent by a head end, from a block of its line tick, which it launched at a device cycle (R85, R251, R370). -/
def State.headSend (s : State) (c ltn launched block : Nat) (x : QFrame) (lob : Bool) : State :=
  let r := s.treeOut c 0 x.tid x.bc x.prot ltn block (s.exit16 c launched block) x lob
  match r.1 with
  | none => r.2
  | some out => ((r.2.modTree c (fun t => { t with busyTo := block + frameBlocks (out.length - 8) })).putFrame c block out).emit
      (.treeFrame c out)

/-- The preamble and the start frame delimiter of IEEE 802.3 (R262). -/
def macPreamble : List Byte := List.replicate 7 0x55 ++ [0xD5]

/-- A frame sent by the client MAC (R262): behind preamble and SFD, padded to 64 bytes, with a fresh FCS over the padded frame. -/
def State.clientSend (s : State) (c : Nat) (x : QFrame) : State :=
  let exit := shift16 s.now16 (s.latency c true)
  let p := s.ptpExit c x.f x.f.body exit
  let padded := p.1 ++ List.replicate (60 - p.1.length) 0
  let out := if p.1.length < 60 then padded ++ fcsBytes padded else p.1 ++ leavingFcs x.f p.1 p.2.1
  (p.2.2.inc F.CH_MAC_TX_OK c).emit (.clientFrame c (macPreamble ++ out))

/-! ### Selection -/

/-- How far an instant of peg 0 is past the launch instant of a frame in a timed queue, in 1/16 ns (R236); STAMP is modulo 2^64. -/
def State.pastLaunch (s : State) (q : Nat) (x : QFrame) (t16 : Nat) : Int :=
  diff64 t16 x.f.stamp - ((16 * s.rd F.QSH_Q_TL q : Nat) : Int)

/-- Whether timed launch lets a frame start at an instant of peg 0. -/
def State.launchPasses (s : State) (q : Nat) (x : QFrame) (t16 : Nat) : Bool :=
  !s.on F.QSH_Q_CFG_TL_EN q || decide (0 ≤ s.pastLaunch q x t16)

/-- Whether the head frame of a queue may start (R211), at an instant of peg 0 in 1/16 ns and of the bound peg in
1/100 ns; `bytes` is what it transmits, `fits` what the role asks of it. -/
def State.eligible (s : State) (q t16 t100 : Nat) (bytes : QFrame → Nat) (fits : QFrame → Bool) : Option QFrame :=
  let c := q / 64
  match s.headOf q with
  | none => none
  | some x =>
    if s.shpPasses (shpQueue q) && s.launchPasses q x t16 &&
        s.gatePasses c t100 (q % 64 / 8) (s.lineDuration c (bytes x)) && fits x then some x else none

/-- The queue that an L1 node picks (R212), with the frame, and the state after its round robin. -/
def State.pickQueue (s : State) (c g : Nat) (heads : List (Nat × QFrame)) : Option (Nat × QFrame × State) :=
  match heads with
  | [] => none
  | (k0, x0) :: _ =>
    if !s.on (F.CH_CG_CFG_QMODE g) c then some (64 * c + 8 * g + k0, x0, s)
    else
      let r := s.drr (8 * c + g) (heads.map (fun e => (e.1, e.2.len))) (fun k => 64 * c + 8 * g + k)
        (fun k => s.rd F.QSH_Q_CFG_QUANTUM (64 * c + 8 * g + k)) drrFuel
      (heads.find? (·.1 == r.1)).map (fun e => (64 * c + 8 * g + e.1, e.2, r.2))

/-- The choice of the L2 node (R211 to R213) among the heads that are eligible, by group: the queue, its frame, and the
state after the round robins. -/
def State.pickGroup (s : State) (c : Nat) (heads : Nat → List (Nat × QFrame)) : Option (Nat × QFrame × State) :=
  let gs := (List.range 8).filter (fun g => !(heads g).isEmpty && s.shpPasses (shpGroup c g))
  let pri (g : Nat) : Nat := s.rd (F.CH_CG_CFG_PRI g) c
  let top := gs.foldl (fun m g => max m (pri g)) 0
  let best := gs.filter (fun g => pri g == top)
  if !s.shpPasses (shpChan c) then none
  else match best with
    | [] => none
    | [g] => s.pickQueue c g (heads g)
    | g0 :: _ =>
      let set := best.map (fun g => (g, match s.pickQueue c g (heads g) with | some p => p.2.1.len | none => 0))
      let r := s.drr (512 + 8 * c + top) set (fun g => 4096 + 8 * c + g) (fun g => s.rd (F.CH_CG_CFG_QUANTUM g) c) drrFuel
      let g := if best.contains r.1 then r.1 else g0
      r.2.pickQueue c g (heads g)

/-- The head frames of a channel that exceed every span of their gates are dropped (R234), up to a number. -/
def State.dropOversize (s : State) (q : Nat) : Nat → State
  | 0 => s
  | n + 1 => match s.headOf q with
    | none => s
    | some x =>
      if s.gateOversize (q / 64) (q % 64 / 8) (s.lineDuration (q / 64) (s.sentBytes (q / 64) x)) then
        ((((s.dequeue q).dropDeficit q).release x).inc F.CH_GATE_OVERSIZE (q / 64)).dropOversize q n
      else s

/-- A selection of a channel for an instant (R210 to R213). -/
def State.select (s : State) (c t16 t100 : Nat) (bytes : QFrame → Nat) (fits : QFrame → Bool) :
    Option (Nat × QFrame × State) :=
  s.pickGroup c (fun g => (List.range 8).filterMap (fun k => (s.eligible (64 * c + 8 * g + k) t16 t100 bytes fits).map (fun x => (k, x))))

/-- A selected frame charged (R214) and taken from its queue, its words read (R187), its late launch counted (R236):
whether it can be sent. -/
def State.takeSelected (s : State) (q : Nat) (x : QFrame) (t16 : Nat) (r : FsRead) : Bool × State :=
  let bytes := s.sentBytes (q / 64) x
  let s := (shpOf q).foldl (fun s k => s.shpCharge k bytes) s
  let s := (((s.dequeue q).noteSent q x).release x)
  let s := if s.on F.QSH_Q_CFG_TL_EN q && decide (16000 < s.pastLaunch q x t16) then s.inc F.QSH_Q_TL_LATE q else s
  let w := s.readWords r 0 x.slice
  (!w.2, w.1)

/-- Whether a channel's pause timer runs (R266); it counts in 0.01 ns. -/
def State.pauseHolds (s : State) (c : Nat) : Bool := decide (s.pegs.cyc * 50 < tget (fun _ => 0) s.egress.pauseEnd c)

/-- Whether a channel's transmitter can begin a frame: a lane that is ON, no electrical idle, no doze, and a client not
held by a pause (R49, R210, R266, R395). -/
def State.canSend (s : State) (c : Nat) : Bool :=
  s.octRuns (octOf c) && s.rdP (lanePWR c) == pwrOn && !s.txIdle c && !s.on F.CH_PWR_STAT_DOZING c && !s.pwr.waking.contains c &&
    !(s.role c == roleClient && s.on F.CH_MAC_STAT_PAUSED c && s.pauseHolds c)

/-- A head end's selection (R85, R210): a frame starts only if its Terminate block lies in the line tick. -/
def State.headSelect (s : State) (c : Nat) (r : FsRead) : State :=
  match s.lineTickNow c with
  | none => s
  | some (ltn, launched) =>
    let block := s.headBlock c launched
    let t16 := s.exit16 c launched block
    let t100 := s.exit100 c launched block
    let room := s.tickBlocks c
    match s.select c t16 t100 (s.sentBytes c) (fun x => decide (block + frameBlocks (s.sentBytes c x) ≤ room)) with
    | none => s
    | some (q, x, s) =>
      let t := s.takeSelected q x t16 r
      if t.1 then t.2.headSend c ltn launched block x (t.2.lobNow q x) else t.2

/-- A client's selection. -/
def State.clientSelect (s : State) (c : Nat) (r : FsRead) : State :=
  let t16 := shift16 s.now16 (s.latency c true)
  let t100 := shift16 (s.bound16 c) (s.latency c true) * 100 / 16
  match s.select c t16 t100 (s.sentBytes c) (fun _ => true) with
  | none => s
  | some (q, x, s) =>
    let t := s.takeSelected q x t16 r
    if t.1 then t.2.clientSend c x else t.2

/-- Queues held up by a deep head are counted per tick (R197); called by the tick's work. -/
def State.countDeepHol (s : State) (c : Nat) : State :=
  let n := ((List.range 64).filter (fun k => s.deepBlocked (64 * c + k))).length
  if s.canSend c then s.addN F.OCT_DEEP_HOL (octOf c) n else s

/-! ### The Surok link (R329, R330) -/

/-- A field of a Surok lane's registers at 0xB0400 + 64 * lane. -/
def surokFld (l ofs hi lo : Nat) : Fld := ⟨0xB0400 + 64 * l + ofs, hi, lo⟩

/-- Whether a Surok lane is in service for receiving (R330). -/
def State.laneRx (s : State) (i : Nat) : Bool :=
  !bit (s.rd F.TWN_LANES_OUT 0) i && s.rdP (tfAlign (64 + i)) == alSync

/-- Whether a Surok lane is in service for sending (R330). -/
def State.laneTx (s : State) (i : Nat) : Bool :=
  s.laneRx i && [0, 1, 2, 7].all (fun b => !s.onP (defFld (64 + i) b)) && !bit s.twin.rdi i

def State.lanesTx (s : State) : List Nat := (List.range 8).filter s.laneTx

/-- The Surok link header (Table: Surok link header). -/
def surokHeader (tid : Nat) (bc prot fwd : Bool) (cg : Nat) (copy : Bool) (len queue : Nat) : List Byte :=
  let b (x : Bool) (n : Nat) : Nat := if x then 2 ^ n else 0
  let v := tid % 32 * 2 ^ 59 + b bc 58 + b prot 57 + b fwd 54 + cg % 8 * 2 ^ 51 + b copy 50 + len % 65536 * 2 ^ 32 +
    queue % 4096 * 2 ^ 16
  let h := toBytes (bytesBE 6 (v / 2 ^ 16))
  h ++ toBytes (bytesBE 2 (crc16 h))

/-- The head frame of every Surok queue dropped with no lane in service (R330). -/
def State.surokDrop (s : State) : State :=
  (List.range 8).foldl (fun s g => match s.headOf (qSurok g) with
    | none => s
    | some x => ((s.dequeue (qSurok g)).release x).inc F.TWN_TX_NOLANE 0) s

/-- The block of a Surok lane's line tick at which the next frame can start (R85, R329): the first free one, and not before now. -/
def State.surokBlock (s : State) (lane : Nat) : Nat :=
  let t := (s.lane (64 + lane)).tx
  max t.busyTo (cyclesToBlocks (s.pegs.cyc - t.launched))

/-- Whether a frame of some bytes behind its header can start on a Surok lane now: its Terminate lies in the line tick (R85,
R329). -/
def State.surokFits (s : State) (lane bytes : Nat) : Bool :=
  decide (s.surokBlock lane + frameBlocks bytes ≤ (s.lane (64 + lane)).tx.blocks)

/-- A frame with its header put into a Surok lane's line tick. -/
def State.surokPut (s : State) (lane : Nat) (out : List Byte) : State :=
  let block := s.surokBlock lane
  ((s.putFrame (64 + lane) block out).modLane (64 + lane) (fun x => { x with tx := { x.tx with
    busyTo := block + frameBlocks (out.length - 8) } })).emit (.surokFrame lane out)

/-- A frame of a Surok queue sent: a frame redirected from a STANDBY channel goes directly to the partner's queue of the
paired channel (R338), another is parsed there. -/
def State.surokSend (s : State) (g lane : Nat) (x : QFrame) : State :=
  let bytes := x.f.body ++ leavingFcs x.f x.f.body false
  let fwd := x.kind != 4
  let queue := if fwd then 64 * s.rd (F.TWN_PAIR_PCH (x.dest / 64)) 0 + x.dest % 64 else 0
  s.surokPut lane (surokHeader x.tid x.bc x.prot fwd g false bytes.length queue ++ bytes)

/-- How many records fit a copy frame with room for some bytes. -/
def fitRecs : List Rec → Nat → Nat
  | [], _ => 0
  | r :: rs, room => if r.bytes.length ≤ room then 1 + fitRecs rs (room - r.bytes.length) else 0

/-- The records of the copy buffer with the first n waiting ones marked as sent in a core tick. -/
def markSent (tick : Nat) : Nat → List (Rec × Option Nat) → List (Rec × Option Nat)
  | n + 1, (r, none) :: l => (r, some tick) :: markSent tick n l
  | n, e :: l => e :: markSent tick n l
  | _, [] => []

/-- The largest LEN of a copy frame that can start on a lane now. -/
def State.copyRoom (s : State) (lane : Nat) : Nat :=
  min 16383 (8 * ((s.lane (64 + lane)).tx.blocks - s.surokBlock lane - 1) - 2)

/-- How many waiting records the copy frame that can start on a lane now holds (R342). -/
def State.copyNow (s : State) (lane : Nat) : Nat :=
  if s.copyRoom lane < 64 then 0 else fitRecs ((s.twin.buf.filter (·.2.isNone)).map (·.1)) (s.copyRoom lane)

/-- The copy queue sent (R330, R342): whole waiting records in one copy frame, padded to 64 bytes with pad records. -/
def State.sendCopy (s : State) (lane : Nat) : State :=
  let waiting := (s.twin.buf.filter (·.2.isNone)).map (·.1)
  let n := s.copyNow lane
  let body := (waiting.take n).flatMap Rec.bytes
  let body := body ++ List.replicate (64 - body.length) 0
  { s with twin := { s.twin with buf := markSent s.eng.tick n s.twin.buf } }.surokPut lane
    (surokHeader 0 false false false 0 true body.length 0 ++ body)

/-- The Surok lane of a frame: by the flow hash among those in service for sending (R330). -/
def laneOf (lanes : List Nat) (x : QFrame) : Nat := lanes.getD (x.hash % lanes.length) 0

/-- The Surok link's selection (R330): the copy queue on the lowest lane, then the non-empty queue of the highest class
group, on a lane by the flow hash; what does not fit the line tick of its lane waits (R85). -/
def State.surokSelect (s : State) (r : FsRead) : State :=
  match s.lanesTx with
  | [] => s.surokDrop
  | lanes =>
    if 0 < s.copyNow (lanes.headD 0) then s.sendCopy (lanes.headD 0)
    else match (List.range 8).reverse.findSome? (fun g => (s.headOf (qSurok g)).map (fun x => (g, x))) with
      | none => s
      | some (g, x) =>
        if s.surokFits (laneOf lanes x) x.len then
          let w := (((s.dequeue (qSurok g)).countDrain (qSurok g) x.len).release x).readWords r 0 x.slice
          if w.2 then w.1 else w.1.surokSend g (laneOf lanes x) x
        else s

/-- SCHED_SELECT (R209, R210): a channel whose role is HEAD or CLIENT, or 64 for the Surok link. A terminal's frames are selected by
its bow engine. -/
def schedSelect (port : Nat) (r : FsRead) (s : State) : State :=
  if port = 64 then (if s.paired then s.surokSelect r else s)
  else if s.role port != roleHead && s.role port != roleClient then s
  else
    let s := (List.range 64).foldl (fun s k => s.dropOversize (64 * port + k) (s.qCount (64 * port + k))) s
    if !s.canSend port then s
    else if s.role port = roleHead then s.headSelect port r
    else s.clientSelect port r

/-- SCHED_SELECT. -/
def execSchedSelect (port : Fin 65) (rd : FsRead) (s : State) : Outcome State Fault Refusal := done s (schedSelect port rd s)

/-- TIMED_LAUNCH_DUE (R236): the head frame's launch instant arrives. The frame is eligible from then on, which the next
selection tests; nothing else changes. -/
def execTimedLaunchDue (_ : Fin 4096) (s : State) : Outcome State Fault Refusal := done s s

end Sys2Proof.Machine
end

