-- ==== Sys2Proof/Machine/Grants.lean ====
section
/-!
DEFINITION. The grant engine of a head end (05_frets, R146 to R151): windows and quiet areas (R110, R111), override
slots, the size of each burst, and the layout of the map; also the grant lead (R103), the commits that R104 refuses,
and the terminal records (R107).
-/

namespace Sys2Proof.Machine
open Host (Outcome)

/-! ### Tree timing (R102 to R104) -/

/-- DEPTH as it acts. -/
def State.depth (s : State) (c : Nat) : Nat := min 7800000 (s.rd F.CH_TREE_DEPTH_DEPTH c)

/-- W_DIFF as it acts. -/
def State.wDiff (s : State) (c : Nat) : Nat := min 2500000 (s.rd F.CH_TREE_WDIFF c)

/-- The grant lead (R103). -/
def State.leadFor (s : State) (c : Nat) : Nat :=
  min 80 (max (ceilDiv (s.depth c + 200000) 100000) (min 80 (s.rd F.CH_TREE_CFG_LEAD_MIN c)))

/-- The grant lead in effect at a head end (CH_TREE_DEPTH.LEAD). -/
def State.leadH (s : State) (c : Nat) : Nat := s.rd F.CH_TREE_DEPTH_LEAD c

/-- The states of a terminal record (Table: Terminal record states at the head end). -/
def hDiscover : Nat := 2
def hTune : Nat := 3
def hHold : Nat := 5

def State.recState (s : State) (c t : Nat) : Nat := s.rd (F.CH_TREC_STATE_STATE t) c

/-- H-IDLE: codes 0, 1 and 7. -/
def hIdle (st : Nat) : Bool := st == 0 || st == 1 || st == 7

/-- A commit of a channel's scope: the lead, and the refusal of R104 for a head end with a record in use. -/
def State.treeCommit (s old : State) (c : Nat) : State :=
  let changed := s.rd F.CH_TREE_DEPTH_DEPTH c != old.rd F.CH_TREE_DEPTH_DEPTH c ||
    s.rd F.CH_TREE_CFG_LEAD_MIN c != old.rd F.CH_TREE_CFG_LEAD_MIN c
  let refuse := changed && s.role c == roleHead && (List.range 32).any (fun t => !hIdle (s.recState c t))
  let s := if refuse then
      (s.wr F.CH_TREE_DEPTH_DEPTH c (old.rd F.CH_TREE_DEPTH_DEPTH c)).wr F.CH_TREE_CFG_LEAD_MIN c
        (old.rd F.CH_TREE_CFG_LEAD_MIN c)
    else s
  (s.wrB F.CH_TREE_CFG_REFUSED c refuse).wr F.CH_TREE_DEPTH_LEAD c (s.leadFor c)

/-! ### Terminal records -/

def State.setTerm (s : State) (c t : Nat) (x : Term) : State :=
  s.modTree c (fun y => { y with terms := tput (fun _ => Term.reset) y.terms t x })
def State.modTerm (s : State) (c t : Nat) (f : Term → Term) : State := s.setTerm c t (f (s.treeTerm c t))

/-- The channels that a requester's access to the channel window reaches when it writes (R38). -/
def State.chSel (s : State) (req : Nat) : List Nat :=
  let c := s.rd F.CHSEL_CH req
  match s.rd F.CHSEL_BCAST req with
  | 1 => (List.range 8).map (fun i => 8 * octOf c + i)
  | 2 => List.range 64
  | _ => [c]

/-- Whether write-only fields of an octant's registers act: not while it is in S2 or S3 (R429). -/
def State.octServes (s : State) (o : Nat) : Bool := s.octState o != stS2 && s.octState o != stS3

/-! ### Map entries (R131 to R133) -/

/-- The eight bytes of an entry, as a number. -/
def MapEnt.word (e : MapEnt) : Nat :=
  let b (x : Bool) (n : Nat) : Nat := if x then 2 ^ n else 0
  e.tid % 32 * 2 ^ 59 + b e.disc 58 + b e.rreq 57 + b e.bms 56 + b e.prot 55 + b e.classic 54 +
    e.start % 8192 * 2 ^ 32 + e.len % 8192 * 2 ^ 16

/-- An entry from its number; reserved bits are ignored. -/
def mapEnt (w : Nat) : MapEnt :=
  { tid := w / 2 ^ 59 % 32, disc := bit w 58, rreq := bit w 57, bms := bit w 56, prot := bit w 55, classic := bit w 54,
    start := w / 2 ^ 32 % 8192, len := w / 2 ^ 16 % 8192 }

/-- The frets that can be granted. -/
def fretsPerTick : Nat := 6245

/-- The first two conditions of R132. -/
def MapEnt.fits (e : MapEnt) : Bool :=
  decide (18 ≤ e.len) && e.len % 5 == 3 && decide (e.start + e.len ≤ fretsPerTick)

/-- A valid entry (R133). -/
def MapEnt.valid (e : MapEnt) : Bool := e.fits && (!e.disc || e.len == 18)

/-- An open discovery window. -/
def MapEnt.isOpen (e : MapEnt) : Bool := e.disc && !e.bms

/-- Whether two stretches of frets overlap. -/
def overlaps (a la b lb : Nat) : Bool := decide (a < b + lb) && decide (b < a + la)

/-- A map as 40 entry words. -/
def mapWords (es : List MapEnt) : List Nat := (es.map MapEnt.word ++ List.replicate 40 0).take 40

/-! ### Discovery windows (R110, R111) -/

/-- The window of an upstream line tick: whether classic, or none. -/
def State.windowKind (s : State) (c m : Nat) : Option Bool :=
  let every := s.rd F.CH_TREE_CFG_CLASSIC_EVERY c
  if !s.on F.CH_TREE_CFG_DISC_EN c || m % 64 != s.rd F.CH_TREE_CFG_DISC_SFP c then none
  else if every != 0 && m / 64 % every == 0 then some true
  else if s.on F.CH_TREE_CFG_TA_EN c then some false
  else none

/-- The first fret of a window. -/
def windowStart : Nat := 6227

/-- The entry of a window. -/
def windowEnt (classic : Bool) : MapEnt :=
  { MapEnt.none with disc := true, classic := classic, start := windowStart, len := 18 }

/-- The quiet area in u of the window of line tick u + d - 1, as (first fret, length): a line tick counts as 6,250
frets. -/
def State.quietOf (s : State) (c u d : Nat) : Option (Nat × Nat) :=
  match s.windowKind c ((u + 2 ^ 32 + d - 1) % 2 ^ 32) with
  | none => none
  | some classic =>
    let base : Int := ((d : Int) - 1) * 6250 + windowStart
    let first : Int := if classic then (base * 16 - (s.wDiff c : Int)) / 16 else base - (s.rd F.CH_TREE_CFG_TA_HALF c : Int)
    let past : Int := if classic then base + 18 else base + 18 + (s.rd F.CH_TREE_CFG_TA_HALF c : Int)
    let a := max first 0
    let b := min past 6250
    if a < b then some (a.toNat, (b - a).toNat) else none

/-- Every stretch of frets of u that lies in a quiet area, windows included. -/
def State.quiet (s : State) (c u : Nat) : List (Nat × Nat) := (List.range 28).filterMap (s.quietOf c u)

/-! ### Override slots (R151) -/

/-- The entry that a slot asks for. -/
def State.slotEnt (s : State) (c i : Nat) : MapEnt :=
  { tid := s.rd (F.CH_GRANT_OVRA_TID i) c, disc := s.on (F.CH_GRANT_OVRA_DISC i) c, rreq := s.on (F.CH_GRANT_OVRA_RREQ i) c,
    bms := s.on (F.CH_GRANT_OVRA_BMS i) c, prot := s.on (F.CH_GRANT_OVRA_PROT i) c, classic := false,
    start := s.rd (F.CH_GRANT_OVRB_START i) c, len := s.rd (F.CH_GRANT_OVRB_LEN i) c }

/-- Whether a slot's entry is refused, given the entries placed before it. -/
def slotRefused (quiet : List (Nat × Nat)) (placed : List MapEnt) (e : MapEnt) : Bool :=
  !e.fits || (e.disc && (!e.bms || e.len != 18)) || quiet.any (fun q => overlaps e.start e.len q.1 q.2) ||
    placed.any (fun p => overlaps e.start e.len p.start p.len || p.tid == e.tid)

/-- One slot examined. -/
def State.examineSlot (s : State) (c u : Nat) (quiet : List (Nat × Nat)) (placed : List MapEnt) (i : Nat) :
    List MapEnt × State :=
  if !s.on (F.CH_GRANT_OVRA_VALID i) c then (placed, s)
  else
    let d := (u + 2 ^ 32 - s.rd (F.CH_GRANT_OVRC i) c) % 2 ^ 32
    let settle (r : Nat) : State := (s.wr (F.CH_GRANT_OVRA_RESULT i) c r).wr (F.CH_GRANT_OVRA_VALID i) c 0
    if d = 0 then
      let e := s.slotEnt c i
      if slotRefused quiet placed e then (placed, settle 3) else (placed ++ [e], settle 1)
    else if d ≤ 2 ^ 31 then (placed, settle 2)
    else (placed, s)

/-- The slots examined in order: the entries placed. -/
def State.examineSlots (s : State) (c u : Nat) (quiet : List (Nat × Nat)) : List MapEnt × State :=
  (List.range 8).foldl (fun r i => r.2.examineSlot c u quiet r.1 i) ([], s)

/-! ### The sizes of bursts (R147) -/

/-- A record that step 4 serves, with what the sizing needs. -/
structure Want where
  t : Nat
  bms : Bool
  flr : Nat
  want : Nat
  weight : Nat
  g : Nat
  deriving DecidableEq, Repr

/-- MAX_CW as it acts. -/
def State.maxCw (s : State) (c t : Nat) : Nat := max 1 (min 1246 (s.rd (F.CH_GRANT_M t) c))

/-- Whether a record's bursts carry a message slot. -/
def State.wantsBms (s : State) (c t : Nat) (r : Rep) : Bool := s.on (F.CH_GRANT_P_BMS_POLL t) c || r.bmq != 0

/-- What a record wants by its report; a standing map takes demand, prediction and surplus as zero. -/
def State.wantOf (s : State) (c : Nat) (standing : Bool) (rep : Nat → Rep) (t : Nat) : Want :=
  let r := rep t
  let bms := s.wantsBms c t r
  let m := s.maxCw c t
  let pred := if standing then 0 else r.pred
  let need := (16 * r.demand + 4 + (if bms then 8 else 0) + 79) / 80
  let out := need - r.since
  let flr := min m (max 1 (max (s.rd (F.CH_GRANT_P_ASSURED t) c) pred))
  { t, bms, flr, want := if standing then flr else min m (max flr out),
    weight := if standing then 0 else s.rd (F.CH_GRANT_P_WEIGHT t) c, g := 1 }

/-- The floors given in ascending TID: the records, what is left, and how many floors were not met. -/
def giveFloors : List Want → Nat → List Want × Nat × Nat
  | [], left => ([], left, 0)
  | w :: ws, left =>
    let add := min (w.flr - 1) left
    let r := giveFloors ws (left - add)
    ({ w with g := w.g + add } :: r.1, r.2.1, r.2.2 + (if w.g + add < w.flr then 1 else 0))

/-- A record that still takes surplus. -/
def Want.acts (w : Want) : Bool := decide (w.g < w.want) && decide (0 < w.weight)

/-- One round of surplus shared by weight. -/
def shareRound (ws : List Want) (left : Nat) : List Want × Nat :=
  let wsum := ((ws.filter Want.acts).map (·.weight)).sum
  ws.foldl (fun (r : List Want × Nat) w =>
    if w.acts then
      let x := min (w.want - w.g) (left * w.weight / wsum)
      (r.1 ++ [{ w with g := w.g + x }], r.2 - x)
    else (r.1 ++ [w], r.2)) ([], left)

/-- n rounds. -/
def shareRounds : Nat → List Want → Nat → List Want × Nat
  | 0, ws, left => (ws, left)
  | n + 1, ws, left => if left = 0 || !ws.any Want.acts then (ws, left) else let r := shareRound ws left; shareRounds n r.1 r.2

/-- The order in which the remainder goes: descending weight, then ascending TID. -/
def byWeight (ws : List Want) : List Nat :=
  (ws.foldr (fun w (l : List Want) => l.takeWhile (fun x => w.weight < x.weight) ++ w :: l.dropWhile (fun x => w.weight < x.weight)) []).map (·.t)

/-- One pass of the remainder over the records in order. -/
def remPass (ws : List Want) (left : Nat) : List Nat → List Want × Nat
  | [] => (ws, left)
  | t :: ts =>
    if left = 0 || !ws.any (fun w => w.t == t && w.acts) then remPass ws left ts
    else remPass (ws.map (fun w => if w.t == t then { w with g := w.g + 1 } else w)) (left - 1) ts

/-- The remainder: passes until nothing is left or no record takes more. -/
def giveRest : Nat → List Want → Nat → List Nat → List Want
  | 0, ws, _, _ => ws
  | n + 1, ws, left, order =>
    if left = 0 || !ws.any Want.acts then ws else let r := remPass ws left order; giveRest n r.1 r.2 order

/-- The frets of the line tick that nothing occupies. -/
def freeFrets (busy : List (Nat × Nat)) : Nat :=
  ((List.range fretsPerTick).filter (fun f => !busy.any (fun q => decide (q.1 ≤ f) && decide (f < q.1 + q.2)))).length

/-- The highest records dropped until every one left can have a codeword: those left, and how many were dropped. -/
def dropShort (free probes : Nat) : Nat → List Nat → List Nat × Nat
  | 0, ops => (ops, 0)
  | n + 1, ops =>
    if ops = [] || 18 * (probes + ops.length) ≤ free then (ops, 0)
    else let r := dropShort free probes n ops.dropLast; (r.1, r.2 + 1)

/-! ### The layout (R147, R148) -/

/-- The lowest free fret where a length fits. -/
def lowestFit (busy : List (Nat × Nat)) (len : Nat) : Option Nat :=
  let starts := 0 :: busy.map (fun q => q.1 + q.2)
  (starts.filter (fun f => decide (f + len ≤ fretsPerTick) && !busy.any (fun q => overlaps f len q.1 q.2))).foldl
    (fun m f => match m with | none => some f | some x => some (min x f)) none

/-- A burst placed whole, cut, or omitted: its place and length, and whether it was cut or omitted. -/
def placeBurst (busy : List (Nat × Nat)) : Nat → Option (Nat × Nat) × Bool
  | 0 => (none, true)
  | k + 1 => match lowestFit busy (13 + 5 * (k + 1)) with
    | some f => (some (f, 13 + 5 * (k + 1)), false)
    | none => ((placeBurst busy k).1, true)

/-- The bursts of steps 3 and 4 placed in order, given as entries whose length is in codewords: the entries placed and
how many were cut or omitted. -/
def placeAll (busy : List (Nat × Nat)) : List MapEnt → List MapEnt × Nat
  | [] => ([], 0)
  | e :: es =>
    let p := placeBurst busy e.len
    let short := if p.2 then 1 else 0
    match p.1 with
    | none => let r := placeAll busy es; (r.1, r.2 + short)
    | some (f, len) => let r := placeAll ((f, len) :: busy) es; ({ e with start := f, len } :: r.1, r.2 + short)

/-- Entries in ascending order of a key. -/
def sortEnts (key : MapEnt → Nat) (es : List MapEnt) : List MapEnt :=
  es.foldr (fun e l => l.takeWhile (fun x => decide (key x < key e)) ++ e :: l.dropWhile (fun x => decide (key x < key e))) []

/-- A map laid out (R147, R148) by the reports of the terminals, around the override entries placed, the window and the quiet
areas; and what it adds to CH_GRANT_SHORT and CH_GRANT_OVERBOOK. -/
def State.layout (s : State) (c : Nat) (standing : Bool) (rep : Nat → Rep) (placed window : List MapEnt)
    (quiet : List (Nat × Nat)) : List MapEnt × Nat × Nat :=
  let named (t : Nat) : Bool := placed.any (fun e => e.tid == t)
  let busy := placed.map (fun e => (e.start, e.len)) ++ quiet
  let free := freeFrets busy
  let ts := (List.range 32).filter (fun t => !named t)
  let hold := (ts.filter (fun t => s.recState c t == hHold)).map (fun t => { MapEnt.none with tid := t, rreq := true, len := 1 })
  let poll := (ts.filter (fun t => (s.recState c t == hDiscover || s.recState c t == hTune) && s.on (F.CH_GRANT_P_BMS_POLL t) c)).map
    (fun t => { MapEnt.none with tid := t, bms := true, len := 1 })
  let ops := if s.on F.CH_GRANT_CFG_EN c then ts.filter (fun t => s.recState c t == hOperate) else []
  let probes := hold.length + poll.length
  let d := dropShort free probes 32 ops
  let left := (free - 18 * probes - 13 * d.1.length) / 5 - d.1.length
  let fl := giveFloors (d.1.map (s.wantOf c standing rep)) left
  let sh := shareRounds 3 fl.1 fl.2.1
  let ws := giveRest 1250 sh.1 sh.2 (byWeight sh.1)
  let data := ws.map (fun w => { MapEnt.none with tid := w.t, rreq := true, bms := w.bms, prot := s.on (F.CH_GRANT_P_PROT w.t) c, len := w.g })
  let p := placeAll busy (sortEnts (·.tid) (hold ++ poll ++ data))
  (sortEnts (·.start) (placed ++ window ++ p.1), d.2 + p.2, fl.2.2)

/-- A map composed for u, with its override slots examined (R151); a standing map counts nothing (R150). -/
def State.composeMap (s : State) (c u : Nat) (standing : Bool) (rep : Nat → Rep) : List MapEnt × State :=
  let quiet := s.quiet c u
  let r := s.examineSlots c u quiet
  let window := match s.windowKind c u with | none => [] | some k => [windowEnt k]
  let l := r.2.layout c standing rep r.1 window quiet
  (l.1, if standing then r.2 else (r.2.addN F.CH_GRANT_SHORT c l.2.1).addN F.CH_GRANT_OVERBOOK c l.2.2)

/-- The standing map of a head end laid out anew (R150), for no line tick: without overrides and windows. -/
def State.setStanding (s : State) (c : Nat) : State :=
  if s.role c = roleHead then s.modTree c (fun t => { t with standing := (s.layout c true (fun _ => Rep.none) [] [] []).1 }) else s

/-! ### Terminal records -/

/-- What a record that becomes H-IDLE loses: ATTEST_OK (R107), its drift (R123), its report state and estimates
(R149). -/
def State.clearRec (s : State) (c t : Nat) : State :=
  let s := ((s.wr (F.CH_TREC_STATE_ATTEST_OK t) c 0).wr (F.CH_TREC_DRIFT t) c 0).wr (F.CH_GRANT_R t) c 0
  let s := (List.range 4).foldl (fun s k => s.wr (F.CH_GRANT_CG t k) c 0) s
  (s.wr (F.CH_GRANT_G t) c 0).setTerm c t Term.reset

/-- The state that a write of a record brings: on a STANDBY channel none but H-IDLE, for its records stay so (R345). -/
def State.trecState (s : State) (c t : Nat) (w : Word) : Nat :=
  if s.pairActive c then getF w (F.CH_TREC_STATE_STATE t) else 0

/-- A write of CH_TREC_STATE_Tt, w what its RW fields are then to hold and m the bits that the write enables (R5): STATE, TA and
ATTEST_OK, with H-OPERATE ignored where ATTEST_REQ asks for an ATTEST_OK that did not stand before (R107). -/
def State.trecWrite (s : State) (c t : Nat) (w0 : Word) (m : Nat) : State :=
  let names := m % 256 != 0
  let w := if names then w0 else setF w0 (F.CH_TREC_STATE_STATE t) (s.recState c t)
  let st := s.trecState c t w
  let old := s.recState c t
  let refused := names && st == hOperate && s.on F.CH_TREE_CFG_ATTEST_REQ c && !s.on (F.CH_TREC_STATE_ATTEST_OK t) c
  let s := if names && st = hOperate then s.wrB (F.CH_TREC_STATE_REFUSED t) c refused else s
  let s := (s.wr (F.CH_TREC_STATE_ATTEST_OK t) c (getF w (F.CH_TREC_STATE_ATTEST_OK t))).wr (F.CH_TREC_STATE_TA t) c
    (getF w (F.CH_TREC_STATE_TA t))
  if refused then s.copyTrec c t
  else
    let s := s.wr (F.CH_TREC_STATE_STATE t) c st
    let s := if old = hOperate && st != hOperate then
        (s.wr (F.CH_TREC_DRIFT_N t) c 0).modTerm c t (fun x => { x with dsum := 0 })
      else s
    let s := if old != hOperate && st = hOperate then s.modTerm c t (fun x => { x with prevM := none }) else s
    let s := (if hIdle st && !hIdle old then s.clearRec c t else s).copyTrec c t
    if st = old then s else s.setStanding c

/-! ### The map of a line tick -/

/-- The reports of a head end's terminals kept as they stand when a line tick begins whose map grants upstream line tick u (R146):
the next map's composition uses them. -/
def State.latchReports (s : State) (c u : Nat) : State :=
  s.modTree c (fun x => { x with reps := (List.range 32).map (fun t =>
    { demand := s.rd (F.CH_GRANT_R_DEMAND t) c, bmq := s.rd (F.CH_GRANT_R_BMQ t) c, pred := s.rd (F.CH_GRANT_R_PRED_CW t) c,
      since := s.grantedSince c t u }) })

/-- The composition of the map carried in downstream line tick T (R146). -/
def State.compose (s : State) (c tick : Nat) : State :=
  let r := s.composeMap c ((tick + s.leadH c) % 2 ^ 32) false (fun t => (s.tree c).reps.getD t Rep.none)
  r.2.modTree c (fun t => { t with comp := some (tick, r.1) })

/-- The standing map revised for the overrides, window and probes of line tick T's map, and counted (R150): it is laid out again
around them, with the message slots that it has (DESIGN CHOICE, log entry 126). -/
def State.reviseMap (s : State) (c tick : Nat) : List MapEnt × State :=
  let slots := ((s.tree c).standing.filter (·.bms)).map (·.tid)
  let r := s.composeMap c ((tick + s.leadH c) % 2 ^ 32) true (fun t => { Rep.none with bmq := if slots.contains t then 1 else 0 })
  (r.1, r.2.inc F.CH_GRANT_LATEMAP c)

/-- The map that the bridge of line tick T carries: the one composed, else the standing map (R150). -/
def State.takeMap (s : State) (c tick : Nat) : List MapEnt × State :=
  match (s.tree c).comp with
  | some (t, es) => if t = tick then (es, s.modTree c (fun x => { x with comp := none })) else s.reviseMap c tick
  | none => s.reviseMap c tick

/-- The map of upstream line tick u that a head end has sent, or for a standby one the partner's (R345). -/
def State.mapOf (s : State) (c u : Nat) : List MapEnt :=
  if s.pairActive c then
    match tget (fun _ => (0, [])) (s.tree c).maps (u % 256) with
    | (v, es) => if v = u then es else []
  else
    let ltn := (u + 2 ^ 32 - s.leadH c) % 2 ^ 32
    let b := tget (fun _ => []) s.twin.fmap (256 * c + ltn % 256)
    if b.length = 324 ∧ fieldBE b 0 4 = ltn then
      ((List.range 40).map (fun i => mapEnt (fieldBE b (4 + 8 * i) 8))).filter (fun e => e.len != 0)
    else []

/-- A map noted as sent: kept for its bursts, counted as granted, and shown in CH_GRANT_G (R147, R150). -/
def State.mapSent (s : State) (c u : Nat) (es : List MapEnt) : State :=
  let s := s.modTree c (fun t => { t with maps := tput (fun _ => (0, [])) t.maps (u % 256) (u, es) })
  (List.range 32).foldl (fun s t =>
    match es.find? (fun e => e.tid == t && !e.isOpen) with
    | none => if s.on (F.CH_GRANT_G_VALID t) c then s.wr (F.CH_GRANT_G_VALID t) c 0 else s
    | some e =>
      let s := ((s.wr (F.CH_GRANT_G_VALID t) c 1).wr (F.CH_GRANT_G_LEN t) c e.len).wr (F.CH_GRANT_G_START t) c e.start
      s.modTerm c t (fun x => { x with
        granted := ((u, (e.len - 13) / 5) :: x.granted).take 256, old := x.old + ((x.granted.drop 255).map (fun g => g.2)).sum })) s

/-! ### The commands -/

/-- CH_TREC_STATE_WRITE (R107), on every channel that the requester's selects name. -/
def execChTrecStateWrite (req : Fin 19) (t : Fin 32) (value : Word) (s : State) : Outcome State Fault Refusal :=
  doneWrite req s (s.ordered req (F.CH_TREC_STATE_STATE t).off (s.chSel req) (fun u =>
    ((s.chSel req).foldl (fun s c => s.trecWrite c t value 0xFFFFFFFF) u).foldWrites req (F.CH_TREC_STATE_STATE t).off
    (s.chSel req)))

end Sys2Proof.Machine
end

