-- ==== Sys2Proof/Machine/Bow.lean ====
section
/-!
DEFINITION. The bow engine of a terminal (04_tuning, 05_frets): the equalization delay (R101, R121), the burst plan (R134
to R137, R145, R235), the launch (R138, R143), keepalives (R203), and the real-time port's panic (R152).
-/

namespace Sys2Proof.Machine
open Host (Outcome)

/-! ### Line ticks of a terminal -/

/-- Whether line tick a comes at or before line tick b, modulo 2^32. -/
def ltnLe (a b : Nat) : Bool := decide ((b + 2 ^ 32 - a) % 2 ^ 32 < 2 ^ 31)

/-- CH_TERM_CTL.LEAD as it acts. -/
def State.termLead (s : State) (c : Nat) : Nat := max 2 (min 80 (s.rd F.CH_TERM_CTL_LEAD c))

/-- The states of a terminal (Table: Terminal states). -/
def tDiscover : Nat := 2
def tTune : Nat := 3

def State.termState (s : State) (c : Nat) : Nat := s.rd F.CH_TERM_CTL_STATE c

/-- The arrival kept of a downstream line tick. -/
def State.arrOf (s : State) (c u : Nat) : Option Arr := (s.tree c).arr.find? (·.ltn == u)

/-- Block 0 of a downstream line tick arrives: the equalization delay of the upstream line tick of its number is fixed
(R101, R121). `blocks` is what its J makes it hold; `follows` whether it follows on the one before, and is not the first in SYNC,
whose place on the loop-timed clock comes from the stamps; its first bit passed the lane `ago` sixteenths of a nanosecond ago. -/
def State.arrive (s : State) (c ltn blocks : Nat) (follows : Bool) (ago : Nat) : State :=
  let t := s.tree c
  let prev := t.arr.head?
  let passed (a : Arr) : Nat := if follows then a.blocks else (diff64 (s.rxStamp c ago) a.stamp0).toNat * 100 / 256
  let eqd0 := match prev with | some a => a.eqd | none => s.rd F.CH_TERM_EQD_NOW c
  let due := t.armed && ltnLe (s.rd F.CH_TERM_EQD_AT c) ltn
  let a : Arr :=
    { ltn, pos := match prev with | some a => a.pos + passed a | none => 0,
      stamp0 := s.rxStamp c ago, stampB := s.rxBound c ago, blocks,
      eqd := if due then s.rd F.CH_TERM_EQD_EQD c else eqd0, took := due,
      late := due && (match prev with | some a => ltnLe (s.rd F.CH_TERM_EQD_AT c) a.ltn | none => false) }
  s.modTree c (fun t => { t with arr := (a :: t.arr).take 64, todo := t.todo + 1, armed := t.armed && !due })

/-- CH_TERM_EQD_WRITE (R121): the change is armed. -/
def State.armEqd (s : State) (c : Nat) (w : Word) : State :=
  let s := (s.wr F.CH_TERM_EQD_EQD c (min 3200000 (getF w F.CH_TERM_EQD_EQD))).wr F.CH_TERM_EQD_PEND c 1
  (s.modTree c (fun t => { t with armed := true })).copyTerm c

/-- The equalization delay that an upstream line tick will have, as known now (R235). -/
def State.eqdFor (s : State) (c u : Nat) : Nat :=
  match s.arrOf c u with
  | some a => a.eqd
  | none =>
    if (s.tree c).armed && ltnLe (s.rd F.CH_TERM_EQD_AT c) u then s.rd F.CH_TERM_EQD_EQD c
    else match (s.tree c).arr.head? with | some a => a.eqd | none => s.rd F.CH_TERM_EQD_NOW c

/-! ### The map entry (R133 to R135) -/

/-- The map for an upstream line tick, as entry words; none where the ring does not hold it. -/
def State.ringMap (s : State) (c u : Nat) : Option (List Nat) :=
  let m := (u + 2 ^ 32 - s.termLead c) % 2 ^ 32
  match tget (fun _ => (0, [])) (s.tree c).ring (m % 128) with
  | (l, ws) => if l = m && !ws.isEmpty then some ws else none

/-- The entry that a terminal takes from the entries of a map, and how many count in CH_FM_BAD. -/
def State.takeEnt (s : State) (c u : Nat) (ws : List Nat) : Option MapEnt × Nat :=
  let used := (ws.map mapEnt).filter (fun e => e.len != 0)
  let valid := used.filter MapEnt.valid
  let bad := used.length - valid.length
  if s.termState c = tDiscover then
    if s.on F.CH_TERM_DISC_ARM c && ltnLe (s.rd F.CH_TERM_DISC_LTN c) u then
      (valid.find? (fun e => e.isOpen && e.classic == (s.rd F.CH_TERM_DISC_MODE c == 0)), bad)
    else (none, bad)
  else if s.on F.CH_TF_CFG_TID_VALID c then
    let mine := valid.filter (fun e => !e.isOpen && e.tid == s.rd F.CH_TF_CFG_TID c)
    (mine.head?, bad + (mine.length - 1))
  else (none, bad)

/-! ### The plan (R136, R235) -/

/-- What a plan needs of its burst: its payload capacity in blocks, the blocks from block 0 of the downstream line tick
before to the first payload block free for frames, the stamps of that block 0 in peg 0 and in the bound peg, and
whether the grant asks for protection. -/
structure Room where
  cap : Nat
  base : Nat
  stamp0 : Nat
  stampB : Nat
  prot : Bool
  deriving DecidableEq, Repr

/-- The blocks of burst header and message slot. -/
def MapEnt.headBlocks (e : MapEnt) : Nat := if e.disc || e.bms then 12 else 4

/-- The payload codewords of an entry. -/
def MapEnt.codewords (e : MapEnt) : Nat := (e.len - 13) / 5

/-- The instant predicted for block o of the payload: peg 0 in 1/16 ns, the bound peg in 1/100 ns. -/
def Room.at (r : Room) (o : Nat) : Nat × Nat :=
  (r.stamp0 + (r.base + o) * 256 / 100, r.stampB * 100 / 16 + 16 * (r.base + o))

/-- The bytes that a terminal sends of a frame, protection tag included (R216, R370). -/
def State.bowBytes (s : State) (c : Nat) (prot : Bool) (x : QFrame) : Nat :=
  if s.wantsProt c 0 (x.prot || prot) false then x.len + 16 else x.len

/-- The places of a queue's frames that plans of its channel hold. -/
def State.plannedIx (s : State) (c q : Nat) : List Nat :=
  ((s.tree c).plans.flatMap (fun p => p.frames.filter (·.queue == q))).map (·.ix)

/-- The first frame of a queue that no plan holds. -/
def State.firstFree (s : State) (c q : Nat) : Nat :=
  ((List.range (s.qCount q)).find? (fun i => !(s.plannedIx c q).contains i)).getD 0

/-- The state in which a channel's queues hold only the frames that no plan holds. -/
def State.masked (s : State) (c : Nat) : State :=
  (List.range 64).foldl (fun m k =>
    let ix := s.plannedIx c (64 * c + k)
    if ix.isEmpty then m else m.setQueue (64 * c + k) (keepOnly (fun i => !ix.contains i) (s.queue (64 * c + k)) 0)) s

/-- The cells of a channel's frames that the real-time port holds or reads (CH_BOW_STAT.STAGED). -/
def State.stagedCells (s : State) (c : Nat) : Nat :=
  ((List.range 64).map (fun k => (((s.qFrames (64 * c + k)).filter (fun x => x.deep != 0 && (s.deepFr x.deep).reading)).map
    QFrame.fsCells).sum)).sum

def State.showStaged (s : State) (c : Nat) : State :=
  (s.wr F.CH_BOW_STAT_STAGED c (min 4095 (s.stagedCells c))).noteUse (octOf c)

/-- A frame that a plan drops: out of its queue, released and counted. -/
def State.planDrop (s : State) (c q : Nat) (x : QFrame) (fld : Fld) : State :=
  (((s.pull q (s.firstFree c q)).dropDeficit q).release x).inc fld c

/-- A queue of a channel whose first frame no span of its gates takes (R234). -/
def State.gateTooLong (s : State) (c : Nat) (bytes : QFrame → Nat) : Option (Nat × QFrame) :=
  ((List.range 64).filterMap (fun k => (s.headOf (64 * c + k)).map (fun x => (64 * c + k, x)))).find? (fun e =>
    s.gateOversize c (e.1 % 64 / 8) (s.lineDuration c (bytes e.2)))

/-- The next block of the payload at which some queue becomes eligible, where gates or timed launch alone hold every
queue at block o (R235). -/
def State.nextOpen (s : State) (c : Nat) (r : Room) (bytes : QFrame → Nat) (o : Nat) : Option Nat :=
  if (List.range 64).all (fun k => (s.headOf (64 * c + k)).isNone || !(shpOf (64 * c + k)).all s.shpPasses) then none
  else ((List.range (r.cap - o)).map (fun i => o + 1 + i)).find? (fun o' =>
    (s.select c (r.at o').1 (r.at o').2 bytes (fun _ => true)).isSome)

/-- A frame added to the newest plan of a channel, charged (R217), and read from the deep store (R137). -/
def State.planAdd (s : State) (c q bytes gap : Nat) (x : QFrame) : State :=
  let ix := s.firstFree c q
  let lob := x.kind == 1 && taggedBody x.f.body && ix + 1 == s.qCount q
  let s := (shpOf q).foldl (fun s k => s.shpCharge k bytes) s
  let s := s.modTree c (fun t => { t with plans := match t.plans.getLast? with
    | none => []
    | some p => t.plans.dropLast ++ [{ p with frames := p.frames ++ [{ queue := q, ix, gap, lob }] }] })
  if x.deep = 0 then s else (s.readDeep whoPort x.deep x.len (octOf c) (s.on F.CH_BOW_STAT_PANIC c)).showStaged c

/-- The plan filled from payload block o on, with `gap` Idle blocks before the next frame (R136): the state, and the
blocks used at its end. -/
def State.planFill (s : State) (c : Nat) (r : Room) : Nat → Nat → Nat → Nat × State
  | 0, o, _ => (o, s)
  | n + 1, o, gap =>
    let m := s.masked c
    let bytes := s.bowBytes c r.prot
    match m.gateTooLong c bytes with
    | some (q, x) => (s.planDrop c q x F.CH_GATE_OVERSIZE).planFill c r n o gap
    | none => match m.select c (r.at o).1 (r.at o).2 bytes (fun _ => true) with
      | none => match m.nextOpen c r bytes o with
        | none => (o, s)
        | some o' => s.planFill c r n o' (gap + (o' - o))
      | some (q, x, m') =>
        let blocks := frameBlocks (bytes x)
        if 80 * s.rd F.CH_BOW_CFG_MAXCW c < blocks + 4 then (s.planDrop c q x F.CH_BOW_OVERSIZE).planFill c r n o gap
        else if r.cap < o + blocks then (o, s)
        else if x.deep != 0 && !(s.deepFr x.deep).reading && decide (s.rd F.CH_BOW_CFG_STAGE_CELLS c < s.stagedCells c + x.fsCells) then
          (o, s)
        else (({ s with egress := m'.egress }).planAdd c q (bytes x) gap x).planFill c r n (o + blocks) 0

/-- How often a plan can move on: a frame of the channel, dropped or planned, and a gap before each. -/
def State.planFuel (s : State) (c : Nat) : Nat := 2 * ((List.range 64).map (fun k => s.qCount (64 * c + k))).sum + 2

/-- The report (R145): the frets that each class group's frames need, those planned into this burst left out. -/
def State.sampleReport (s : State) (c : Nat) (prot : Bool) : List Nat :=
  let mine := match (s.tree c).plans.getLast? with | none => [] | some p => p.frames
  (List.range 8).map (fun g =>
    let blocks := (List.range 8).flatMap (fun k =>
      let q := 64 * c + 8 * g + k
      ((s.qFrames q).zipIdx.filter (fun e => !mine.any (fun f => f.queue == q && f.ix == e.2))).map
        (fun e => frameBlocks (s.bowBytes c prot e.1)))
    min 65535 (ceilDiv blocks.sum 16))

/-! ### Keepalives (R203) -/

/-- The blocks of a keepalive with its link header. -/
def keepBlocks : Nat := 10

/-- The chords of which a channel is a member that owes a keepalive in a line tick in which it has sent no frame from
the queues named by `sent`, with the member's index. -/
def State.keepChords (s : State) (c : Nat) (sent : Nat → Bool) : List (Nat × Nat) :=
  (List.range 32).filterMap (fun ch =>
    if s.on (F.QSH_CHORD_CFG_KA_EN ch) 0 && s.txUp c &&
        (List.range 8).all (fun g => !sent (s.memberQueue ch g c)) then
      ((List.range 8).find? (fun i => s.member ch i == some c)).map (fun i => (ch, i))
    else none)

/-- A keepalive of a chord, with its FCS. -/
def keepFrame (chord origin : Nat) : List Byte :=
  let body := List.replicate 12 0 ++
    toBytes (bytesBE 8 (0x88B5 * 2 ^ 48 + chord % 32 * 2 ^ 43 + origin % 2 ^ 40 * 8 + 2)) ++ List.replicate 40 0
  body ++ fcsBytes body

/-! ### UPSTREAM_TICK_BEGIN -/

/-- The room of a burst of u, planned with line tick a = u − 1 before it. -/
def State.roomOf (s : State) (c u : Nat) (a : Arr) (e : MapEnt) : Room :=
  { cap := 80 * e.codewords - e.headBlocks, base := a.blocks + s.eqdFor c u + 16 * e.start + 208 + e.headBlocks,
    stamp0 := a.stamp0, stampB := a.stampB, prot := e.prot }

/-- The burst of u planned for an entry (R136). -/
def State.planBurst (s : State) (c u : Nat) (a : Arr) (e : MapEnt) : State :=
  let plan : Plan := { u, ent := e, frames := [], report := [], keep := [], keepAt := s.now4, run := none }
  let s := s.modTree c (fun t => { t with plans := t.plans ++ [plan] })
  let r := s.roomOf c u a e
  let frames := s.termState c == tOperate && !e.disc
  let p := if frames then s.planFill c r (s.planFuel c) 0 0 else (0, s)
  let s := p.2
  let mine := match (s.tree c).plans.getLast? with | none => [] | some p => p.frames
  let keep := if frames then ((s.keepChords c (fun q => mine.any (·.queue == q))).map (·.1)).take ((r.cap - p.1) / keepBlocks) else []
  let report := if e.rreq then s.sampleReport c e.prot else List.replicate 8 0
  s.modTree c (fun t => { t with plans := match t.plans.getLast? with
    | none => []
    | some p => t.plans.dropLast ++ [{ p with report, keep }] })

/-- The plan of u made at the beginning of upstream line tick u − 1, whose downstream line tick is a. -/
def State.planNext (s : State) (c : Nat) (a : Arr) : State :=
  let u := (a.ltn + 1) % 2 ^ 32
  if !s.pairActive c then s
  else match s.ringMap c u with
    | none => s.inc F.CH_BOW_MAPLOST c
    | some ws =>
      let p := s.takeEnt c u ws
      let s := s.addN F.CH_FM_BAD c p.2
      match p.1 with
      | none => s
      | some e => s.planBurst c u a e

/-- UPSTREAM_TICK_BEGIN (R101): the oldest downstream line tick whose upstream one has not begun. -/
def upstreamTickBegin (c : Nat) (s : State) : State :=
  let t := s.tree c
  if s.role c != roleTerm || !s.octRuns (octOf c) || t.todo = 0 then s
  else match t.arr[t.todo - 1]? with
    | none => s.modTree c (fun t => { t with todo := 0 })
    | some a =>
      let s := (s.modTree c (fun t => { t with todo := t.todo - 1, up := some a.ltn })).wr F.CH_TERM_EQD_NOW c a.eqd
      let s := if a.took then
          ((s.wrB F.CH_TERM_EQD_LATE c a.late).wrB F.CH_TERM_EQD_PEND c t.armed).copyTerm c
        else s
      s.planNext c a

/-! ### BURST_LAUNCH -/

/-- Whether R97 lets a terminal send. -/
def State.r97 (s : State) (c : Nat) : Bool :=
  s.rdP (tfAlign c) == alSync && [0, 1, 2, 3].all (fun b => !s.onP (defFld c b))

/-- Whether the state of a terminal permits a burst (R105). -/
def State.r105 (s : State) (c : Nat) (e : MapEnt) : Bool :=
  let mine := s.on F.CH_TF_CFG_TID_VALID c && e.tid == s.rd F.CH_TF_CFG_TID c && !e.isOpen
  let st := s.termState c
  if st = tDiscover then e.isOpen && s.on F.CH_TERM_DISC_ARM c
  else if st = tTune then mine && (e.disc || e.bms)
  else st == tOperate && mine

/-- Whether a planned burst may be sent: R97, R105, R122, and a transmitter that can send. -/
def State.maySend (s : State) (c : Nat) (e : MapEnt) (a : Arr) : Bool :=
  s.r97 c && s.r105 c e && decide ((s.tree c).busyTo ≤ a.pos + a.eqd + 16 * e.start) && s.canSend c

/-- The burst header (Table: Burst header). -/
def State.burstHeader (s : State) (c u : Nat) (e : MapEnt) (bmq : Nat) (report : List Nat) : List Byte :=
  let b (x : Bool) (n : Nat) : Nat := if x then n else 0
  let tid := if e.isOpen then 0 else s.rd F.CH_TF_CFG_TID c
  let h := toBytes ([tid * 8 + b (s.on F.CH_DEF_STAT_SF c) 4 + b e.rreq 2, bmq, s.rd F.CH_SRQ_TX_SRQ1 c,
    s.rd F.CH_SRQ_TX_SRQ2 c] ++ bytesBE 4 u ++ (if e.rreq then report.flatMap (bytesBE 2) else List.replicate 16 0) ++
    List.replicate 6 0)
  h ++ toBytes (bytesBE 2 (crc16 h))

/-- The charges of planned frames that stay queued come back (R217). -/
def State.unplanned (s : State) (c : Nat) (prot : Bool) (fs : List PFrame) : State :=
  fs.foldl (fun s f => match (s.qFrames f.queue)[f.ix]? with
    | none => s
    | some x => (shpOf f.queue).foldl (fun s k => s.shpReturn k (s.bowBytes c prot x)) s) s

/-- Whether a planned frame is fully staged (R138). -/
def State.staged (s : State) (x : QFrame) : Bool :=
  x.deep == 0 || ((s.deepFr x.deep).reading && (s.deepFr x.deep).rd == 0)

/-- One frame of a burst sent, its Start block at a block of upstream line tick u (R84, R251, R370). -/
def State.bowEmit (s : State) (c u pos : Nat) (a : Arr) (prot : Bool) (x : QFrame) (lob : Bool) : State :=
  let r := s.treeOut c 1 (s.rd F.CH_TF_CFG_TID c) false (x.prot || prot) u pos (a.stamp0 + (a.eqd + pos) * 256 / 100) x lob
  match r.1 with
  | none => r.2
  | some out => (r.2.putFrame c pos out).emit (.treeFrame c out)

/-- A frame's leaving of its queue: out, noted, released, late or not (R236), its words read (R187). -/
def State.bowTake (s : State) (c : Nat) (f : PFrame) (x : QFrame) (t16 : Nat) (r : FsRead) (i : Nat) : State × Bool :=
  let s := (((s.pull f.queue f.ix).noteSent f.queue x).release x).showStaged c
  let s := if s.on F.QSH_Q_CFG_TL_EN f.queue && decide (16000 < s.pastLaunch f.queue x t16) then s.inc F.QSH_Q_TL_LATE f.queue else s
  s.readWords r i (if x.deep = 0 then x.slice else octOf c)

/-- The keepalives of a burst sent behind its frames. -/
def State.bowKeeps (s : State) (c : Nat) (p : Plan) : List Nat → Nat → State
  | [], _ => s
  | ch :: chs, o =>
    let r := s.sealFrame c 1 (s.rd F.CH_TF_CFG_TID c) false p.ent.prot p.u o (keepFrame ch p.keepAt)
    (match r.1 with | none => r.2 | some out => (r.2.putFrame c o out).emit (.treeFrame c out)).bowKeeps c p chs (o + keepBlocks)

/-- The first payload block of an entry's burst in its upstream line tick (R139). -/
def MapEnt.payload (e : MapEnt) : Nat := 16 * e.start + 208

/-! ### Panic (R152, R292) -/

/-- The frames still to be sent of a channel's next burst, or of the one on its way, that are not fully staged. -/
def State.unstaged (s : State) (c : Nat) : List QFrame :=
  match (s.tree c).plans with
  | [] => []
  | p :: _ => (p.frames.filterMap (fun f => (s.qFrames f.queue)[f.ix]?)).filter (fun x => !s.staged x)

/-- A channel's panic set or cleared, on its port's requests too (R292). -/
def State.panic (s : State) (c : Nat) (on : Bool) : State := s.wrB F.CH_BOW_STAT_PANIC c on

/-- The launch of a planned burst in 1/16 ns of peg 0: by the arrival of its downstream line tick, or predicted from the one
before. -/
def State.launchOf (s : State) (c : Nat) (p : Plan) : Option Nat :=
  match s.arrOf c p.u with
  | some a => some (a.stamp0 + (a.eqd + 16 * p.ent.start) * 256 / 100)
  | none => (s.arrOf c ((p.u + 2 ^ 32 - 1) % 2 ^ 32)).map (fun a =>
      a.stamp0 + (a.blocks + s.eqdFor c p.u + 16 * p.ent.start) * 256 / 100)

/-- Whether a channel's next burst launches within PANIC_US, or has begun and not ended. -/
def State.burstNear (s : State) (c : Nat) : Bool :=
  match (s.tree c).plans with
  | [] => false
  | p :: _ => p.run.isSome ||
    (match s.launchOf c p with | some t => decide (t ≤ s.now16 + 16000 * s.rd F.CH_BOW_CFG_PANIC_US c) | none => false)

/-- Both conditions of a real-time port's panic (R152): the bytes staged and not sent are fewer than those still to be sent where some
frame still to be sent is not fully staged. -/
def State.panicHolds (s : State) (c : Nat) : Bool := s.role c == roleTerm && s.burstNear c && !(s.unstaged c).isEmpty

/-- Panic deasserted as soon as a condition fails. -/
def State.panicSettle (s : State) (c : Nat) : State :=
  if s.on F.CH_BOW_STAT_PANIC c && !s.panicHolds c then s.panic c false else s

/-- PANIC_ASSERT (R152). -/
def panicAssert (c : Nat) (s : State) : State := if s.panicHolds c then s.panic c true else s

/-- PANIC_DEASSERT (R152). -/
def panicDeassert (c : Nat) (s : State) : State := s.panicSettle c

/-! ### A burst on its way (R138) -/

/-- The burst on its way replaced, or gone. -/
def State.setHeadPlan (s : State) (c : Nat) (p : Option Plan) : State :=
  s.modTree c (fun t => { t with plans := p.toList ++ t.plans.drop 1 })

/-- A burst at its end: what it sent leaves coded, with Idle blocks to its end (R85, R142), where the transmitter is on. -/
def State.burstDone (s : State) (c : Nat) (p : Plan) : State :=
  let s := s.setHeadPlan c none
  let s := if s.canSend c then s.sendBurstLine c p.ent.payload p.ent.codewords
    else s.modLane c (fun x => { x with tx := { x.tx with items := [] } })
  s.panicSettle c

/-- A burst that a frame not fully staged ends (R138). -/
def State.underrun (s : State) (c : Nat) (p : Plan) : State :=
  ((s.unplanned c p.ent.prot p.frames).inc F.CH_BOW_UNDERRUN c).burstDone c p

/-- The instant of a block of a burst's upstream line tick, in 1/16 ns of peg 0. -/
def BurstRun.instant (r : BurstRun) (block : Nat) : Nat := r.arr.stamp0 + (r.arr.eqd + block) * 256 / 100

/-- A planned frame of the burst on its way sent, its Start at a block, and the burst moved on behind it. -/
def State.burstFrame (s : State) (c : Nat) (p : Plan) (r : BurstRun) (f : PFrame) (x : QFrame) : State :=
  let pos := r.next + f.gap
  let t := s.bowTake c f x (r.instant pos) r.rd r.taken
  let s' := if t.2 then t.1 else t.1.bowEmit c p.u pos r.arr p.ent.prot x f.lob
  s'.modTree c (fun t => { t with plans := match t.plans with
    | [] => []
    | q :: qs => { q with run := some { r with next := pos + frameBlocks (s.bowBytes c p.ent.prot x), taken := r.taken + 1 } } :: qs })

/-- The burst on its way moved on (R138): its frames in order for as long as each is fully staged; one that is not is waited for until
its Start is due, and with `last` no longer; keepalives behind the last. -/
def State.burstMove (s : State) (c : Nat) (last : Bool) : Nat → State
  | 0 => s
  | n + 1 =>
    match (s.tree c).plans with
    | [] => s
    | p :: _ => match p.run, p.frames with
      | none, _ => s
      | some r, [] => (s.bowKeeps c p p.keep r.next).burstDone c p
      | some r, f :: fs => match (s.qFrames f.queue)[f.ix]? with
        | none => (s.setHeadPlan c (some { p with frames := fs })).burstMove c last n
        | some x =>
          if s.staged x then (s.burstFrame c p r f x).burstMove c last n
          else if last || decide (r.instant (r.next + f.gap) ≤ s.now16) then s.underrun c p
          else s

/-- How often a burst can move on. -/
def State.burstFuel (s : State) (c : Nat) : Nat := match (s.tree c).plans with | [] => 0 | p :: _ => p.frames.length + 1

/-- The burst on its way of a channel, if any, brought up to now. -/
def State.burstRun (s : State) (c : Nat) : State := (s.burstMove c false (s.burstFuel c)).panicSettle c

/-- The bursts on their way of every channel brought up to now. -/
def State.burstsRun (s : State) : State :=
  (List.range 64).foldl (fun s c =>
    if (match (s.tree c).plans with | p :: _ => p.run.isSome | [] => false) then s.burstRun c else s) s

/-! ### The launch -/

/-- The discovery answer's effects (R114). -/
def State.answered (s : State) (c u : Nat) (e : MapEnt) : State :=
  if e.isOpen then ((s.wr F.CH_TERM_DISC_ARM c 0).wr F.CH_TERM_DISC_DONE c 1).wr F.CH_TERM_DISC_LTN c u else s

/-- The mask of a lane's injector (R65). -/
def State.injMask (s : State) (c : Nat) : Nat :=
  injectMask (s.rd F.TST_INJ_MODE c) (s.rd F.TST_INJ_BURST_LEN c) (s.rd F.TST_INJ_SYM_OFS c) (s.rd F.TST_INJ_BIT c)
    Config.wholeCodewordPattern.toNat

/-- The codewords of a burst of k on which the continuous injection falls (R65), `sent` codewords having been sent in bursts before
it and the last injection at one of them: the first sent since CONT was set, then each PERIOD + 1 codewords later. -/
def contCodewords (k sent period : Nat) (last : Option Nat) : List Nat :=
  let first := match last with | none => 0 | some l => l + period + 1 - sent
  (List.range k).filter (fun i => decide (first ≤ i) && (i - first) % (period + 1) == 0)

/-- The injections into a burst of k codewords (R65): a single one that waits into the first, the continuous ones where their turn
comes. -/
def State.burstInjection (s : State) (c k : Nat) : State :=
  let x := s.lane c
  let hits := (if x.inj then [0] else []) ++
    (if s.on F.TST_INJ_CONT c then contCodewords k x.tx.sent (s.rd F.TST_INJ_PERIOD c) x.tx.last else [])
  let last := if s.on F.TST_INJ_CONT c then (match hits.getLast? with | some i => some (x.tx.sent + i) | none => x.tx.last) else x.tx.last
  if hits.isEmpty then s
  else (s.setLane c { x with inj := false, tx := { x.tx with inj := hits.map (fun i => (i, s.injMask c)), last } }).emit (.inject c (s.injMask c))

/-- A burst sent (R138, R143): its header and message slot, and its frames from then on. -/
def State.sendBurst (s : State) (c : Nat) (p : Plan) (a : Arr) (r : FsRead) : State :=
  let e := p.ent
  let begin := a.pos + a.eqd + 16 * e.start
  let s := (s.modTree c (fun t => { t with busyTo := begin + 16 * e.len })).inc F.CH_BOW_SENT c
  let m := if e.disc || e.bms then s.bmTake c else ([], s)
  let h := m.2.burstHeader c p.u e (m.2.framer c).bmTx.length p.report
  let s := (m.2.answered c p.u e).burstInjection c e.codewords
  let s := (s.emit (.burstEn c (s.rd F.CH_SB_CFG_EN_LEAD c) (s.rd F.CH_SB_CFG_EN_LAG c))).emit (.burst c p.u e h m.1)
  let s := s.putBlocks c e.payload (dataBlocks (h ++ m.1))
  let run : BurstRun := { arr := a, rd := r, next := e.payload + e.headBlocks, taken := 0 }
  if s.termState c == tOperate then
    let s := s.modTree c (fun t => { t with plans := { p with run := some run } :: t.plans })
    s.burstMove c false (s.burstFuel c)
  else
    let s := s.unplanned c e.prot p.frames
    (s.modTree c (fun t => { t with plans := { p with frames := [], keep := [], run := some run } :: t.plans })).burstMove c false 1

/-- A burst that may not be sent (R138): missed, its frames stay queued. -/
def State.missBurst (s : State) (c : Nat) (p : Plan) : State :=
  (s.unplanned c p.ent.prot p.frames).inc F.CH_BOW_MISSED c

/-- BURST_LAUNCH (R138): the oldest plan, once its upstream line tick has begun; a burst still on its way has ended before. -/
def burstLaunch (c : Nat) (r : FsRead) (s : State) : State :=
  let s := s.burstMove c true (s.burstFuel c)
  let t := s.tree c
  match t.plans, t.up with
  | p :: ps, some up =>
    if s.role c != roleTerm || !ltnLe p.u up then s
    else
      let s := s.modTree c (fun t => { t with plans := ps })
      (if !s.pairActive c then s
      else match s.arrOf c p.u with
      | none => s.missBurst c p
      | some a => if s.maySend c p.ent a then s.sendBurst c p a r else s.missBurst c p).panicSettle c
  | _, _ => s

/-- A terminal's framer enters SYNC: the plans whose downstream line tick has not arrived fell while it was out of SYNC and are missed
(R97, R138); what has arrived keeps its upstream line tick. -/
def State.rejoin (s : State) (c : Nat) : State :=
  let gone (s : State) (p : Plan) : Bool := p.run.isNone && (s.arrOf c p.u).isNone
  let s' := ((s.tree c).plans.filter (gone s)).foldl (fun s p => s.missBurst c p) s
  s'.modTree c (fun t => { t with plans := t.plans.filter (fun p => !gone s p) })

/-! ### The commands -/

/-- UPSTREAM_TICK_BEGIN. -/
def execUpstreamTickBegin (c : Fin 64) (s : State) : Outcome State Fault Refusal := done s (upstreamTickBegin c s)
/-- BURST_LAUNCH. -/
def execBurstLaunch (c : Fin 64) (rd : FsRead) (s : State) : Outcome State Fault Refusal := done s (burstLaunch c rd s)
/-- PANIC_ASSERT. -/
def execPanicAssert (c : Fin 64) (s : State) : Outcome State Fault Refusal := done s (panicAssert c s)
/-- PANIC_DEASSERT. -/
def execPanicDeassert (c : Fin 64) (s : State) : Outcome State Fault Refusal := done s (panicDeassert c s)
/-- CH_TERM_EQD_WRITE (R121), on every channel that the requester's selects name. -/
def execChTermEqdWrite (req : Fin 19) (value : Word) (s : State) : Outcome State Fault Refusal :=
  doneWrite req s (s.ordered req F.CH_TERM_EQD.off (s.chSel req) (fun u =>
    ((s.chSel req).foldl (fun s c => s.armEqd c value) u).foldWrites req F.CH_TERM_EQD.off (s.chSel req)))

end Sys2Proof.Machine
end

