-- ==== Sys2Proof/Machine/Cls.lean ====
section
/-!
DEFINITION. Stages 3 to 5 of the frame path (06_parse_classify): the pipes and the order of their frames (R172), one
pass (R158 to R171), the actions (R167 to R169, R182, R183), the slow path (R185), recirculation (R182), the epochs
(R175, R176), and the exact-table engine (R164).
-/

namespace Sys2Proof.Machine
open Host (Outcome)

/-! ### Pipes -/

/-- The parse pipe of a frame: octants 0 to 7 by entry channel, 8 for injected frames, 9 to 16 for the Surok lanes. -/
def pipeOf (f : Frame) : Nat := if f.src = 0 then octOf f.entry else if f.src = 3 then 9 + f.entry % 8 else 8

def State.pipe (s : State) (p : Nat) : List Frame := tget (fun _ => []) s.cls.pipes p
def State.setPipe (s : State) (p : Nat) (l : List Frame) : State :=
  { s with cls := { s.cls with pipes := tput (fun _ => []) s.cls.pipes p l } }
def State.holdOf (s : State) (p : Nat) : List Hold := tget (fun _ => []) s.cls.hold p
def State.setHold (s : State) (p : Nat) (l : List Hold) : State :=
  { s with cls := { s.cls with hold := tput (fun _ => []) s.cls.hold p l } }
def State.recqOf (s : State) (p : Nat) : List Frame := tget (fun _ => []) s.cls.recq p
def State.setRecq (s : State) (p : Nat) (l : List Frame) : State :=
  { s with cls := { s.cls with recq := tput (fun _ => []) s.cls.recq p l } }
def State.placesOf (s : State) (flow : Nat) : List Place := tget (fun _ => []) s.cls.places flow
def State.setPlaces (s : State) (flow : Nat) (l : List Place) : State :=
  { s with cls := { s.cls with places := tput (fun _ => []) s.cls.places flow l } }

/-- The flow whose order a frame keeps (R172): its entry channel, its transmit ring (from 128), its core (from 256);
none, as number 1024, for a frame of the Surok link and for one that has given up its place. -/
def flowOf (f : Frame) : Nat :=
  if f.src = 0 then f.entry else if f.src = 1 then 128 + f.entry else if f.src = 2 then 256 + f.entry else 1024

def unordered : Nat := 1024

/-- A frame joins its pipe and takes its place. -/
def State.enterPipe (s : State) (f : Frame) : State :=
  let id := s.cls.nextPlace
  let flow := flowOf f
  let s := { s with cls := { s.cls with nextPlace := id + 1 } }
  let s := s.setPlaces flow (s.placesOf flow ++ [{ id, out := none, copies := [] }])
  let p := pipeOf f
  s.setPipe p (s.pipe p ++ [{ f with flow, place := id }])

/-- The frames at the front of a flow whose passes have ended leave stage 5, in order, each with its copies. -/
def State.drainFlow (s : State) (flow : Nat) : Nat → State
  | 0 => s
  | n + 1 => match s.placesOf flow with
    | { id := _, out := some l, copies } :: rest =>
      ((l ++ copies).foldl State.admitFrame (s.setPlaces flow rest)).drainFlow flow n
    | _ => s

/-- A frame's place in its flow. -/
def State.placeOf (s : State) (f : Frame) : Option Place := (s.placesOf f.flow).find? (·.id == f.place)

/-- A frame and its copies leave stage 5 at once, its place given up (R172, R183). -/
def State.leaveNow (s : State) (f : Frame) (l : List QFrame) : State :=
  let copies := match s.placeOf f with | some p => p.copies | none => []
  let s := s.setPlaces f.flow ((s.placesOf f.flow).filter (·.id != f.place))
  let s := (l ++ copies).foldl State.admitFrame s
  s.drainFlow f.flow (s.placesOf f.flow).length

/-- A frame that has taken its passes leaves stage 5 behind the frames before it (R172). -/
def State.leave (s : State) (f : Frame) (q : QFrame) : State :=
  if f.flow = unordered then s.leaveNow f [q]
  else
    let s := s.setPlaces f.flow ((s.placesOf f.flow).map (fun p => if p.id == f.place then { p with out := some [q] } else p))
    s.drainFlow f.flow (s.placesOf f.flow).length

/-- A mirror copy waits with its original (R183). -/
def State.addCopy (s : State) (f : Frame) (q : QFrame) : State :=
  s.setPlaces f.flow ((s.placesOf f.flow).map (fun p => if p.id == f.place then { p with copies := p.copies ++ [q] } else p))

/-- A frame's place moved out of the order of its flow (R172). -/
def State.giveUpPlace (s : State) (f : Frame) : Frame × State :=
  match s.placeOf f with
  | none => ({ f with flow := unordered }, s)
  | some p =>
    let s := s.setPlaces f.flow ((s.placesOf f.flow).filter (·.id != f.place))
    let s := s.setPlaces unordered (s.placesOf unordered ++ [p])
    ({ f with flow := unordered }, s.drainFlow f.flow (s.placesOf f.flow).length)

/-! ### The slow path (R185) -/

/-- A frame with a destination. -/
def mkQ (f : Frame) (kind dest : Nat) : QFrame :=
  { f, dp := 0, kind, dest, tid := 0, bc := false, prot := false, reason := 0, copy := false, act := 0, ameta := 0,
    hash := 0, member := 0, late := false, expired := false, restaged := false, slice := 0, cells := [], deep := 0 }

/-- The cap of a slow-path bucket in 2^-16 frame. -/
def State.spCap (s : State) (r : Nat) : Nat := max 1 (s.rd (F.CLS_SP_BKT r) 0) * 65536

/-- A frame for the slow path with its reason and deciding action: a token taken, or the frame dropped (R185). -/
def State.slowPath (s : State) (f : Frame) (reason act ameta : Nat) (copy : Bool) : Option QFrame × State :=
  let lvl := tget (fun _ => 0) s.cls.sp reason
  if lvl < 65536 || s.rd (F.CLS_SP_CFG_RATE reason) 0 = 0 then (none, s.inc (F.CLS_SP_DROP reason) 0)
  else
    let s := { s with cls := { s.cls with sp := tput (fun _ => 0) s.cls.sp reason (lvl - 65536) } }
    let i := s.rd (F.CLS_SP_CFG_INDEX reason) 0
    let core := s.on (F.CLS_SP_CFG_KIND reason) 0
    let q := mkQ f (if core then 3 else 2) (if core then i % 16 else i)
    (some { q with reason, copy, act, ameta }, s.inc (F.CLS_SP_PASS reason) 0)

/-- A frame trapped: to the slow path, its place given up. -/
def State.trap (s : State) (f : Frame) (reason act ameta : Nat) : State :=
  let r := s.slowPath f reason act ameta false
  r.2.leaveNow f r.1.toList

/-- SLOW_PATH_REFILL (R185): RATE × 1,000 frames per second for 0.5 µs, with 16 fraction bits, capped. -/
def slowPathRefill (s : State) : State :=
  let step (t : Tab Nat) (r : Nat) : Tab Nat :=
    tput (fun _ => 0) t r (min (s.spCap r) (tget (fun _ => 0) t r + s.rd (F.CLS_SP_CFG_RATE r) 0 * 65536 / 2000))
  { s with cls := { s.cls with sp := (List.range 64).foldl step s.cls.sp } }

/-! ### Destinations (R168, R181) -/

/-- The largest frame of a client channel, with its FCS: a MAX_FRAME below 64 acts as 64 (CH_MAC_CFG). -/
def State.maxFrame (s : State) (c : Nat) : Nat := max 64 (s.rd F.CH_MAC_CFG_MAX_FRAME c)

/-- The largest frame, without its FCS, that a channel accepts (R181, R264). -/
def State.channelLimit (s : State) (c : Nat) (prot bc : Bool) (tid : Nat) : Nat :=
  let role := s.role c
  if role = roleClient then s.maxFrame c - 4
  else if role = roleTerm then s.rd F.CH_TF_CFG_MAX_LEN c - 20
  else if role = roleHead then
    s.rd F.CH_TF_CFG_MAX_LEN c - 4 - (if prot || (!bc && s.on (F.CH_PP_REQUIRE tid) c) then 16 else 0)
  else 16379

/-- The largest frame, without its FCS, that a destination accepts (R181). -/
def State.destLimit (s : State) (q : QFrame) : Nat :=
  if q.kind = 0 then s.channelLimit (q.dest / 64) q.prot q.bc q.tid
  else if q.kind = 1 then
    let chord := q.dest % 32
    (List.range 8).foldl (fun m i => match s.member chord i with
      | none => m
      | some c =>
        if c = 64 then m
        else min m (s.channelLimit c q.prot (s.on (F.QSH_CHORD_M_BC chord i) 0) (s.rd (F.QSH_CHORD_M_TID chord i) 0)))
      16379
  else 16379

/-- A frame with the destination that an action names (R167, R168). -/
def State.destFrame (s : State) (f : Frame) (a : List Byte) (kind : Nat) : QFrame :=
  let dest := fieldLE a 2 2
  let tree := byteAt a 4
  let head := kind == 0 && s.role (dest % 4096 / 64) == roleHead
  let q := mkQ f kind (if kind = 0 then dest % 4096 else if kind = 1 then dest % 32 + dest / 256 % 8 * 4096
    else if kind = 2 then dest % 128 else if kind = 3 then dest % 16 else dest % 8)
  { q with tid := if head then tree % 32 else 0, bc := head && bit tree 5, prot := (head || kind == 1) && bit tree 6 }

/-- Whether a frame queued to a HEAD channel has no destination (R168). -/
def State.noDest (s : State) (kind dest : Nat) (valid bc : Bool) : Bool :=
  kind == 0 && s.role (dest / 64) == roleHead && !valid && !bc

/-- The octant in which a frame without destination counts: the processing octant, for an injected frame that of its
destination (R12). -/
def countOct (f : Frame) (dest : Nat) : Nat :=
  if f.src = 0 then octOf f.entry else if f.src = 3 then f.entry % 8 else dest / 512

/-! ### Mirrors (R183) -/

/-- A mirror copy of a frame as it stands; none for a disabled session or a kind that a session does not have. -/
def State.mirrorCopy (s : State) (f : Frame) (m act ameta hash : Nat) : Option QFrame :=
  let kind := s.rd (F.CLS_MIR_KIND m) 0
  let i := s.rd (F.CLS_MIR_INDEX m) 0
  if !s.on (F.CLS_MIR_EN m) 0 || 4 < kind then none
  else
    let t := s.rd (F.CLS_MIR_TRUNC m) 0
    let body := if t = 0 then f.body else f.body.take (64 * t - 4)
    let f := { f with body, fcsNew := f.fcsNew || body.length != f.body.length }
    let dest := if kind = 0 then i else if kind = 1 then i % 32 + i / 256 % 8 * 4096
      else if kind = 2 then i % 128 else if kind = 3 then i % 16 else i % 8
    some { mkQ f kind dest with dp := s.rd (F.CLS_MIR_DP m) 0, copy := true, act, ameta, hash }

/-- A mirror copy taken, where a destination is left for it (R168). -/
def State.mirror (s : State) (f : Frame) (m act ameta hash : Nat) : State :=
  match s.mirrorCopy f m act ameta hash with
  | none => s
  | some q => if s.noDest q.kind q.dest false false then s.inc F.OCT_CLS_NODEST (countOct f q.dest) else s.addCopy f q

/-! ### Recirculation (R182) -/

/-- The recirculation queue of a pipe; the Surok pipes share the injection pipe's (R331). -/
def recqKey (p : Nat) : Nat := min p 8

/-- A frame returned to stage 3, or dropped where the queue is full; the tag of word 3 is the one that this pass read, of the frame
`f0` as it began (R161). -/
def State.recirculate (s : State) (f0 f : Frame) (w : Walk) (a : List Byte) : State :=
  let p := recqKey (pipeOf f)
  if 32 ≤ (s.recqOf p).length then
    (if p < 8 then s.inc F.OCT_RECIRC_DROP p else s).leaveNow f []
  else
    let f' := { f with pass := f.pass + 1, node := byteAt a 13, meta16 := fieldLE a 14 2, pay := w.pay, labels := w.labels,
                       kprev := w.word3 f0.body }
    s.setRecq p (s.recqOf p ++ [f'])

/-- MAX_PASS as it acts (CLS_CFG). -/
def State.maxPass (s : State) : Nat := max 1 (min 4 (s.rd F.CLS_CFG 0))

/-! ### Stage 5 -/

/-- The last step of stage 5 for a frame that its action sends on (R168, R181). `f0` is the frame as its pass began. -/
def State.sendOn (s : State) (f0 f : Frame) (a : List Byte) (act dp hash : Nat) : State :=
  let kind := byteAt a 0 % 8
  let q := s.destFrame f a kind
  let ameta := fieldLE a 14 2
  if s.noDest kind q.dest (bit (byteAt a 4) 7) q.bc then
    (s.inc F.OCT_CLS_NODEST (countOct f q.dest)).leaveNow f []
  else if s.destLimit q < f.len then s.trap f0 spBig act ameta
  else s.leave f { q with dp, act, ameta, hash }

/-- Stage 5 after the edit program: the copy taken behind it, and where the action sends the frame. KIND 5 drops the frame here, after
its meter, trap copy, mirror copies and edit program: the spec does not say whether a drop comes before them (DESIGN CHOICE, log
entry 128). -/
def State.afterEdit (s : State) (f0 f : Frame) (w : Walk) (a : List Byte) (act dp hash : Nat) : State :=
  let kind := byteAt a 0 % 8
  let m := byteAt a 8 % 16
  let ameta := fieldLE a 14 2
  let s := if bit (byteAt a 5) 2 && !s.on (F.CLS_MIR_PRE_EDIT m) 0 then s.mirror f m act ameta hash else s
  if kind = 5 then s.leaveNow f []
  else if kind = 7 then
    if s.maxPass ≤ f.pass + 1 then s.trap f spLoop act ameta else s.recirculate f0 f w a
  else s.sendOn f0 f a act dp hash

/-- The edit program and what follows it (R177 to R183). -/
def State.editAndSend (s : State) (f : Frame) (w : Walk) (a : List Byte) (act dp : Nat) : State :=
  let hash := s.flowHash w
  let ameta := fieldLE a 14 2
  let m := byteAt a 8 % 16
  let s := if bit (byteAt a 5) 2 && s.on (F.CLS_MIR_PRE_EDIT m) 0 then s.mirror f m act ameta hash else s
  if !bit (fieldLE a 10 2) 15 then s.afterEdit f f w a act dp hash
  else
    let v := s.takeFree
    match s.runEdit f w a hash v.1 with
    | .error .fault => s.trap f spEdit act ameta
    | .error .ttl => s.trap f spTtl act ameta
    | .ok (body, used) =>
      (if used then v.2 else s).afterEdit f { f with body, fcsNew := f.fcsNew || body != f.body } w a act dp hash

/-- The drop precedence of a frame and, for a frame of a line lane, its metering (R169): none where it is dropped. -/
def State.stageMeter (s : State) (f : Frame) (w : Walk) (a : List Byte) : Option Nat × State :=
  let dp := byteAt a 24
  if bit (byteAt a 5) 0 && f.src = 0 then
    let m := 2048 * octOf f.entry + fieldLE a 6 2 % 2048
    let r := s.meter m f.len w.fv
    if r.1 = .red && bit (byteAt a 5) 1 then (none, r.2.inc F.OCT_MTR_REDDROP m) else (some (dpOf dp r.1), r.2)
  else (some (dp % 4), s)

/-- The reason of a rule (R184): a value below 16 acts as 16. -/
def ruleReason (a : List Byte) : Nat := max 16 (byteAt a 9 % 64)

/-- A frame takes an action (R167 to R169, R182 to R185). -/
def State.takeAction (s : State) (f : Frame) (w : Walk) (act : Nat) : State :=
  let a := s.actEnt act
  if !bit (byteAt a 31) 7 then s.leaveNow f []
  else if byteAt a 0 % 8 = 6 then s.trap f (ruleReason a) act (fieldLE a 14 2)
  else
    let r := s.stageMeter f w a
    match r.1 with
    | none => r.2.leaveNow f []
    | some dp =>
      let t := if bit (byteAt a 5) 5 then r.2.slowPath f (ruleReason a) act (fieldLE a 14 2) true else (none, r.2)
      (t.1.toList.foldl State.admitFrame t.2).editAndSend f w a act dp

/-! ### Stages 3 and 4 -/

/-- The part of the payload that patterns are searched in (R170). -/
def searched (f : Frame) (w : Walk) : List Byte := slice f.body w.pay 1024

/-- A frame whose action asks for patterns (R170, R171): searched and held, or without a place on the list. -/
def State.askPatterns (s : State) (f : Frame) (w : Walk) (act : Nat) : State :=
  let a := s.actEnt act
  let p := pipeOf f
  if 512 ≤ (s.holdOf p).length then
    let s := if p < 8 then s.inc F.OCT_PAT_FULL p else s
    if bit (byteAt a 5) 4 then s.leaveNow f [] else s.takeAction f w act
  else
    let chosen := (s.patHit (searched f w) (byteAt a 12 % 16) f.epoch).getD act
    let orig := f.flow
    let r := s.giveUpPlace f
    r.2.setHold p (r.2.holdOf p ++ [{ f := { r.1 with flow := orig }, w, act := chosen }])

/-- The start node of a frame's epoch (R154). -/
def State.startNode (s : State) (f : Frame) (epoch : Nat) : Nat :=
  let w := if f.src = 0 then s.rd F.CH_PARSE_START f.entry
    else if f.src = 3 then s.rd F.CLS_SUROK_START 0 else s.rd F.CLS_INJ_START 0
  w / 2 ^ (8 * epoch) % 256

/-- A frame whose first pass begins takes the epoch in effect (R175). -/
def State.firstPass (s : State) (f : Frame) : Frame :=
  if f.pass ≠ 0 then f
  else
    let epoch := s.rd F.CLS_EPOCH_NOW 0
    { f with epoch, start := s.pegs.cyc, node := s.startNode f epoch }

/-- One pass of a frame. -/
def State.pass (s : State) (f0 : Frame) : State :=
  let f := s.firstPass f0
  match s.walk f (if f.src = 0 then s.role f.entry else 0) with
  | .error r => s.trap f r 0 0
  | .ok w =>
    let f := f.withTag w
    let act := s.chooseAct (s.profEnt w.prof) w.fv w.prof f.epoch
    let a := s.actEnt act
    if bit (byteAt a 31) 7 && bit (byteAt a 5) 3 then s.askPatterns f w act else s.takeAction f w act

/-- PARSE_PASS (R158 to R169): the next frame of a pipe list. The three parse pipes of an octant hold a frame each, so the n-th of
those in front may come before them; frames that reach stage 5 in one octant cycle come in ascending pipe number (R223), those of
one flow in their order of arrival (R14). -/
def parsePass (p n : Nat) (s : State) : State :=
  let n := if p < 8 then n else 0
  match (s.pipe p)[n]? with
  | none => s
  | some f =>
    let front := (s.pipe p).take n
    if (p < 8 && s.asleep p) || front.any (·.flow == f.flow) then s else (s.setPipe p (front ++ (s.pipe p).drop (n + 1))).pass f

/-- PATTERN_RELEASE (R170 to R172): the n-th frame of a hold list takes its action, unless one of its flow that arrived before it
is still held. -/
def patternRelease (p n : Nat) (s : State) : State :=
  match (s.holdOf p)[n]? with
  | none => s
  | some h =>
    if (s.holdOf p).any (fun x => x.f.flow == h.f.flow && h.f.flow != unordered && decide (x.f.place < h.f.place)) then s
    else (s.setHold p ((s.holdOf p).take n ++ (s.holdOf p).drop (n + 1))).takeAction { h.f with flow := unordered } h.w h.act

/-! ### Age and epochs -/

/-- Whether a frame has been 2 µs in stages 3 to 5 (R156). -/
def State.isStale (s : State) (f : Frame) : Bool := decide (f.start + 4000 ≤ s.pegs.cyc)

/-- The frames that wait in the flows for the frames before them. -/
def State.waiting (s : State) : List QFrame := s.cls.places.flatMap (fun e => e.2.flatMap (fun p => (p.out.getD [])))

/-- A stale frame dropped and counted. -/
def State.dropStale (s : State) (p : Nat) (f : Frame) : State :=
  (if p < 8 then s.inc F.OCT_CLS_STALE p else s).leaveNow f []

/-- CLS_STALE (R156): the frames of a pipe that have been 2 µs in stages 3 to 5 are dropped. -/
def clsStale (p : Nat) (s : State) : State :=
  let old (f : Frame) : Bool := pipeOf f == p && s.isStale f
  let late := ((s.pipe p).filter (fun f => f.pass != 0 && old f)) ++ (s.recqOf (recqKey p)).filter old ++
    (s.waiting.map (·.f)).filter old
  let held := (s.holdOf p).filter (fun h => old h.f)
  let s := (s.setPipe p ((s.pipe p).filter (fun f => !(f.pass != 0 && old f)))).setHold p
    ((s.holdOf p).filter (fun h => !old h.f))
  let s := s.setRecq (recqKey p) ((s.recqOf (recqKey p)).filter (fun f => !old f))
  (late ++ held.map (fun (h : Hold) => { h.f with flow := unordered })).foldl (fun s f => s.dropStale p f) s

/-- The frames of an epoch in stages 3 to 5 whose first pass has begun (CLS_EPOCH_FLT, R176). -/
def State.inEpoch (s : State) (e : Nat) : Nat :=
  let n (l : List Frame) : Nat := (l.filter (·.epoch == e)).length
  (s.cls.pipes.map (fun x => n (x.2.filter (·.pass != 0)))).sum + (s.cls.recq.map (fun x => n x.2)).sum +
    (s.cls.hold.map (fun x => n (x.2.map (·.f)))).sum + n (s.waiting.map (·.f))

/-- EPOCH_RETIRED (R176): an epoch that was current and is not, with no frame left in stages 3 to 5. -/
def epochRetired (e : Nat) (s : State) : State :=
  if bit s.cls.former e && s.rd F.CLS_EPOCH_NOW 0 != e && s.inEpoch e == 0 then
    let s := { s with cls := { s.cls with former := putBit s.cls.former e false } }
    (s.wr F.CLS_EPOCH_STAT 0 (putBit (s.rd F.CLS_EPOCH_STAT 0) e true)).log 0x0601 engineReq e []
  else s

/-- A commit's change of CLS_EPOCH.CUR at the boundary (R175, R176). -/
def State.epochCommit (s : State) : State :=
  let new := s.rd F.CLS_EPOCH_CUR 0
  let old := s.rd F.CLS_EPOCH_NOW 0
  if new = old then s
  else
    let s := { s with cls := { s.cls with former := putBit (putBit s.cls.former old true) new false } }
    (s.wr F.CLS_EPOCH_NOW 0 new).wr F.CLS_EPOCH_STAT 0 (putBit (s.rd F.CLS_EPOCH_STAT 0) new false)

/-! ### The recirculation bucket (R16, R182) -/

/-- The recirculation limit of a queue in Mpps: by the level whose clock the octant runs on (R16), 100 for the
injection pipe (R182). -/
def State.recircLimit (s : State) (p : Nat) : Nat := if p < 8 then 100 * (s.octPwr p).level + 100 else 100

/-- RECIRCULATION_REFILL (R182): the bucket filled up to now, and frames fed from the queue while it holds a token. A
bucket counts in 1/2000 frame, so that 1 Mpps adds one unit per device cycle. -/
def recirculationRefill (p : Nat) (s : State) : State :=
  let b := tget (fun _ => Bucket.empty) s.cls.recTok p
  let level := min 64000 (b.level + (s.pegs.cyc - b.cyc) * s.recircLimit p)
  let q := s.recqOf p
  let n := min q.length (level / 2000)
  let s := { s with cls := { s.cls with recTok := tput (fun _ => Bucket.empty) s.cls.recTok p
                                          { level := level - 2000 * n, cyc := s.pegs.cyc } } }
  (q.take n).foldl (fun s f => s.setPipe (pipeOf f) (s.pipe (pipeOf f) ++ [f])) (s.setRecq p (q.drop n))

/-! ### The exact table's engine (R164) -/

/-- The entry places in use (CLS_EM_COUNT). -/
def emUsed (em : List EmEnt) : Nat := (em.map (fun e => if e.wide then 2 else 1)).sum

/-- The statuses of CLS_EM_CTL. -/
def emOk : Nat := 0
def emExists : Nat := 1
def emNotFound : Nat := 2
def emFull : Nat := 3

/-- Whether an entry has an operation's key and profile. -/
def EmOp.names (o : EmOp) (e : EmEnt) : Bool :=
  let wide := bit o.ctl.toNat 24
  e.wide == wide && e.prof == getF o.ctl F.CLS_EM_CTL_PROF && e.key == padKey (if wide then 64 else 32) o.key

/-- The entry that an operation makes. -/
def EmOp.entry (o : EmOp) : EmEnt :=
  let wide := bit o.ctl.toNat 24
  { key := padKey (if wide then 64 else 32) o.key, prof := getF o.ctl F.CLS_EM_CTL_PROF, wide,
    epochs := getF o.actw F.CLS_EM_ACT_EPOCHS, act := getF o.actw F.CLS_EM_ACT_ACT }

/-- INSERT: the table after it and its status; `noPlace` says that 128 relocations found no place. -/
def emInsert (em : List EmEnt) (o : EmOp) (noPlace : Bool) : List EmEnt × Nat :=
  let e := o.entry
  if em.any (fun x => o.names x && (x.epochs &&& e.epochs) != 0) then (em, emExists)
  else if noPlace || 4194304 < emUsed em + (if e.wide then 2 else 1) then (em, emFull)
  else (em ++ [e], emOk)

/-- Whether DELETE, SEARCH and UPDATE act on an entry. -/
def EmOp.selects (o : EmOp) (e : EmEnt) : Bool := o.names e && bit e.epochs (getF o.ctl F.CLS_EM_CTL_EPOCH)

/-- The first selected entry of a table changed, or removed where the change gives none. -/
def emChange (o : EmOp) (f : EmEnt → Option EmEnt) : List EmEnt → List EmEnt
  | [] => []
  | e :: es => if o.selects e then (f e).toList ++ es else e :: emChange o f es

/-- DELETE, SEARCH and UPDATE: the table after it, its status, and the entry found. -/
def emApply (em : List EmEnt) (o : EmOp) (noPlace : Bool) : List EmEnt × Nat × Option EmEnt :=
  if o.op = 0 then let r := emInsert em o noPlace; (r.1, r.2, none)
  else match em.find? o.selects with
    | none => (em, emNotFound, none)
    | some e =>
      if o.op = 1 then (emChange o (fun _ => none) em, emOk, none)
      else if o.op = 3 then
        (emChange o (fun x => some { x with act := o.entry.act, epochs := o.entry.epochs }) em, emOk, none)
      else (em, emOk, some e)

/-- The rule that an engine B refuses changes of copied rules from its own requesters (R344). -/
def State.ruleRefused (s : State) (req : Nat) : Bool :=
  s.strap == 2 && s.on F.TWN_CFG_COPY_RULES 0 && !s.declared && decide (req ≤ 16)

/-- An operation started by a requester's GO (R164), or refused under R344. -/
def State.emStart (s : State) (req op : Nat) : State :=
  if s.on F.CLS_EM_CTL_BUSY req then s
  else if s.ruleRefused req then s.inc F.TWN_RULE_REFUSED 0
  else
    let key := (List.range 16).flatMap (fun k => toBytes (bytesLE 4 (s.rd (F.CLS_EM_KEY k) req)))
    let s := (s.wr F.CLS_EM_CTL_OP req op).wr F.CLS_EM_CTL_BUSY req 1
    { s with cls := { s.cls with emOps := s.cls.emOps ++
        [{ req, op, ctl := s.reg req F.CLS_EM_CTL.off, actw := s.reg req F.CLS_EM_ACT.off, key }] } }

/-- The operation served next: requesters in turn, after the one served last. -/
def State.emNext (s : State) : Option EmOp :=
  let dist (o : EmOp) : Nat := (o.req % unheard + 18 - s.cls.emLast) % 19
  s.cls.emOps.foldl (fun best o => match best with
    | none => some o
    | some b => if dist o < dist b then some o else best) none

/-- Whether this engine sends rule changes to its partner (R344): engine A with COPY_RULES. -/
def State.copiesRules (s : State) : Bool := s.copying && s.strap == 1 && s.on F.TWN_CFG_COPY_RULES 0

/-- EM_OPERATION_DONE (R164): the operation served ends; a successful one that changes the table is folded (R362). -/
def emOperationDone (noPlace : Bool) (s : State) : State :=
  match s.emNext with
  | none => s
  | some o =>
    let r := emApply s.cls.em o noPlace
    let s := { s with cls := { s.cls with em := r.1, emLast := o.req % unheard, emOps := s.cls.emOps.erase o } }
    let s := s.wr F.CLS_EM_COUNT 0 (emUsed r.1)
    let s := if unheard ≤ o.req then s else (s.wr F.CLS_EM_CTL_BUSY o.req 0).wr F.CLS_EM_CTL_STATUS o.req r.2.1
    let s := match (if unheard ≤ o.req then none else r.2.2) with
      | none => s
      | some e => (s.wr F.CLS_EM_ACT_EPOCHS o.req e.epochs).wr F.CLS_EM_ACT_ACT o.req e.act
    if r.2.1 = emOk then
      let s := s.fold foldExact (o.req % unheard) 0 o.ctl.toNat (padKey 64 o.key ++ toBytes (bytesLE 4 o.actw.toNat))
      if o.op != 2 && s.copiesRules then
        s.copyRec rcEm 0 (toBytes (bytesBE 4 o.ctl.toNat ++ bytesBE 4 o.actw.toNat) ++ padKey 64 o.key)
      else s
    else s

/-- One aligned word written into the aperture (R173), refused under R344; a completed entry is copied. -/
def State.writeWord (s : State) (req ofs : Nat) (data : List (Option Byte)) : State :=
  if s.ruleRefused req then s.inc F.TWN_RULE_REFUSED 0
  else
    let s := s.tableWord req ofs data
    match entryOf ofs with
    | none => s
    | some (base, size) =>
      if ofs + 4 = base + size && s.copiesRules then
        s.copyRec rcTbl 0 (toBytes (bytesBE 4 base) ++ s.tblBytes base size)
      else s

/-- TABLE_WORD_WRITE (R173): an access to the aperture, as one to each word it covers, in ascending offset (R444). -/
def tableWrite (req ofs : Nat) (data : List (Option Byte)) (s : State) : State :=
  let d := List.replicate (ofs % 4) none ++ data
  (List.range ((d.length + 3) / 4)).foldl (fun s i =>
    s.writeWord req (ofs / 4 * 4 + 4 * i) (((d.drop (4 * i)).take 4))) s

/-! ### The commands -/

/-- PARSE_PASS. -/
def execParsePass (at_ : PassAt) (s : State) : Outcome State Fault Refusal := done s (parsePass at_.pipe at_.nth s)
/-- PATTERN_RELEASE. -/
def execPatternRelease (pipe : Fin 17) (n : Nat) (s : State) : Outcome State Fault Refusal :=
  done s (patternRelease pipe n s)
/-- CLS_STALE. -/
def execClsStale (pipe : Fin 17) (s : State) : Outcome State Fault Refusal := done s (clsStale pipe s)
/-- EPOCH_RETIRED. -/
def execEpochRetired (e : Fin 4) (s : State) : Outcome State Fault Refusal := done s (epochRetired e s)
/-- SLOW_PATH_REFILL. -/
def execSlowPathRefill (s : State) : Outcome State Fault Refusal := done s (slowPathRefill s)
/-- RECIRCULATION_REFILL. -/
def execRecirculationRefill (pipe : Fin 9) (s : State) : Outcome State Fault Refusal := done s (recirculationRefill pipe s)
/-- TABLE_WORD_WRITE. -/
def execTableWordWrite (req : Fin 19) (ofs : BitVec 26) (data : List (Option Byte)) (s : State) :
    Outcome State Fault Refusal := doneWrite req s (tableWrite req ofs.toNat data s)
/-- INSERT (R164). -/
def execInsert (req : Fin 19) (s : State) : Outcome State Fault Refusal := doneWrite req s (s.emStart req 0)
/-- DELETE (R164). -/
def execDelete (req : Fin 19) (s : State) : Outcome State Fault Refusal := doneWrite req s (s.emStart req 1)
/-- SEARCH (R164). -/
def execSearch (req : Fin 19) (s : State) : Outcome State Fault Refusal := doneWrite req s (s.emStart req 2)
/-- UPDATE (R164). -/
def execUpdate (req : Fin 19) (s : State) : Outcome State Fault Refusal := doneWrite req s (s.emStart req 3)
/-- EM_OPERATION_DONE. -/
def execEmOperationDone (noPlace : Bool) (s : State) : Outcome State Fault Refusal := done s (emOperationDone noPlace s)

end Sys2Proof.Machine
end

