-- ==== Sys2Proof/Machine/Client.lean ====
section
/-!
DEFINITION. The client MAC (10_client_host): receiving (R263, R265), pause (R266 to R268), and the frames that enter the
pipes from a line lane (R13).
-/

namespace Sys2Proof.Machine
open Host (Outcome)

/-- A frame as stage 2 takes it: without its FCS, with its arrival stamp (R13), source and entry. -/
def State.arrived (s : State) (bytes : List Byte) (stamp src entry : Nat) : Frame :=
  let n := bytes.length - 4
  { body := bytes.take n, fcs := bytes.drop n, fcsNew := false, stamp := stamp % 2 ^ 64, cyc := s.pegs.cyc, src, entry,
    tid := 0, bc := false, prot := false, flow := 0, place := 0, epoch := 0, pass := 0, start := 0, node := 0, meta16 := 0,
    pay := 0, labels := 0, kprev := 0, kv := false, kchord := 0, kflags := 0, korigin := 0, arrLen := bytes.length }

/-- A frame of a channel that passes stage 1: its receive record and its pipe; its stamp point was `ago` sixteenths of a
nanosecond ago (R247). -/
def State.lineFrame (s : State) (c : Nat) (bytes : List Byte) (tid : Nat) (bc prot : Bool) (ago : Nat) : State :=
  let f := { s.arrived bytes (s.rxStamp c ago) 0 c with tid, bc, prot }
  (s.ptpEntry c f.body ago).enterPipe f

/-- The address of a client channel (CH_MAC_SA). -/
def State.macSa (s : State) (c : Nat) : List Byte :=
  toBytes (bytesBE 2 (s.rd F.CH_MAC_SA_HI c) ++ bytesBE 4 (s.rd F.CH_MAC_SA_LO c))

/-- The address of pause frames. -/
def pauseDa : List Byte := toBytes [0x01, 0x80, 0xC2, 0x00, 0x00, 0x01]

/-! ### Pause (R266 to R268) -/

/-- The pause timer's end and the PAUSED bit. A quantum is 1.28 ns, 128 units of 0.01 ns. -/
def State.pause (s : State) (c p : Nat) : State :=
  let t := if p = 0 then 0 else s.pegs.cyc * 50 + 128 * p
  ({ s with egress := { s.egress with pauseEnd := tput (fun _ => 0) s.egress.pauseEnd c t } }).wrB F.CH_MAC_STAT_PAUSED c (p != 0)

/-- The quanta that remain on a channel's pause timer (CH_MAC_STAT.QUANTA). -/
def State.quantaLeft (s : State) (c : Nat) : Nat :=
  ceilDiv (tget (fun _ => 0) s.egress.pauseEnd c - s.pegs.cyc * 50) 128

/-- A received pause frame (R265, R266). -/
def State.pauseReceived (s : State) (c p : Nat) : State :=
  let s := s.inc F.CH_MAC_RX_PAUSE c
  if s.on F.CH_MAC_CFG_OBEY c then s.pause c p else s

/-- A pause frame sent (R268). -/
def State.sendPause (s : State) (c p : Nat) : State :=
  let body := pauseDa ++ s.macSa c ++ toBytes ([0x88, 0x08, 0x00, 0x01] ++ bytesBE 2 p) ++ List.replicate 42 0
  (s.inc F.CH_MAC_TX_PAUSE c).emit (.clientFrame c (macPreamble ++ body ++ fcsBytes body))

def State.sinceOf (s : State) (c : Nat) : Nat := tget (fun _ => 0) s.egress.since c
def State.setSince (s : State) (c n : Nat) : State :=
  { s with egress := { s.egress with since := tput (fun _ => 0) s.egress.since c n } }

/-- The comparison with the watermarks, once per core tick (R267); with WM_HI 0 the lower one is −1. -/
def State.pauseTick (s : State) (c : Nat) : State :=
  if !s.on F.CH_MAC_CFG_GEN c then s
  else
    let cells := s.rd F.CH_STORE_USE c
    let hi := s.rd F.CH_MAC_WM_HI c
    let lo : Int := if hi ≤ s.rd F.CH_MAC_WM_LO c then (hi : Int) - 1 else (s.rd F.CH_MAC_WM_LO c : Int)
    let time := s.rd F.CH_MAC_PAUSE_PAUSE_TIME c
    if !s.on F.CH_MAC_STAT_XOFF c then
      if hi < cells then ((s.sendPause c time).wr F.CH_MAC_STAT_XOFF c 1).setSince c 0 else s
    else if (cells : Int) ≤ lo then (s.sendPause c 0).wr F.CH_MAC_STAT_XOFF c 0
    else if max 1 (s.rd F.CH_MAC_PAUSE_REFRESH c) ≤ s.sinceOf c + 1 then (s.sendPause c time).setSince c 0
    else s.setSince c (s.sinceOf c + 1)

/-- What a commit does to a channel's pause generation (R267). -/
def State.pauseCommit (s old : State) (c : Nat) : State :=
  if old.on F.CH_MAC_CFG_GEN c && !s.on F.CH_MAC_CFG_GEN c && s.on F.CH_MAC_STAT_XOFF c then
    (s.sendPause c 0).wr F.CH_MAC_STAT_XOFF c 0
  else s

/-- What a role commit does to it: XON, without sending anything, and no pause obeyed. -/
def State.pauseReset (s : State) (c : Nat) : State := ((s.pause c 0).wr F.CH_MAC_STAT_XOFF c 0).setSince c 0

/-! ### Receiving -/

/-- Whether a channel receives frames as a client: stage 3 of its lane, an octant that runs, no doze. -/
def State.clientReceives (s : State) (c : Nat) : Bool :=
  s.role c == roleClient && s.rxPowered c && s.onP (laneFEC c) && s.octRuns (octOf c) && !s.on F.CH_PWR_STAT_DOZING c

/-- Whether the FCS of a frame as received passes. -/
def fcsOk (frame : List Byte) : Bool :=
  let n := frame.length - 4
  decide (4 ≤ frame.length) && frame.drop n == fcsBytes (frame.take n)

/-- A MAC control frame consumed (R265). -/
def State.macControl (s : State) (c : Nat) (frame : List Byte) : State :=
  if fieldBE frame 14 2 = 1 && (frame.take 6 == pauseDa || frame.take 6 == s.macSa c) then s.pauseReceived c (fieldBE frame 16 2)
  else s.inc F.CH_MAC_RX_CTRL c

/-- A frame of a client line (R263); `unc` where it holds a block that the decoder marked (R59). -/
def State.takeClientFrame (s : State) (c : Nat) (frame : List Byte) (unc : Bool) (ago : Nat) : State :=
  if !s.clientReceives c then s
  else if unc then s.inc F.CH_MAC_RX_FCS c
  else if !fcsOk frame then s.inc F.CH_MAC_RX_FCS c
  else if frame.length < 64 then s.inc F.CH_MAC_RX_RUNT c
  else if s.maxFrame c < frame.length then s.inc F.CH_MAC_RX_LONG c
  else if fieldBE frame 12 2 = 0x8808 then s.macControl c frame
  else (s.inc F.CH_MAC_RX_OK c).lineFrame c frame 0 false false ago

/-- CLIENT_FRAME_RECEIVED (R59, R263): the frame's first block came in `back` codewords before the last one; it is spoilt where it
is told so or where a codeword from then on was uncorrectable. -/
def clientFrameReceived (c : Nat) (frame : List Byte) (unc : Bool) (back ago : Nat) (s : State) : State :=
  s.takeClientFrame c frame (unc || s.codewordsBad c ((s.lane c).cws - 1 - back) (back + 1)) ago

/-- PAUSE_FRAME_RECEIVED (R266). -/
def pauseFrameReceived (c p : Nat) (s : State) : State := if s.clientReceives c then s.pauseReceived c p else s

/-- PAUSE_TIMER_EXPIRY (R266): the timer has run out. -/
def pauseTimerExpiry (c : Nat) (s : State) : State := if s.on F.CH_MAC_STAT_PAUSED c && !s.pauseHolds c then s.pause c 0 else s

/-- CLIENT_FRAME_RECEIVED. -/
def execClientFrameReceived (c : Fin 64) (frame : List Byte) (mark : ClientMark) (s : State) : Outcome State Fault Refusal :=
  done s (clientFrameReceived c frame mark.uncorrectable mark.back mark.ago s)
/-- PAUSE_FRAME_RECEIVED. -/
def execPauseFrameReceived (c : Fin 64) (quanta : BitVec 16) (s : State) : Outcome State Fault Refusal :=
  done s (pauseFrameReceived c quanta.toNat s)
/-- PAUSE_TIMER_EXPIRY. -/
def execPauseTimerExpiry (c : Fin 64) (s : State) : Outcome State Fault Refusal := done s (pauseTimerExpiry c s)

end Sys2Proof.Machine
end

