-- ==== Sys2Proof/Machine/Lanes.lean ====
section
/-!
DEFINITION. The lane commands (02_lanes): signal, clock and marker lock, codewords, test patterns, injection and
eye measurements.
-/

namespace Sys2Proof.Machine

open Host (Outcome)

/-- FAW as a block payload, byte 0 in the low bits (R68, R71). -/
def fawPayload : Nat := ofLE (bytesBE 8 0xA74C1D93F05E6B28)

/-- In how many of their 64 bits two payloads differ. -/
def hamming64 (a b : Nat) : Nat := popCount 64 (a ^^^ b)

/-- Whether a payload matches FAW (R87). -/
def fawMatches (payload : Nat) : Bool := decide (hamming64 payload fawPayload ≤ 3)

/-- The first offset of a sweep of 340, from a start, at which all 80 sync headers are valid (R44, R45). -/
def sweep (stream start : Nat) : Option Nat :=
  ((List.range 340).map (fun i => (start + i) % 2720)).find? (fun o =>
    validHeaders (stream / 2 ^ (2 * o) % 2 ^ 5440) == 80)

/-- What a decoded codeword adds to the record since the last evaluation point (R95, R96). -/
def Seen.codeword (x : Seen) (unc : Bool) (bits : Nat) : Seen :=
  { x with unc := x.unc + (if unc then 1 else 0), errs := x.errs + (if unc then 90 else bits),
           bits := x.bits + 5440, errored := x.errored || unc }

/-- The decoder's counts for one codeword: CH_FEC_CORR, CH_FEC_UNCORR, and the record of the evaluation point. -/
def State.countCodeword (s : State) (l : Nat) (r : Option (List Nat × List (Nat × Nat))) : State :=
  match r with
  | none => (s.incP (laneFecUncorr l)).modFramer l (fun f => { f with seen := f.seen.codeword true 0 })
  | some (_, errs) =>
    let s := if errs = [] then s else s.incP (laneFecCorr l)
    s.modFramer l (fun f => { f with seen := f.seen.codeword false (correctedBits errs) })

/-- The blocks of a decoded codeword passed on to the framer (R43), and what is kept of it for the frames that lie in it. -/
def State.passCodeword (s : State) (l cw : Nat) (dec : Option (List Nat × List (Nat × Nat))) : State :=
  s.modLane l (fun x => { x with
    rx := (passOn x.scr cw dec).1, cws := x.cws + 1, unc := if dec.isSome then x.unc else x.unc ++ [x.cws] })

/-- A line tick begins at the framer of a lane: the codeword with its bridge, the last passed on, is codeword 0 of it. -/
def State.beginRxTick (s : State) (l : Nat) : State :=
  s.modLane l (fun x => { x with cws := 1, unc := if x.unc.contains (x.cws - 1) then [0] else [] })

/-- A codeword received under codeword lock: the header rule of R46, the decoder (R42, R43), stage 3 and its loss
(R44, R46), and the search for FAW while the framer hunts (R87). The fourth codeword of a run that ends codeword lock is not
decoded and so not counted: the spec does not say which comes first (DESIGN CHOICE, log entry 119). -/
def State.lockedCodeword (s : State) (l cw : Nat) : State :=
  let x := s.lane l
  let bad := if validHeaders cw < 78 then x.badHdr + 1 else 0
  if 4 ≤ bad then s.loseCodewordLock l
  else
    let s := s.setLane l { x with badHdr := bad }
    let dec := rsDecode 16 (cwSymbols cw)
    let s := (s.countCodeword l dec).passCodeword l cw dec
    let hunting := s.onP (laneFEC l) && s.rdP (tfAlign l) == alHunt && s.framed l
    let s := if hunting && fawMatches (descramble x.scr (cwPayload cw 0)).1 then
        (s.wrP (tfAlign l) alPresync).modFramer l (fun f => { f with pre := 0 })
      else s
    match dec with
    | none =>
      if 32 ≤ x.uncRun + 1 then s.loseCodewordLock l
      else s.modLane l (fun y => { y with uncRun := y.uncRun + 1, goodDec := 0 })
    | some _ =>
      let good := min 4 (x.goodDec + 1)
      let s := s.modLane l (fun y => { y with uncRun := 0, goodDec := good })
      if good = 4 && !s.onP (laneFEC l) then (s.wrP (laneFEC l) 1).framerHunt l else s

/-- One codeword time of continuous tree coding (R44, R45): 5,440 bits arrive; the hunter sweeps 340 offsets, or
confirms its candidate, or the locked receiver takes the codeword at its offset. -/
def State.treeCodeword (s : State) (l bits : Nat) : State :=
  let x := s.lane l
  let stream := x.prev + bits * 2 ^ 5440
  let view := stream / 2 ^ (2 * x.hunt) % 2 ^ 5440
  let s :=
    if !s.onP (laneCDR l) then s
    else if s.onP (laneCWL l) then s.lockedCodeword l view
    else match x.conf with
      | none => match sweep stream x.hunt with
        | none => s.setLane l { x with hunt := (x.hunt + 340) % 2720 }
        | some o => s.setLane l { x with hunt := o, conf := some 0 }
      | some n =>
        if validHeaders view < 78 then s.setLane l { x with hunt := (x.hunt + 1) % 2720, conf := none }
        else if n + 1 < 4 then s.setLane l { x with conf := some (n + 1) }
        else (s.gainCodewordLock l).setLane l { x with conf := none, badHdr := 0, goodDec := 0, uncRun := 0 }
  s.modLane l (fun y => { y with prev := bits, scr := scrAfter y.scr view })

/-- The blocks of a pair of client codewords passed on (R58, R59): the alignment markers of the first of an alignment-marker
period taken out, the rest descrambled and transcoded; every block marked 0b11 where either codeword was uncorrectable, as clause
119 has it (PRESUMED, log entry 112). -/
def clientPassOn (scr pair : Nat) (a b : Option (List Nat × List (Nat × Nat))) : List Block × Nat :=
  match a, b with
  | some a, some b =>
    let vs := (clientBlocks a.1 b.1).drop (if pair = 0 then 8 else 0)
    vs.foldl (fun (acc : List Block × Nat) v => let d := descramble257 acc.2 v; (acc.1 ++ transcoded d.1, d.2)) ([], scr)
  | _, _ => (List.replicate 160 (3, 0), scr)

/-- One codeword time of the client coding under marker lock (R58, R59): the 16 PCS lanes taken apart and deskewed; with every
second one a pair of RS(544,514) codewords decoded and counted, their blocks passed on, and stage 3 with the first pair that
decodes (log entry 31). -/
def State.clientCodeword (s : State) (c bits : Nat) : State :=
  if !s.onP (laneCWL c) then s
  else
    let x := s.lane c
    let hist := (bits :: x.pcs.hist).take 16
    let lanes := (List.range 16).map (fun i => deskewed hist i (x.pcs.delay.getD i 0))
    match x.pcs.half with
    | none => s.modLane c (fun x => { x with pcs := { x.pcs with hist, half := some lanes } })
    | some first =>
      let pair := List.zipWith (fun a b => a + b * 2 ^ 340) first lanes
      let a := rsDecode 30 (clientWord pair 0)
      let b := rsDecode 30 (clientWord pair 1)
      let out := clientPassOn x.pcs.scr x.pcs.pair a b
      let ok := a.isSome && b.isSome
      let s := (s.countCodeword c a).countCodeword c b
      let s := s.modLane c (fun x => { x with
        rx := out.1, cws := x.cws + 2, unc := (if ok then x.unc else x.unc ++ [x.cws, x.cws + 1]).filter (fun k => decide (x.cws < k + 64)),
        pcs := { x.pcs with hist, half := none, scr := out.2, pair := (x.pcs.pair + 1) % 4096 } })
      if ok then s.wrP (laneFEC c) 1 else s

/-- The bits of a codeword time after the receiver's polarity: inverting the PAM4 levels inverts the earlier bit of
each pair (R39, CH_LANE_CFG.RX_POL). -/
def State.polarised (s : State) (l bits : Nat) : Nat :=
  if s.onP (laneRxPol l) then bits ^^^ ((4 ^ 2720 - 1) / 3) else bits

/-- A codeword of a burst at a head end, whose boundary the delimiter fixes (R48): decoded and counted, the descrambler started
from the all-zero state at the first of the burst (R142). -/
def State.burstCodeword (s : State) (l cw : Nat) : State :=
  let dec := rsDecode 16 (cwSymbols cw)
  let s := s.countCodeword l dec
  let s := if (s.lane l).cws = 0 then s.modLane l (fun x => { x with scr := 0 }) else s
  (s.passCodeword l cw dec).modLane l (fun x => { x with scr := scrAfter x.scr cw })

/-! ### A lane under test (R62 to R66) -/

/-- Whether a lane may run the test facilities (R62, R417). -/
def State.testable (s : State) (l : Nat) : Bool :=
  if isSurok l then bit (s.rd F.TWN_LANES_OUT 0) (l - 64)
  else s.role l == roleOff && s.rd F.CH_LANE_STAT_PWR l == pwrOn

/-- The square wave of TST_PRBS_CFG as bits of one codeword time, from a symbol of it on (R63). -/
def squareBits (half from_ : Nat) : Nat :=
  ofBits ((List.range 2720).flatMap (fun i => if (from_ + i) / (half + 1) % 2 = 0 then [true, false] else [false, false]))

/-- What a lane under test transmits in one codeword time, as bits before the transmitter's polarity, and the lane behind it: the
generator's pattern (R63), which goes on where it stood; or tree coding of Idle
blocks with the injection that waits (R41, R65). -/
def State.testBits (s : State) (l : Nat) : Nat × State :=
  let x := s.lane l
  if s.on F.TST_PRBS_CFG_GEN_EN l then
    if s.rd F.TST_PRBS_CFG_GEN_PAT l = 2 then
      (squareBits (s.rd F.TST_PRBS_CFG_SQ_HALF l) x.tx.square, s.setLane l { x with tx := { x.tx with square := x.tx.square + 2720 } })
    else
      let r := prbsBits (s.rd F.TST_PRBS_CFG_GEN_PAT l) 5440 x.tx.gen
      (r.1, s.setLane l { x with tx := { x.tx with gen := r.2 } })
  else
    let r := encodeCodeword x.tx.scr (List.replicate 80 idleBlock)
    (x.tx.inj.foldl (fun w m => w ^^^ m.2) r.1, s.setLane l { x with tx := { x.tx with scr := r.2, inj := [] } })

/-- One codeword time of a lane under test (R66): what the line output carries, and the bits that the receiver takes in, which
near loopback takes from the own transmitter. The model lets the transmitter of such a lane run by its receiver's codeword times
(DESIGN CHOICE, log entry 124). -/
def State.testLoop (s : State) (l bits : Nat) : Nat × State :=
  let levels (b : Nat) : List Nat := invertLevels (s.txInverted l) (pam4Levels 2720 b)
  if s.on F.TST_LOOP_FAR l then (bits, s.emit (.symbols l (pam4Levels 2720 bits)))
  else if !s.on F.TST_LOOP_NEAR l && !s.on F.TST_PRBS_CFG_GEN_EN l then (bits, s)
  else
    let t := s.testBits l
    if !s.on F.TST_LOOP_NEAR l then (bits, t.2.emit (.symbols l (levels t.1)))
    else
      let sent := if s.txInverted l then t.1 ^^^ ((4 ^ 2720 - 1) / 3) else t.1
      (sent, t.2.emit (if s.on F.TST_LOOP_TX_IDLE_NEAR l then .idle l else .symbols l (levels t.1)))

/-- The received bits of one codeword time at the pattern checker (R63). -/
def State.checkPattern (s : State) (l bits : Nat) : State :=
  if s.on F.TST_PRBS_CFG_CHK_EN l && decide (s.rd F.TST_PRBS_CFG_CHK_PAT l < 2) then
    let r := (s.lane l).chk.bits (s.rd F.TST_PRBS_CFG_CHK_PAT l) (s.on F.TST_PRBS_STAT_CHK_LOCK l) 2720 bits
    ((s.modLane l (fun x => { x with chk := r.1 })).addN F.TST_PRBS_ERR l r.2.2).wrB F.TST_PRBS_STAT_CHK_LOCK l r.2.1
  else s

/-- CODEWORD_RECEIVED (R43): one codeword time of a powered receiver. In head-end role the codewords are those of a burst (R47). -/
def codewordReceived (l bits : Nat) (s : State) : State :=
  if !s.rxPowered l then s
  else
    let r := s.laneRole l
    if r = roleHead then s.burstCodeword l (s.polarised l bits)
    else if r = roleClient then s.clientCodeword l (s.polarised l bits)
    else if s.testable l then
      let t := s.testLoop l bits
      (t.2.checkPattern l (s.polarised l t.1)).treeCodeword l (s.polarised l t.1)
    else s.treeCodeword l (s.polarised l bits)

def execCodewordReceived (l : Fin 72) (bits : BitVec 5440) (s : State) : Outcome State Fault Refusal :=
  done s (codewordReceived l bits.toNat s)

/-- SIGNAL_DETECT (R44): stage 0, on a powered receiver. In head-end role the stage bits read 0 (R47). -/
def execSignalDetect (l : Fin 72) (s : State) : Outcome State Fault Refusal :=
  done s (if s.rxPowered l && s.laneRole l != roleHead then s.gainSignal l else s)

/-- LOSS_OF_SIGNAL (R46). -/
def execLossOfSignal (l : Fin 72) (s : State) : Outcome State Fault Refusal := done s (s.loseSignal l)

/-- CDR_LOCK (R44): stage 1, once stage 0 holds. -/
def execCdrLock (l : Fin 72) (s : State) : Outcome State Fault Refusal :=
  done s (if s.rxPowered l && s.onP (laneSIG l) && s.laneRole l != roleHead then s.wrP (laneCDR l) 1 else s)

/-- CDR_LOCK_LOSS (R46): stages 1 to 3 drop. -/
def execCdrLockLoss (l : Fin 72) (s : State) : Outcome State Fault Refusal :=
  done s ((((s.loseCodewordLock l).dropCandidate l).wrP (laneCDR l) 0).modFramer l
    (fun f => { f with seen := { f.seen with noCwl := true } }))

/-- The skew of PCS lanes that the engine tolerates, in bits of a PCS lane: 180 ns at 26.5625 Gb/s (R58). -/
def skewBits : Nat := 4781

/-- The PCS lanes deskewed (R58): each is delayed to the one that arrives last; a pair of codewords begins. -/
def State.deskewLanes (s : State) (c : Nat) (arrival : List Nat) : State :=
  let last := arrival.foldl max 0
  s.modLane c (fun x => { x with pcs := { x.pcs with delay := arrival.map (fun a => last - a), half := none, pair := 0 } })

/-- ALIGNMENT_MARKER_LOCK (R58, R445): stage 2 of a client receiver, where no two PCS lanes are more than 180 ns apart. -/
def alignmentMarkerLock (c : Nat) (arrival : List Nat) (s : State) : State :=
  if s.role c == roleClient && s.onP (laneCDR c) &&
      decide (arrival.foldl max 0 ≤ arrival.foldl min (arrival.headD 0) + skewBits) then
    (s.gainCodewordLock c).deskewLanes c arrival
  else s

/-- ALIGNMENT_MARKER_LOCK. -/
def execAlignmentMarkerLock (a : LockedLanes) (s : State) : Outcome State Fault Refusal :=
  done s (alignmentMarkerLock a.channel a.arrival s)

/-- ALIGNMENT_MARKER_LOCK_LOSS (R445): stages 2 and 3 of a client receiver drop and LOCK_LOSS counts. -/
def execAlignmentMarkerLockLoss (c : Fin 64) (s : State) : Outcome State Fault Refusal :=
  done s (if s.role c == roleClient then s.loseCodewordLock c else s)

/-- LANE_PLL_SETTLED (R61): PWR leaves EXITING. -/
def execLanePllSettled (l : Fin 72) (s : State) : Outcome State Fault Refusal :=
  done s (if s.rdP (lanePWR l) = pwrExiting then s.wrP (lanePWR l) pwrOn else s)

/-- PRBS_CHECKER_LOCK (R63): an enabled checker with a pattern it accepts has seen 1,024 symbols in a row without error, where the
received bits do not come to it by CODEWORD_RECEIVED (log entry 124). -/
def execPrbsCheckerLock (l : Fin 72) (s : State) : Outcome State Fault Refusal :=
  done s (if s.on F.TST_PRBS_CFG_CHK_EN l && decide (s.rd F.TST_PRBS_CFG_CHK_PAT l < 2)
    then s.wr F.TST_PRBS_STAT_CHK_LOCK l 1 else s)

/-- PRBS_CHECKER_LOSS (R63): the checker loses lock; the bit errors it met while locked have been counted. -/
def execPrbsCheckerLoss (l : Fin 72) (errs : Nat) (s : State) : Outcome State Fault Refusal :=
  done s (if s.on F.TST_PRBS_STAT_CHK_LOCK l
    then (s.addN F.TST_PRBS_ERR l errs).wr F.TST_PRBS_STAT_CHK_LOCK l 0 else s)

/-- The bits that the injector of a lane inverts, by its settings (R65). -/
def State.injection (s : State) (l : Nat) : Nat :=
  injectMask (s.rd F.TST_INJ_MODE l) (s.rd F.TST_INJ_BURST_LEN l) (s.rd F.TST_INJ_SYM_OFS l) (s.rd F.TST_INJ_BIT l)
    Config.wholeCodewordPattern.toNat

/-- The codewords that a continuously sending lane has sent by now: one in 12.8 ns, which is 25.6 device cycles. -/
def State.sentCodewords (s : State) : Nat := s.pegs.cyc * 10 / 256

/-- Where a lane's next codeword lies in the line tick that it has on the line, whose block 0 it launched at a device cycle; 0 of a
lane that sends no line ticks. -/
def State.nextInTick (s : State) (l : Nat) : Nat :=
  let at_ (launched : Nat) : Nat := (s.pegs.cyc - launched) * 10 / 256 + 1
  if isSurok l then (if (s.lane l).tx.blocks = 0 then 0 else at_ (s.lane l).tx.launched)
  else match (tget (fun _ => Tree.reset) s.trees l).line with
    | some (_, launched, _) => if s.role l = roleHead then at_ launched else 0
    | none => 0

/-- An injection into the next codeword that a lane sends (R65). -/
def State.injectNext (s : State) (l : Nat) : State :=
  (s.modLane l (fun x => { x with tx := { x.tx with inj := x.tx.inj ++ [(s.nextInTick l, s.injection l)] } })).emit
    (.inject l (s.injection l))

/-- TST_INJ.FIRE (R65): one injection into the next codeword sent; a terminal's waits for its next burst. Ignored
while CONT is 1. -/
def State.fire (s : State) (l : Nat) : State :=
  if s.on F.TST_INJ_CONT l then s
  else if s.laneRole l = roleTerm && !isSurok l then s.modLane l (fun x => { x with inj := true })
  else s.injectNext l

/-- The lane that a requester's TST accesses reach: the Surok lane of TST_TARGET, or channel CHSEL.CH (R417). -/
def State.tstLane (s : State) (req : Nat) : Nat :=
  if s.on F.TST_TARGET_SUROK req then 64 + s.rd F.TST_TARGET_LANE req else s.rd F.CHSEL_CH req

/-- The lanes that a requester's TST write reaches, under broadcast (R38, R417). -/
def State.tstLanes (s : State) (req : Nat) : List Nat :=
  if s.on F.TST_TARGET_SUROK req then [64 + s.rd F.TST_TARGET_LANE req]
  else
    let c := s.rd F.CHSEL_CH req
    match s.rd F.CHSEL_BCAST req with
    | 1 => (List.range 8).map (fun i => 8 * octOf c + i)
    | 2 => List.range 64
    | _ => [c]

/-- FIRE, for the lanes that the requester's selects name. -/
def execFire (req : Fin 19) (s : State) : Outcome State Fault Refusal :=
  doneWrite req s (((s.tstLanes req).foldl State.fire s).foldWrites req 0xD010C (s.tstLanes req))

/-- Whether the turn of a continuous injection has come by a codeword (R65): the first one sent since CONT was set, then the one
PERIOD + 1 codewords after the last that was hit. -/
def State.injectionDue (s : State) (l next : Nat) : Bool :=
  match (s.lane l).tx.last with
  | none => true
  | some k => decide (k + s.rd F.TST_INJ_PERIOD l + 1 ≤ next)

/-- CONTINUOUS_INJECTION (R65): with CONT at 1, the codeword whose turn it is gets the injection. The codewords of a lane that
sends without end are counted by the device clock; a terminal sends none outside its bursts, whose own injections BURST_LAUNCH
counts (log entry 124). -/
def continuousInjection (l : Nat) (s : State) : State :=
  let next := s.sentCodewords + 1
  if s.on F.TST_INJ_CONT l && (s.laneRole l != roleTerm || isSurok l) && s.injectionDue l next then
    (s.injectNext l).modLane l (fun x => { x with tx := { x.tx with last := some next } })
  else s

def execContinuousInjection (l : Fin 72) (s : State) : Outcome State Fault Refusal := done s (continuousInjection l s)

/-- TST_EYE_SCAN.START on one lane (R62, R67). -/
def State.eyeScanStart (s : State) (l : Nat) : State :=
  if s.testable l then
    ((s.modLane l (fun x => { x with scan := true })).wr F.TST_EYE_SCAN_DONE l 0).wr F.TST_PRBS_STAT_REFUSED l 0
  else s.wr F.TST_PRBS_STAT_REFUSED l 1

/-- EYE_SCAN_START, for the lanes that the requester's selects name. -/
def execEyeScanStart (req : Fin 19) (s : State) : Outcome State Fault Refusal :=
  doneWrite req s (((s.tstLanes req).foldl State.eyeScanStart s).foldWrites req 0xD0114
    ((s.tstLanes req).filter s.testable))

/-- EYE_SCAN_DONE (R67): the errors counted over 2^20 symbols, saturating. -/
def execEyeScanDone (l : Fin 72) (errs : Nat) (s : State) : Outcome State Fault Refusal :=
  done s (if (s.lane l).scan then
      ((s.wr F.TST_EYE_SCAN_ERRORS l (min errs 65535)).wr F.TST_EYE_SCAN_DONE l 1).modLane l
        (fun x => { x with scan := false })
    else s)

/-- EYE_MARGIN_MEASURE (R67): the smallest margins, where the receiver is locked, which is read as stage 3 (DEDUCED, log entry
120); in head-end role across bursts. -/
def execEyeMarginMeasure (l : Fin 72) (v h : Byte) (s : State) : Outcome State Fault Refusal :=
  done s (if s.onP (laneFEC l) || s.laneRole l = roleHead then
      if isSurok l then
        (s.wr (F.TWN_L_EYE_MARGIN_V (l - 64)) 0 v.toNat).wr (F.TWN_L_EYE_MARGIN_H (l - 64)) 0 h.toNat
      else (s.wr F.CH_EYE_MARGIN_V l v.toNat).wr F.CH_EYE_MARGIN_H l h.toNat
    else s)

/-- The level of BURST_EN outside the bursts of a terminal (R49): asserted in head-end and client roles and under loopback,
but not with the transmitter at electrical idle nor in the lane power states RXONLY and DEEP. A terminal asserts it around each
burst (Out.burstEn). -/
def State.burstEn (s : State) (c : Nat) : Bool :=
  (s.role c == roleHead || s.role c == roleClient || s.on F.TST_LOOP_FAR c) && !s.txIdle c &&
    s.rd F.CH_LANE_STAT_PWR c != pwrRxOnly && s.rd F.CH_LANE_STAT_PWR c != pwrDeep

/-- The bits of a TST register that enable a facility: GEN_EN and CHK_EN, NEAR and FAR, START. -/
def tstEnableBits (off : Nat) : Nat :=
  if off = 0xD0100 then 2 ^ F.TST_PRBS_CFG_GEN_EN.lo + 2 ^ F.TST_PRBS_CFG_CHK_EN.lo
  else if off = 0xD0110 then 2 ^ F.TST_LOOP_NEAR.lo + 2 ^ F.TST_LOOP_FAR.lo
  else 2 ^ F.TST_EYE_SCAN_START.lo

/-- Whether a write of some bits of a TST register would enable a facility: one of its enables is written 1 (R5, R62). -/
def tstEnables (off : Nat) (w : Word) (m : Nat) : Bool := w.toNat &&& tstEnableBits off &&& m != 0

/-- Whether a write of it on a lane is refused (R62, R66): it would enable a facility on a lane that may not run it, or set
both loopbacks. -/
def State.tstRefused (s : State) (l off : Nat) (w : Word) (m : Nat) : Bool :=
  tstEnables off w m && ((off == 0xD0110 && getF w F.TST_LOOP_NEAR != 0 && getF w F.TST_LOOP_FAR != 0) || !s.testable l)

/-- A write of the bits m of a TST register that holds an enable, on one lane, w what the register is then to hold (R62,
R66). -/
def State.tstWrite (s : State) (l off : Nat) (w : Word) (m : Nat) : State :=
  let enables := tstEnables off w m
  if s.tstRefused l off w m then s.wr F.TST_PRBS_STAT_REFUSED l 1
  else
    let s := if enables then s.wr F.TST_PRBS_STAT_REFUSED l 0 else s
    if off = 0xD0114 then
      let s := (s.wr F.TST_EYE_SCAN_V_OFS l (getF w F.TST_EYE_SCAN_V_OFS)).wr F.TST_EYE_SCAN_H_OFS l
        (getF w F.TST_EYE_SCAN_H_OFS)
      if enables then s.eyeScanStart l else s
    else
      let s := s.setReg l off w
      if off = 0xD0100 && getF w F.TST_PRBS_CFG_CHK_EN = 0 then
        (s.wr F.TST_PRBS_STAT_CHK_LOCK l 0).modLane l (fun x => { x with chk := .reset })
      else s

end Sys2Proof.Machine
end

