-- ==== Sys2Proof/Machine/Pegs.lean ====
section
/-!
DEFINITION. The peg commands (09_pegs): captures, sets and steps, firmware samples, holdover, temperature readings,
1PPS, time of day and the reference clocks.
-/

namespace Sys2Proof.Machine

open Host (Outcome)

/-- CAPTURE (R241): the selected peg and peg 0 in one device cycle, into the requester's registers. -/
def State.capture (s : State) (req : Nat) : State :=
  let t := s.pegTime (s.rd F.PEGSEL req)
  let t0 := s.pegTime 0
  let s := (((s.wr F.PEG_CAP_SL req (pegSec t)).wr F.PEG_CAP_SH req (pegSec t / 2 ^ 32)).wr F.PEG_CAP_NS req
    (pegNs t)).wr F.PEG_CAP_FR req (pegFrac t)
  (((s.wr F.PEG_CAP0_SL req (pegSec t0)).wr F.PEG_CAP0_SH req (pegSec t0 / 2 ^ 32)).wr F.PEG_CAP0_NS req
    (pegNs t0)).wr F.PEG_CAP0_FR req (pegFrac t0)

/-- The requester's PEG_SET value as a time (R240). -/
def State.pegSetTime (s : State) (req : Nat) : Nat :=
  (s.rd F.PEG_SET_SH req * 2 ^ 32 + s.rd F.PEG_SET_SL req) * unitSec + s.rd F.PEG_SET_NS req * unitNs

/-- The requester's PEG_SET value as a step: two's-complement seconds plus nanoseconds (R240). -/
def State.pegSetStep (s : State) (req : Nat) : Int :=
  let sec : Nat := s.rd F.PEG_SET_SH req * 2 ^ 32 + s.rd F.PEG_SET_SL req
  let sec : Int := if sec < 2 ^ 47 then (sec : Int) else (sec : Int) - 2 ^ 48
  sec * (unitSec : Int) + ((s.rd F.PEG_SET_NS req * unitNs : Nat) : Int)

/-- A write of PEG_CTL (R240, R241): SET and STEP together request neither; CAPTURE still acts. -/
def State.pegCtl (s : State) (req : Nat) (cap set step : Bool) : State :=
  let s := if cap then s.capture req else s
  let p := s.rd F.PEGSEL req
  if set && !step then s.requestPeg p (.set (s.pegSetTime req))
  else if step && !set then s.requestPeg p (.step (s.pegSetStep req))
  else s

def execCapture (req : Fin 19) (s : State) : Outcome State Fault Refusal := doneWrite req s (s.pegCtl req true false false)
def execSet (req : Fin 19) (s : State) : Outcome State Fault Refusal := doneWrite req s (s.pegCtl req false true false)
def execStep (req : Fin 19) (s : State) : Outcome State Fault Refusal := doneWrite req s (s.pegCtl req false false true)

/-- A firmware sample delivered to a servo whose source is FW (R244). -/
def State.fwSample (s : State) (p : Nat) : State :=
  if s.source p = srcFw then
    let v : Nat := s.rd F.PEG_SRV_FWOFS_HI p * 2 ^ 32 + s.rd F.PEG_SRV_FWOFS_LO p
    s.giveSample p (if v < 2 ^ 63 then (v : Int) else (v : Int) - 2 ^ 64)
  else s

/-- HOLDOVER_TIMEOUT (R246): no sample for TIMEOUT core ticks in ACQUIRE or LOCKED. The rate is then −integ_ppb,
held; it takes effect at the next boundary (R238). -/
def holdoverTimeout (p : Nat) (s : State) : State :=
  let st := s.rd F.PEG_SRV_STAT_STATE p
  let x := s.servoOf p
  if s.source p != 0 && (st == svAcquire || st == svLocked) && decide (s.rd F.PEG_SRV_TMO p ≤ x.age) then
    (s.setServo p { x with next := some (ratOfPpb (-x.integ)) }).servoState p svHoldover
  else s

def execHoldoverTimeout (p : Fin 16) (s : State) : Outcome State Fault Refusal := done s (holdoverTimeout p s)

/-- STAMP_TEMP_READ (R248): the junction temperature of an octant, used until the next reading. -/
def execStampTempRead (o : Fin 8) (t : Int) (s : State) : Outcome State Fault Refusal :=
  done s { s with pegs := { s.pegs with temp := tput (fun _ => 85) s.pegs.temp o t } }

def State.ppsIn (s : State) (i : Nat) : PpsIn := tget (fun _ => PpsIn.reset) s.pegs.ppsIn i
def State.setPpsIn (s : State) (i : Nat) (x : PpsIn) : State :=
  { s with pegs := { s.pegs with ppsIn := tput (fun _ => PpsIn.reset) s.pegs.ppsIn i x } }

/-- 0.9 s in device cycles. -/
def cycles900ms : Nat := 1800000000

/-- The offset of an instant from its nearest whole second, in 1/16 ns, wrapped to ±0.5 s. -/
def fromSecond (t : Int) : Int := (t + 8 * 10 ^ 9) % (16 * 10 ^ 9) - 8 * 10 ^ 9

/-- PPS_EDGE (R257): an accepted edge that its input lets act (R419, R420), whose first transition lies `back` sixteenths of a
nanosecond in the past (R418), is stamped in the input's peg and given to the servo unless it comes too soon. -/
def ppsEdge (i back : Nat) (s : State) : State :=
  if !s.edgeWaits (16 + i) then s
  else if !s.on (F.PEG_PPSIN_CFG_EN i) 0 then s.edgeTaken (16 + i)
  else
    let s := s.edgeTaken (16 + i)
    let p := s.rd (F.PEG_PPSIN_CFG_PEG i) 0
    let x := s.ppsIn i
    let e : Int := ((s.pegTime p / unit16 : Nat) : Int) - back - 16 * s.rdInt (F.PEG_PPSIN_DLY i) 0
    let ns := e.toNat / 16
    let s := ((s.wr (F.PEG_PPSIN_EDGE_SL i) 0 (ns / 10 ^ 9)).wr (F.PEG_PPSIN_EDGE_SH i) 0 (ns / 10 ^ 9 / 2 ^ 32)).wr
      (F.PEG_PPSIN_EDGE_NS i) 0 (ns % 10 ^ 9)
    let lost := s.on (F.PEG_PPSIN_STAT i) 0
    let s := s.wr (F.PEG_PPSIN_STAT i) 0 0
    let soon := match x.given with
      | none => false
      | some g => !lost && decide (s.pegs.cyc - g < cycles900ms)
    let edges := (s.pegs.cyc, e.toNat) :: x.edges.filter (fun y => decide (s.pegs.cyc < y.1 + 2 * 10 ^ 9))
    if soon then (s.setPpsIn i { x with last := s.pegs.cyc, edges }).inc (F.PEG_PPSIN_EXTRA i) 0
    else
      let s := s.setPpsIn i { last := s.pegs.cyc, given := some s.pegs.cyc, edges }
      if s.source p = srcPps && s.rd F.PEG_SRV_CFG_SRC_IDX p = i then s.giveSample p (fromSecond e) else s

def execPpsEdge (i : Fin 2) (back : Nat) (s : State) : Outcome State Fault Refusal := done s (ppsEdge i back s)

/-- PPS_LOST (R257): no accepted edge for 125,000 ticks, 2 s, since the last one or since the input was enabled. -/
def ppsLost (i : Nat) (s : State) : State :=
  if !s.on (F.PEG_PPSIN_CFG_EN i) 0 || s.on (F.PEG_PPSIN_STAT i) 0 || decide (s.pegs.cyc < (s.ppsIn i).last + 4 * 10 ^ 9) then s
  else ((s.wr (F.PEG_PPSIN_STAT i) 0 1).log 0x0303 engineReq i []).raise 11 i

def execPpsLost (i : Fin 2) (s : State) : Outcome State Fault Refusal := done s (ppsLost i s)

/-- What a 1PPS output's peg shows LAT from now, less OFS, in 1/16 ns: a whole second where its edge is due (R258). -/
def State.ppsPhase (s : State) (o : Nat) : Int :=
  let ofs := if s.rd (F.PEG_PPSOUT_OFS o) 0 < 10 ^ 9 then s.rd (F.PEG_PPSOUT_OFS o) 0 else 0
  ((s.pegTime (s.rd (F.PEG_PPSOUT_CFG_PEG o) 0) / unit16 + s.rd (F.PEG_PPSOUT_CAL o) 0 : Nat) : Int) - ((16 * ofs : Nat) : Int)

/-- Whether that is a whole second within ±2 ns. -/
def State.ppsDue (s : State) (o : Nat) : Bool := decide ((s.ppsPhase o + 32) % (16 * 10 ^ 9) ≤ 64)

/-- PPS_OUTPUT_EDGE (R258): the output asserts at the whole second plus OFS of its peg, LAT ahead, unless squelched;
the second is kept for the ToD message (R259). -/
def ppsOutputEdge (o : Nat) (s : State) : State :=
  if !s.on (F.PEG_PPSOUT_CFG_EN o) 0 || s.squelched o || !s.ppsDue o then s
  else
    (s.setPpsOut o { high := true, sec := ((s.ppsPhase o + 32) / (16 * 10 ^ 9)).toNat, edge := some s.pegs.cyc, told := false }).ppsDrive
      o true

def execPpsOutputEdge (o : Fin 2) (s : State) : Outcome State Fault Refusal := done s (ppsOutputEdge o s)

/-- The device cycle at which a 1PPS output's pulse ends: WIDTH_US µs, at most 999,999, after its edge. -/
def State.ppsEnd (s : State) (o : Nat) : Nat := ((s.ppsOut o).edge.getD 0) + 2000 * min 999999 (s.rd (F.PEG_PPSOUT_CFG_WIDTH_US o) 0)

/-- PPS_OUTPUT_PULSE_END (R258): the output deasserts. -/
def ppsOutputPulseEnd (o : Nat) (s : State) : State :=
  if (s.ppsOut o).high && decide (s.ppsEnd o ≤ s.pegs.cyc) then s.ppsDrive o false else s

/-- PPS_OUTPUT_PULSE_END. -/
def execPpsOutputPulseEnd (o : Fin 2) (s : State) : Outcome State Fault Refusal := done s (ppsOutputPulseEnd o s)

/-- The ToD message that names a second (Table: ToD message). -/
def State.todMessage (s : State) (o sec : Nat) : List Byte :=
  let p := s.rd (F.PEG_PPSOUT_CFG_PEG o) 0
  let flags := (if s.pegLocked p then 1 else 0) +
    (if s.rd F.PEG_SRV_STAT_STATE p = svHoldover then 2 else 0) + 4 * s.rd F.PEG_TOD_OUT_LEAP 0
  let m := toBytes ([0x4C, 0x59, 0x01, 16] ++ bytesBE 6 sec ++ [flags, s.rd F.PEG_TOD_OUT_DOMAIN 0] ++
    bytesBE 2 (s.rd F.PEG_TOD_OUT_UTC_OFS 0))
  m ++ toBytes (bytesBE 2 (crc16 m))

/-- Whether a ToD message is due (R259): OUT_DLY ms, at least 1, after the last edge of the output that PPSOUT names, once. -/
def State.todDue (s : State) : Bool :=
  let x := s.ppsOut (s.rd F.PEG_TOD_CFG_PPSOUT 0)
  s.on F.PEG_TOD_CFG_OUT_EN 0 && !x.told &&
    (match x.edge with | none => false | some e => decide (e + 2000000 * max 1 (s.rd F.PEG_TOD_CFG_OUT_DLY 0) ≤ s.pegs.cyc))

/-- The bits per second that BAUD selects. -/
def State.todBaud (s : State) : Nat := [9600, 38400, 115200, 460800].getD (s.rd F.PEG_TOD_CFG_BAUD 0) 115200

/-- TOD_OUT_SEND (R259): the message of the last edge of the output that PPSOUT names. -/
def todOutSend (s : State) : State :=
  if s.todDue then
    let o := s.rd F.PEG_TOD_CFG_PPSOUT 0
    (s.setPpsOut o { s.ppsOut o with told := true }).emit (.tod s.todBaud (s.todMessage o (s.ppsOut o).sec))
  else s

def execTodOutSend (s : State) : Outcome State Fault Refusal := done s (todOutSend s)

/-- Whether a ToD message is valid: SYNC, TYPE, LEN and CRC (R259). -/
def todValid (m : List Byte) : Bool :=
  m.length == 16 && byteAt m 0 == 0x4C && byteAt m 1 == 0x59 && byteAt m 2 == 1 && byteAt m 3 == 16 &&
    fieldBE m 14 2 == crc16 (m.take 14)

/-- The accepted edge with which a message is associated whose first start bit came at a device cycle (R259): 1 ms to 500 ms
before it, of several the latest (DESIGN CHOICE, log entry 132). -/
def PpsIn.todEdge (x : PpsIn) (start : Nat) : Option (Nat × Nat) :=
  x.edges.find? (fun e => decide (e.1 + 2000000 ≤ start) && decide (start ≤ e.1 + 1000000000))

/-- The input's peg stepped by whole seconds where its SOURCE is PPS on that input (R260). -/
def State.todStep (s : State) (i sec mine : Nat) : State :=
  let p := s.rd (F.PEG_PPSIN_CFG_PEG i) 0
  if s.rd F.PEG_SRV_CFG_SOURCE p = srcPps && s.rd F.PEG_SRV_CFG_SRC_IDX p == i && sec != mine then
    (s.requestPeg p (.step (((sec : Int) - (mine : Int)) * (unitSec : Int)))).inc F.PEG_TOD_STEPS 0
  else s

/-- TOD_MESSAGE_RECEIVED (R259, R260): `ago` device cycles lie between the first start bit and now. -/
def todReceived (m : List Byte) (ago : Nat) (s : State) : State :=
  if !s.on F.PEG_TOD_CFG_IN_EN 0 then s
  else if !todValid m then s.inc F.PEG_TOD_ERR 0
  else
    let s := (List.range 4).foldl (fun s k => s.wr (F.PEG_TOD_IN k) 0 (fieldLE m (4 * k) 4)) s
    let i := s.rd F.PEG_TOD_CFG_PPSIN 0
    let x := s.ppsIn i
    let edge := x.todEdge (s.pegs.cyc - ago)
    let s := ((s.wr F.PEG_TOD_STAT_NEW 0 1).wrB F.PEG_TOD_STAT_ASSOC 0 edge.isSome).raise 11 i
    match edge with
    | none => s
    | some e => if s.on F.PEG_TOD_CFG_AUTO 0 then s.todStep i (fieldBE m 4 6) ((e.2 + 8 * 10 ^ 9) / (16 * 10 ^ 9)) else s

def execTodMessageReceived (m : List Byte) (ago : Nat) (s : State) : Outcome State Fault Refusal :=
  done s (todReceived m ago s)

/-- The input that the device PLL selects (R261): 0 A, 1 B, 2 HOLD. -/
def refSelect (prefer cur : Nat) (revert aOk bOk : Bool) : Nat :=
  let ok (x : Nat) := if x = 0 then aOk else bOk
  let other := 1 - prefer
  if ok prefer && !(cur == other && ok other && !revert) then prefer
  else if ok other then other else 2

/-- Whether a reference input is qualified (R261): its edges are there, and it is within ±30 ppm of a qualified 10 MHz input where
USE10 asks for that. -/
def State.refOk (s : State) (x : RefIn) : Bool :=
  x.present && (!s.pegs.refs.ten || !s.on F.PEG_REF_CFG_USE10 0 || decide (x.ppb.natAbs ≤ 30000))

/-- The qualification of the inputs shown, and the PLL's selection: a switch counts and writes an entry (R261). -/
def State.refEval (s : State) : State :=
  let aOk := s.refOk s.pegs.refs.a
  let bOk := s.refOk s.pegs.refs.b
  let s := ((s.wrB F.PEG_REF_STAT_A_OK 0 aOk).wrB F.PEG_REF_STAT_B_OK 0 bOk).wrB F.PEG_REF_STAT_R10_OK 0 s.pegs.refs.ten
  let cur := s.rd F.PEG_REF_STAT_SEL 0
  let sel := refSelect (s.rd F.PEG_REF_CFG_PREFER 0) cur (s.on F.PEG_REF_CFG_REVERT 0) aOk bOk
  let s := s.wr F.PEG_REF_STAT_SEL 0 sel
  if sel = cur || sel = 2 then s else (s.inc F.PEG_REF_SW 0).log 0x0304 engineReq 0 [sel]

/-- REFERENCE_SWITCH (R261): the inputs as they now are. -/
def referenceSwitch (a b : RefIn) (r10 : Bool) (s : State) : State :=
  { s with pegs := { s.pegs with refs := { a, b, ten := r10 } } }.refEval

/-- What a commit of the device scope does to the timing inputs: a 1PPS input newly enabled has no edges (R257), and changed reference
controls select anew (R261). -/
def State.timingCommit (s old : State) : State :=
  let s := [0, 1].foldl (fun s i =>
    if s.on (F.PEG_PPSIN_CFG_EN i) 0 && !old.on (F.PEG_PPSIN_CFG_EN i) 0 then s.setPpsIn i { PpsIn.reset with last := s.pegs.cyc } else s) s
  if s.reg 0 F.PEG_REF_CFG_USE10.off = old.reg 0 F.PEG_REF_CFG_USE10.off then s else s.refEval

/-- REFERENCE_SWITCH. -/
def execReferenceSwitch (a b : RefIn) (r10 : Bool) (s : State) : Outcome State Fault Refusal :=
  done s (referenceSwitch a b r10 s)

/-- POP (R255): the oldest stamp record of the requester's channel removed. -/
def State.stqPop (s : State) (c : Nat) : State := s.setStq c ((s.stqOf c).drop 1)

end Sys2Proof.Machine
end

