-- ==== Sys2Proof/Machine/Bursts.lean ====
section
/-!
DEFINITION. A tree's receiving side: bursts at a head end (R112, R113, R123, R144, R149, R346), and frames on a tree at
both ends (R86, R371).
-/

namespace Sys2Proof.Machine
open Host (Outcome)

/-! ### Delimiters (R48, R112, R346) -/

/-- TWN_SOFS.OFS in 1/16 block. -/
def State.sofs16 (s : State) (c : Nat) : Int := 16 * s.rdInt (F.TWN_SOFS_OFS c) 0

/-- The range in which a head end looks for the delimiter of an entry, in 1/16 block about the position that it
expects. -/
def State.searchRange (s : State) (c : Nat) (e : MapEnt) : Int × Int :=
  if !s.pairActive c then
    if s.on (F.TWN_SOFS_LOCK c) 0 then (-256, 256) else (-(16 * s.wDiff c : Nat), (16 * s.wDiff c : Nat))
  else if !e.isOpen then (-256, 256)
  else if e.classic then (-(16 * s.wDiff c : Nat), 256)
  else (-(256 * s.rd F.CH_TREE_CFG_TA_HALF c : Nat), (256 * s.rd F.CH_TREE_CFG_TA_HALF c : Nat))

/-- Where a head end expects the delimiter of an entry, in 1/16 block after t_m: upstream line tick m begins DEPTH blocks after it
(R100, R112), and a standby adds its offset (R346). -/
def State.expectedAt (s : State) (c : Nat) (e : MapEnt) : Int :=
  16 * ((s.depth c + 16 * e.start + 192 : Nat) : Int) + (if s.pairActive c then 0 else s.sofs16 c)

/-- Whether an offset from the expected position, in 1/16 block, lies in the range of an entry. -/
def State.inRange (s : State) (c : Nat) (e : MapEnt) (v : Int) : Bool :=
  let r := s.searchRange c e
  decide (r.1 ≤ v) && decide (v ≤ r.2)

/-- The offset of the matched delimiter from the position expected, in 1/16 block, where one is matched in the range (R112,
R141). -/
def State.matchedAt (s : State) (c : Nat) (e : MapEnt) (d : Delim) : Option Int :=
  match d with
  | .missing => none
  | .found pos => let v := pos - s.expectedAt c e; if s.inRange c e v then some v else none
  | .bits pos bs =>
    let v (o : Nat) : Int := pos + roundDiv (16 * o) 66 - s.expectedAt c e
    (delimiterAt bs ((List.range (bs.length - 1055)).filter (fun o => s.inRange c e (v o)))).map v

/-! ### The burst header (R142 to R144) -/

/-- The first payload codeword of a burst read: whether it decoded, the burst header and the message slot. -/
structure HeadRead where
  decoded : Bool
  header : List Byte
  message : List Byte
  deriving DecidableEq, Repr

/-- The first payload codeword read: corrected, descrambled from the all-zero state (R142), its blocks 0 to 3 data blocks with the
header and blocks 4 to 11 the message slot (R143). -/
def State.readHead (s : State) (c : Nat) (h : BurstHead) : HeadRead :=
  match h with
  | .read decoded header message => { decoded, header, message }
  | .codeword bits =>
    let cw := s.polarised c bits.toNat
    let bs := (passOn 0 cw (rsDecode 16 (cwSymbols cw))).1
    { decoded := (bs.take 4).all (·.1 == 1), header := (bs.take 4).flatMap (fun b => payloadBytes b.2),
      message := ((bs.drop 4).take 8).flatMap (fun b => payloadBytes b.2) }

/-- Whether the header of a matched burst of upstream line tick u is valid. -/
def HeadRead.valid (h : HeadRead) (u : Nat) (e : MapEnt) : Bool :=
  h.decoded && fieldBE h.header 30 2 == crc16 (h.header.take 30) && byteAt h.header 0 / 8 == (if e.isOpen then 0 else e.tid) &&
    fieldBE h.header 4 4 == u

/-- The predictive estimate updated by a report of line tick m (R149). -/
def State.predict (s : State) (c t m demand : Nat) : State :=
  let x := s.treeTerm c t
  let since (p : Nat) : Nat := (m + 2 ^ 32 - p) % 2 ^ 32
  if x.prevM = some m then s
  else
    let p : Nat := match x.prevM with
      | none => 0
      | some pm =>
        if 64 < since pm then 0
        else
          let arrived : Int := 16 * ((demand : Int) - (x.prevDemand : Int)) + (x.recv : Int)
          let rate : Nat := arrived.toNat / since pm
          ((x.pBlk : Int) + ((rate : Int) - (x.pBlk : Int)).tdiv (2 ^ s.rd F.CH_GRANT_CFG_PRED_SHIFT c : Nat)).toNat
    (s.setTerm c t { x with pBlk := p, prevM := some m, prevDemand := demand, recv := 0 }).wr (F.CH_GRANT_R_PRED_CW t) c
      (min (s.rd (F.CH_GRANT_P_PRED_MAX t) c) (ceilDiv p 80))

/-- A report taken (R144, R145). -/
def State.takeReport (s : State) (c t m : Nat) (rpt : List Nat) : State :=
  let demand := min 65535 rpt.sum
  let s := s.wr (F.CH_GRANT_R_DEMAND t) c demand
  let s := (List.range 4).foldl (fun s k => (s.wr (F.CH_GRANT_CG_GRP_LO t k) c (rpt.getD (2 * k) 0)).wr
    (F.CH_GRANT_CG_GRP_HI t k) c (rpt.getD (2 * k + 1) 0)) s
  (s.modTerm c t (fun x => { x with lastRep := some m, old := 0 })).predict c t m demand

/-- What a valid header of a burst granted to a terminal gives (R144). -/
def State.takeHeader (s : State) (c t u : Nat) (h : List Byte) : State :=
  let s := s.srqReceive c t (some (fieldBE h 2 2))
  let s := s.evalRdiT c t (judge (bit (byteAt h 0) 2))
  let s := s.wr (F.CH_GRANT_R_BMQ t) c (byteAt h 1 % 32)
  if bit (byteAt h 0) 1 then s.takeReport c t u ((List.range 8).map (fun g => fieldBE h (8 + 2 * g) 2)) else s

/-- The drift of a terminal in H-OPERATE (R123). -/
def State.drift (s : State) (c t : Nat) (v : Int) : State :=
  if s.recState c t != hOperate then s
  else
    let sum := (s.treeTerm c t).dsum + v
    let n := s.rd (F.CH_TREC_DRIFT_N t) c + 1
    if n < 64 then (s.wr (F.CH_TREC_DRIFT_N t) c n).modTerm c t (fun x => { x with dsum := sum })
    else ((s.wr (F.CH_TREC_DRIFT_N t) c 0).wr (F.CH_TREC_DRIFT_MEAN t) c (codeInt 16 (satInt 16 (sum.tdiv 64)))).modTerm c t
      (fun x => { x with dsum := 0 })

/-- The standby reception offset (R346). -/
def State.standbyOffset (s : State) (c : Nat) (v : Int) : State :=
  if s.pairActive c then s
  else
    let sum := tget (fun _ => (0 : Int)) s.twin.sofs c + v
    let n := s.rd (F.TWN_SOFS_N c) 0 + 1
    let keep (x : Int) (s : State) : State := { s with twin := { s.twin with sofs := tput (fun _ => (0 : Int)) s.twin.sofs c x } }
    if n < 64 then keep sum (s.wr (F.TWN_SOFS_N c) 0 n)
    else
      let s := keep 0 (s.wr (F.TWN_SOFS_N c) 0 0)
      if sum.natAbs ≤ 4 * 16 * 64 then s.wr (F.TWN_SOFS_LOCK c) 0 1
      else (s.wr (F.TWN_SOFS_LOCK c) 0 0).wr (F.TWN_SOFS_OFS c) 0
        (codeInt 24 (satInt 24 (s.rdInt (F.TWN_SOFS_OFS c) 0 + roundDiv sum 1024)))

/-! ### Measurements (R113) -/

/-- The message of a burst put into the receive queue where its V says that it is one (R77). -/
def State.takeMessage (s : State) (c : Nat) (m : List Byte) : State := if bit (byteAt m 0) 7 then s.bmEnqueue c m else s

/-- The result of a window. -/
def State.measure (s : State) (c : Nat) (b : BurstRx) (message : List Byte) (e : MapEnt) (at_ : Option Int) (valid : Bool) : State :=
  let result := match at_ with | none => 1 | some _ => if valid then 0 else 2
  let s := if e.isOpen then s.addN F.CH_TUNE_MSTAT_EXTRA c b.extra else s
  if e.isOpen && at_.isNone then s
  else if 16 ≤ (s.tree c).meas.length then s.inc F.CH_TUNE_MSTAT_DROP c
  else
    let ofs := codeInt 23 (roundDiv (at_.getD 0) 16)
    let w0 : Nat := 2 ^ 31 + (if e.isOpen then 2 ^ 30 else 0) + result * 2 ^ 28 + (if e.isOpen then 0 else e.tid) * 2 ^ 23 + ofs
    let s := (s.modTree c (fun t => { t with meas := t.meas ++ [(BitVec.ofNat 32 w0, b.u)] })).showMeas c
    (if valid then s.takeMessage c message else s).raise 3 c

/-- The receiver's phase and baseline for a granted burst (R47): what is stored for its terminal is loaded, and after a good burst,
one whose delimiter matched and whose header is valid (DESIGN CHOICE, log entry 125), what it ended with is stored. -/
def State.restorePhase (s : State) (c : Nat) (b : BurstRx) (e : MapEnt) (good : Bool) : State :=
  if e.isOpen then s
  else
    let x := s.treeTerm c e.tid
    let s := s.emit (.restore c e.tid x.phase x.baseline)
    if good then s.modTerm c e.tid (fun x => { x with phase := b.phase, baseline := b.baseline }) else s

/-- A burst has ended: the next codeword is the first of another. -/
def State.endBurst (s : State) (c : Nat) : State := s.modLane c (fun x => { x with cws := 0, unc := [] })

/-- BURST_RECEIVED (R144), at the end of the burst: the entry of the map that granted it; RX_RESET is asserted in its window
(R51). -/
def State.receiveBurst (s : State) (c : Nat) (b : BurstRx) (e : MapEnt) : State :=
  let old := s.defWords c
  let s := s.emit (.rxReset c b.u.toNat e.start (s.rd F.CH_SB_CFG_RST_OFS c) (s.rd F.CH_SB_CFG_RST_LEN c))
  let at_ := s.matchedAt c e b.delim
  let h := s.readHead c b.head
  let valid := at_.isSome && h.valid b.u.toNat e
  let s := s.restorePhase c b e valid
  let s := if at_.isSome && !valid then s.inc F.CH_BH_ERR c else s
  let s := if e.isOpen then s
    else
      let s := s.modFramer c (fun f => { f with seen := { f.seen with granted := true, shown := f.seen.shown || b.signal } })
      let s := s.evalLob c e.tid (judge at_.isNone)
      let s := match at_ with
        | none => s
        | some v => (s.drift c e.tid v).modTerm c e.tid (fun x => { x with recv := x.recv + b.blocks })
      if valid then s.takeHeader c e.tid b.u.toNat h.header else s.srqReceive c e.tid none
  let s := match at_ with | some v => if valid then s.standbyOffset c v else s | none => s
  let s := if e.disc then s.measure c b h.message e at_ valid else if valid && e.bms then s.takeMessage c h.message else s
  (if e.isOpen then s else s.copyTrec c e.tid).defectsChanged c old

/-- Whether a head end's receiver takes in bursts. -/
def State.takesBursts (s : State) (c : Nat) : Bool :=
  s.role c == roleHead && s.octRuns (octOf c) && s.rxPowered c && !s.on F.CH_PWR_STAT_DOZING c

def burstReceived (c : Nat) (b : BurstRx) (s : State) : State :=
  if !s.takesBursts c then s
  else match (s.mapOf c b.u.toNat).find? (fun e => e.start == b.start.toNat) with
    | none => s
    | some e => (s.receiveBurst c b e).endBurst c

/-! ### Frames (R86, R371) -/

/-- Link header fields of a frame's first 8 bytes (Table: Tree link header). -/
def hdrTid (f : List Byte) : Nat := byteAt f 0 / 8
def hdrBc (f : List Byte) : Bool := bit (byteAt f 0) 2
def hdrProt (f : List Byte) : Bool := bit (byteAt f 0) 1
def hdrKey (f : List Byte) : Nat := byteAt f 0 % 2 * 2 + byteAt f 1 / 128
def hdrLen (f : List Byte) : Nat := fieldBE f 2 2

/-- A frame discarded under R86. -/
def State.frmDisc (s : State) (c : Nat) : State := s.inc F.CH_TF_FRM_DISC c

/-- The entry of a terminal whose frets a block of an upstream line tick lies in. -/
def State.entryAt (s : State) (c u block : Nat) : Option MapEnt :=
  (s.mapOf c u).find? (fun e => !e.isOpen && decide (16 * e.start ≤ block) && decide (block < 16 * (e.start + e.len)))

/-- The terminal granted the frets in which a block of an upstream line tick lies. -/
def State.grantedAt (s : State) (c u block : Nat) : Option Nat := (s.entryAt c u block).map (·.tid)

/-- The block of a line tick or upstream line tick from which the codewords around a block are counted: the payload of its burst
at a head end, block 0 at a terminal. -/
def State.codedFrom (s : State) (c u block : Nat) : Nat :=
  if s.role c = roleHead then (match s.entryAt c u block with | some e => 16 * e.start + 208 | none => 0) else 0

/-- Whether a frame of some blocks, its Start at a block, lies in an uncorrectable codeword of the line tick or burst under way
(R43, R86). -/
def State.inBadCodeword (s : State) (c u block n : Nat) : Bool :=
  let o := block - s.codedFrom c u block
  s.codewordsBad c (o / 80) ((o + n - 1) / 80 + 1 - o / 80)

/-- A frame as its receiver has it, and what its blocks show to spoil it (1: R86, 2: R83). -/
def treeRead : TreeRx → List Byte × Nat
  | .cut frame => (frame, 0)
  | .blocks bs => readFrame (bs.map (fun b => (b.1.toNat, b.2.toNat)))

/-- A frame without its protection (R371), at a head end of a terminal, at a terminal its own: none where it is
discarded. -/
def State.openFrame (s : State) (c ltn block : Nat) (f : List Byte) : Option (List Byte) × State :=
  let body := slice f 8 (hdrLen f)
  let head := s.role c == roleHead
  let t := if head then hdrTid f else 0
  let dir := if head then 1 else 0
  if hdrProt f then
    if hdrBc f then (none, s.inc F.CH_PP_BCDROP c)
    else
      let key := s.payKey c t (hdrKey f) dir
      if key = [] then (none, s.inc F.CH_PP_NOKEY c)
      else match Config.gcmOpen key (ppNonce dir (hdrTid f) ltn block) (f.take 6) body with
        | none => (none, s.inc F.CH_PP_AUTH_FAIL c)
        | some p => (some p, s)
  else if !hdrBc f && s.on (F.CH_PP_REQUIRE t) c then (none, s.inc F.CH_PP_CLEAR_DROP c)
  else (some body, s)

/-- Whether a receiver takes frames: a terminal in SYNC whose line tick is delivered, or a head end. -/
def State.takesFrames (s : State) (c : Nat) : Bool :=
  s.octRuns (octOf c) && !s.on F.CH_PWR_STAT_DOZING c && s.rxPowered c &&
    (s.role c == roleHead || (s.role c == roleTerm && s.rdP (tfAlign c) == alSync && (s.framer c).deliver))

/-- A frame of a tree, link header first, its Start at a block of a line tick (R86); `spoilt` is 1 where a codeword, the Terminate
block or the end of the payload spoils it, 2 where an invalid control block does (R83); the Start came `ago` sixteenths of a
nanosecond ago. -/
def State.takeTreeFrame (s : State) (c : Nat) (f : List Byte) (ltn block spoilt ago : Nat) : State :=
  if !s.takesFrames c then s
  else if spoilt = 2 then s.inc F.CH_TF_BADBLK c
  else if fieldBE f 6 2 != crc16 (f.take 6) then
    ((s.inc F.CH_TF_LHDR_ERR c).frmDisc c).modFramer c (fun x => { x with seen := { x.seen with errored := true } })
  else if hdrLen f < 64 || s.rd F.CH_TF_CFG_MAX_LEN c < hdrLen f || f.length != 8 + hdrLen f || spoilt != 0 then s.frmDisc c
  else if s.role c == roleHead && (s.grantedAt c ltn block != some (hdrTid f) ||
      s.recState c (hdrTid f) != hOperate) then s.frmDisc c
  else if s.role c == roleTerm && !hdrBc f && (!s.on F.CH_TF_CFG_TID_VALID c || s.rd F.CH_TF_CFG_TID c != hdrTid f) then s
  else
    let r := s.openFrame c ltn block f
    match r.1 with
    | none => r.2
    | some bytes => r.2.lineFrame c bytes (hdrTid f) (hdrBc f) (hdrProt f) ago

/-- TREE_FRAME_RECEIVED (R83, R86), with the line tick and the block of the Start: the frame told or read from its blocks, spoilt
also where it lies in an uncorrectable codeword. -/
def treeFrameReceived (c : Nat) (rx : TreeRx) (ltn block spoilt ago : Nat) (s : State) : State :=
  let r := treeRead rx
  let sp := if spoilt = 0 then r.2 else spoilt
  s.takeTreeFrame c r.1 ltn block (if sp = 0 && s.inBadCodeword c ltn block (frameBlocks (r.1.length - 8)) then 1 else sp) ago

/-! ### The commands -/

/-- What a requester's read returns. -/
def State.answer (s : State) (req : Nat) (bytes : List Byte) : State :=
  { s with rdata := tput (fun _ => []) s.rdata req bytes }

/-- A read of CH_TUNE_MEAS1 (R113): the head's line tick, and the head removed. -/
def State.measPop (s : State) (req : Nat) : State :=
  let c := s.rd F.CHSEL_CH req
  if !s.octServes (octOf c) then s.answer req (toBytes (bytesLE 4 (s.reg c F.CH_TUNE_MEAS1.off).toNat))
  else
    let s := s.answer req (toBytes (bytesLE 4 (s.reg c F.CH_TUNE_MEAS1.off).toNat))
    (s.modTree c (fun t => { t with meas := t.meas.drop 1 })).showMeas c

/-- BURST_RECEIVED. -/
def execBurstReceived (c : Fin 64) (b : BurstRx) (s : State) : Outcome State Fault Refusal := done s (burstReceived c b s)
/-- TREE_FRAME_RECEIVED. -/
def execTreeFrameReceived (c : Fin 64) (rx : TreeRx) (ltn block : BitVec 32) (mark : TreeMark) (s : State) :
    Outcome State Fault Refusal := done s (treeFrameReceived c rx ltn.toNat block.toNat mark.spoilt mark.ago s)
/-- MEAS_POP. -/
def execMeasPop (req : Fin 19) (s : State) : Outcome State Fault Refusal := done s (s.measPop req)
/-- TX_POST (R77), on every channel that the requester's selects name. -/
def execTxPost (req : Fin 19) (s : State) : Outcome State Fault Refusal :=
  doneWrite req s (((s.chSel req).filter (fun c => s.octServes (octOf c))).foldl State.txPost s)
/-- RX_POP (R77), on every channel that the requester's selects name. -/
def execRxPop (req : Fin 19) (s : State) : Outcome State Fault Refusal :=
  doneWrite req s (((s.chSel req).filter (fun c => s.octServes (octOf c))).foldl State.rxPop s)
/-- POP (R255): the requester's channel. -/
def execPop (req : Fin 19) (s : State) : Outcome State Fault Refusal :=
  doneWrite req s (((s.chSel req).filter (fun c => s.octServes (octOf c))).foldl State.stqPop s)

end Sys2Proof.Machine
end

