-- ==== Sys2Proof/Machine/Deep.lean ====
section
/-!
DEFINITION. The deep-store memory controller (11_deep_store): the command slot (R288 to R292), refresh (R293 to R296),
retraining (R298 to R300), accesses and their errors (R301 to R304, R308), and the map-out of a device (R305, R306).
-/

namespace Sys2Proof.Machine
open Host (Outcome)

/-! ### The state of a memory channel -/

/-- The codes of MEM_CH_STAT.USE. -/
def useIn : Nat := 0
def useOut : Nat := 1
def useTest : Nat := 2
def useTrain : Nat := 3

/-- Panic asserted, as every channel counts it (R292). -/
def State.memPanic (s : State) : Bool := (List.range 64).any (fun c => s.on F.CH_BOW_STAT_PANIC c)

/-- POSTPONE_MAX, at most 8. -/
def State.postponeMax (s : State) : Nat := min 8 (s.rd F.MEM_REF_CFG_POSTPONE_MAX 0)

/-- What a controller does to a device: an all-bank refresh, a per-bank refresh, a read, a write, or a step of a training slot. -/
def mcAll : Nat := 0
def mcBank : Nat := 1
def mcRead : Nat := 2
def mcWrite : Nat := 3
def mcTrain : Nat := 4

/-- The refresh debt lowered by 1 (R294, R295). -/
def State.lowerDebt (s : State) (m : Nat) : State :=
  (s.wr F.MEM_CH_STAT_DEBT m (s.rd F.MEM_CH_STAT_DEBT m - 1)).modMch m (fun x => { x with refSet := 0 })

/-- Whether a training slot of a channel is in progress (R298). -/
def State.inSlot (s : State) (m : Nat) : Bool := decide (s.pegs.cyc < (s.mch m).slotEnd)

/-- REFRESH_INTERVAL (R294): one that falls due during a training slot adds to the debt (R298). -/
def refreshInterval (m : Nat) (s : State) : State :=
  if s.rd F.MEM_CH_STAT_USE m != useIn then s
  else
    let debt := s.rd F.MEM_CH_STAT_DEBT m + 1
    if s.inSlot m then s.wr F.MEM_CH_STAT_DEBT m debt
    else if s.memPanic && decide (debt ≤ s.postponeMax) then (s.wr F.MEM_CH_STAT_DEBT m debt).inc F.MEM_CH_REF_POSTP m
    else
      let s := (s.wr F.MEM_CH_STAT_DEBT m debt).lowerDebt m
      let s := s.modMch m (fun x => { x with refPend := x.refPend + 1 })
      if s.memPanic then s.inc F.MEM_CH_REF_FORCED m else s

/-- REFRESH_PAYBACK (R296). -/
def refreshPayback (m : Nat) (s : State) : State :=
  if s.rd F.MEM_CH_STAT_USE m != useIn || s.memPanic || s.rd F.MEM_CH_STAT_DEBT m = 0 || s.inSlot m then s
  else (s.lowerDebt m).modMch m (fun x => { x with refPend := x.refPend + 1 })

/-! ### Frames dropped (R302 to R304) -/

/-- Where a frame of the deep store stands: its queue, its place there, and the frame. -/
def State.deepPlace (s : State) (id : Nat) : Option (Nat × Nat × QFrame) :=
  (s.store.queues.flatMap (fun e => ((e.2.flatMap QEnt.frames).zipIdx).map (fun x => (e.1, x.2, x.1)))).find?
    (fun e => e.2.2.deep == id)

/-- The later frames of the run in which a frame stands. -/
def State.laterInRun (s : State) (id : Nat) : List QFrame :=
  (s.store.queues.flatMap (fun e => e.2)).flatMap (fun e => match e with
    | .one _ => []
    | .run fs => (fs.dropWhile (fun x => x.deep != id)).drop 1)

/-- A frame of the deep store taken out of its queue or context; what a reader had set aside for it is free. -/
def State.takeOutDeep (s : State) (id : Nat) : State :=
  match s.deepPlace id with
  | some (q, i, x) =>
    let d := s.deepFr id
    let term := decide (q < 4096) && s.role (q / 64) == roleTerm
    let s := (s.pull q i).dropDeficit q
    let s := if d.reading && !term then s.setPool d.oct (s.pool d.oct - x.fsCells) else s
    if term then s.showStaged (q / 64) else s
  | none => { s with store := { s.store with ctx := s.store.ctx.map (fun (e : Nat × Ctx) =>
      (e.1, { e.2 with fifo := e.2.fifo.map (fun f => (f.1, f.2.filter (fun x => x.2.deep != id))) })) } }

/-- A frame of the deep store dropped. -/
def State.dropDeepFrame (s : State) (id : Nat) : State := (s.takeOutDeep id).dropDeep id true

/-- A broken chain (R304): the frame and every later frame of its run are dropped and counted; of their cells those up
to the granule that was lost, and the advance cell, which the engine holds, are free, and the others are lost. -/
def State.breakChain (s : State) (id cell : Nat) : State :=
  let later := (s.laterInRun id).map (·.deep)
  let d := s.deepFr id
  let known := d.cells.takeWhile (· != cell) ++ [cell]
  let lost := (d.cells.length - known.length) + ((later.map (fun j => (s.deepFr j).cells.length)).sum)
  let advs := d.adv.toList ++ later.flatMap (fun j => (s.deepFr j).adv.toList)
  let s := (later ++ [id]).foldl (fun s j => (s.takeOutDeep j).clearDeep j) s
  let s := s.freeCells (known ++ advs)
  ({ s with mem := { s.mem with lost := s.mem.lost + lost } }.addN F.MEM_RUN_LOST 0 (later.length + 1)).reclaimLost

/-- Whether a granule of a frame holds a link of its chain: the first cell's first granule, or the last granule of a
cell but the last (R192). -/
def State.holdsLink (s : State) (id cell gran : Nat) : Bool :=
  let cells := (s.deepFr id).cells
  (gran == 0 && cells.head? == some cell) || (gran == 3 && cells.getLast? != some cell)

/-- What a requester does with a read in error (Table: Effect of an error response). A poisoned granule's links stand in
its table entry (R303). -/
def State.readFailed (s : State) (r : MReq) (poisoned : Bool) : State :=
  if (s.deepFr r.frame).cells.contains r.cell then
    if !poisoned && s.holdsLink r.frame r.cell r.gran then s.breakChain r.frame r.cell else s.dropDeepFrame r.frame
  else s

/-! ### Poison (R303) -/

def State.poisonOf (s : State) (cell : Nat) : Option Poison := s.mem.poison.find? (·.cell == cell)

/-- Whether a granule is poisoned. -/
def State.isPoisoned (s : State) (cell gran : Nat) : Bool :=
  match s.poisonOf cell with | some p => bit p.mask gran | none => false

/-- Whether the poison table can take a granule of a cell. -/
def State.poisonRoom (s : State) (cell : Nat) : Bool := (s.poisonOf cell).isSome || decide (s.mem.poison.length < 256)

/-- A granule poisoned, with the links that the failed write was to store; a full table takes no other cell (DESIGN CHOICE, log
entry 84). -/
def State.poison (s : State) (cell gran runNext next : Nat) : State :=
  if !s.poisonRoom cell then s
  else
  let p := (s.poisonOf cell).getD { cell, mask := 0, runNext := 0, next := 0 }
  let p := { p with mask := putBit p.mask gran true, runNext := if gran = 0 then runNext else p.runNext,
                    next := if gran = 3 then next else p.next }
  { s with mem := { s.mem with poison := s.mem.poison.filter (·.cell != cell) ++ [p] } }

/-- The RUN_NEXT and NEXT words that a frame's cell holds, one of those that it is rewritten into included. -/
def State.linksOf (s : State) (id cell : Nat) : Nat × Nat :=
  let d := s.deepFr id
  let cells := match d.evac with | some e => if e.cells.contains cell then e.cells else d.cells | none => d.cells
  (d.runNext, ((cells.dropWhile (· != cell)).drop 1).headD 0)

/-- A granule rewritten by a service core is no longer poisoned; an entry with none left is released. -/
def State.unpoison (s : State) (cell gran : Nat) : State :=
  { s with mem := { s.mem with poison := (s.mem.poison.map (fun p =>
      if p.cell = cell then { p with mask := putBit p.mask gran false } else p)).filter (fun p => p.mask != 0) } }

/-! ### Service-core memory (R286, R307, R308) -/

/-- Bytes of service-core memory. -/
def State.coreBytes (s : State) (a n : Nat) : List Byte := (List.range n).map (fun i => tget (fun _ => 0) s.tds.coreMem (a + i))
def State.putCoreBytes (s : State) (a : Nat) (bs : List Byte) : State :=
  { s with tds := { s.tds with coreMem := (bs.zipIdx).foldl (fun t e => tput (fun _ => 0) t (a + e.2) e.1) s.tds.coreMem } }

/-- Bytes of the local SRAM of the core that a requester is, from a byte of it (R307). -/
def State.sramBytes (s : State) (core a n : Nat) : List Byte :=
  (List.range n).map (fun i => tget (fun _ => 0) s.tds.sram (core * 2 ^ 18 + (a + i) % 2 ^ 18))

/-- What an address of a service core's own address space names (Table: Service-core address map, R307): local SRAM, a register,
the table aperture, service-core memory. -/
inductive CorePlace where
  | sram (a : Nat)
  | place (a : Addr)
  | mem (a : Nat)
  | none
  deriving DecidableEq, Repr

def corePlace (a : Nat) : CorePlace :=
  if a < 0x40000 then .sram a
  else if a / 0x100000 = 0x100 then .place (.reg (BitVec.ofNat 20 a))
  else if a / 0x4000000 = 8 then .place (.table (BitVec.ofNat 26 a))
  else if a / 0x40000000 = 1 then .mem (a % 0x40000000)
  else .none

/-- The bytes of an atomic operation. -/
def amoSize (wide : Bool) : Nat := if wide then 8 else 4

/-- The granules that a range of service-core memory touches, by their first byte. -/
def coreGranules (a n : Nat) : List Nat := (List.range ((a + n + 63) / 64 - a / 64)).map (fun i => 64 * (a / 64 + i))

/-- Whether a range of service-core memory holds a poisoned granule. -/
def State.corePoisoned (s : State) (a n : Nat) : Bool :=
  (coreGranules a n).any (fun g => s.isPoisoned (s.coreCell g) (coreGran g))

def CoreOp.size : CoreOp → Nat
  | .read n => n
  | .write d => d.length
  | .amo _ wide _ => amoSize wide

def CoreOp.stores : CoreOp → Bool
  | .write _ => true
  | _ => false

def State.accOf (s : State) (id : Nat) : Option CoreAcc := tget (fun _ => none) s.tds.accs id
def State.setAcc (s : State) (id : Nat) (x : Option CoreAcc) : State :=
  { s with tds := { s.tds with accs := tput (fun _ => none) s.tds.accs id x } }

/-- The granule requests of an access sent to their controllers (R288). -/
def State.sendAcc (s : State) (id : Nat) (x : CoreAcc) : State :=
  x.todo.foldl (fun s g => s.memEnqueue (s.memReq whoCore (s.coreCell g) (coreGran g) x.op.stores id false))
    (s.setAcc id (some { x with wait := false }))

/-- A core accesses service-core memory, up to its end (R307); an access to a block that is being copied waits (R306). -/
def State.coreAccess (s : State) (core a : Nat) (op : CoreOp) : State :=
  let todo := coreGranules a (min op.size (0x40000000 - a))
  let x : CoreAcc := { core, addr := a, op, todo, wait := todo.any s.coreWaits, bad := false }
  let id := s.tds.nextAcc
  let s := { s with tds := { s.tds with nextAcc := id + 1 } }
  if x.wait then s.setAcc id (some x) else s.sendAcc id x

/-- The accesses that waited for a copy sent. -/
def State.releaseAccs (s : State) : State :=
  (s.tds.accs.filterMap (fun e => e.2.bind (fun x => if x.wait && !x.todo.any s.coreWaits then some (e.1, x) else none))).foldl
    (fun s e => s.sendAcc e.1 e.2) s

/-- The value of bytes in memory, least significant first. -/
def coreValue (bs : List Byte) : Nat := fieldLE bs 0 bs.length

/-- The value that an atomic operation of some bits leaves, from the one that stood and its operand. -/
def amoValue (op : Amo) (bits old v : Nat) : Nat :=
  let neg (x : Nat) : Int := if x < 2 ^ (bits - 1) then (x : Int) else (x : Int) - 2 ^ bits
  match op with
  | .lr => old
  | .sc | .swap => v
  | .add => (old + v) % 2 ^ bits
  | .xor => old ^^^ v
  | .and => old &&& v
  | .or => old ||| v
  | .min => if neg v < neg old then v else old
  | .max => if neg old < neg v then v else old
  | .minu => Nat.min old v
  | .maxu => Nat.max old v

def State.resvOf (s : State) (core : Nat) : Option Nat := tget (fun _ => none) s.tds.resv core
def State.setResv (s : State) (core : Nat) (g : Option Nat) : State :=
  { s with tds := { s.tds with resv := tput (fun _ => none) s.tds.resv core g } }

/-- The reservations of a granule ended by a store of a core, its own left as they are (PRESUMED, log entry 137). -/
def State.breakResv (s : State) (core g : Nat) : State :=
  { s with tds := { s.tds with resv := s.tds.resv.filter (fun (e : Nat × Option Nat) => e.1 == core || e.2 != some g) } }

/-- Bytes answered to a core. -/
def State.coreAnswer (s : State) (core : Nat) (b : List Byte) : State := { s with rdata := tput (fun _ => []) s.rdata (core + 1) b }

/-- An atomic operation performed at the memory controller (R307): the value that stood is answered, of a store-conditional 0 where
its reservation stood and it stored, else 1. -/
def State.amo (s : State) (core a : Nat) (op : Amo) (wide : Bool) (data : List Byte) : State :=
  let n := amoSize wide
  let g := a / 64 * 64
  let old := s.coreBytes a n
  let put := toBytes (bytesLE n (amoValue op (8 * n) (coreValue old) (coreValue (exactly n data))))
  if op = .lr then (s.setResv core (some g)).coreAnswer core old
  else if op = .sc then
    if s.resvOf core = some g then
      (((s.putCoreBytes a put).breakResv core g).setResv core none).coreAnswer core (toBytes (bytesLE n 0))
    else (s.setResv core none).coreAnswer core (toBytes (bytesLE n 1))
  else ((s.putCoreBytes a put).breakResv core g).coreAnswer core old

/-- The part of a core's write that lies in a granule stored. -/
def State.storeGranule (s : State) (core a g : Nat) (d : List (Option Byte)) : State :=
  let put (t : Tab Byte) (e : Option Byte × Nat) : Tab Byte := match e.1 with
    | none => t
    | some b => if (a + e.2) / 64 * 64 = g then tput (fun _ => 0) t (a + e.2) b else t
  { s with tds := { s.tds with coreMem := d.zipIdx.foldl put s.tds.coreMem } }.breakResv core g

/-- Whether a core's write rewrites a whole granule (R303). -/
def rewrites (a g : Nat) (d : List (Option Byte)) : Bool :=
  decide (a ≤ g) && decide (g + 64 ≤ a + d.length) && (slice d (g - a) 64).all Option.isSome

/-- An access fault of a core (R308). -/
def State.coreFault (s : State) (core a : Nat) (store : Bool) : State :=
  let s := if store then (s.wr (F.TDS_CORE_FAULT core) 0 a).emit (.coreIrq core) else s
  ((s.emit (.coreFault core store)).log 0x0901 engineReq core (bytesLE 4 a)).watch fsCoreFault core

/-- An access whose granules have all completed: a read or an atomic operation without error acts. -/
def State.accDone (s : State) (id : Nat) (x : CoreAcc) : State :=
  let s := s.setAcc id none
  if x.bad then s
  else match x.op with
    | .read n => s.coreAnswer x.core (s.coreBytes x.addr n)
    | .write _ => s
    | .amo op wide d => s.amo x.core x.addr op wide d

/-- A granule of a core's access completes: stored without error, its poison ended where it is rewritten whole (R303); the first in
error raises the access fault (R308), and one that a write was to store is poisoned (R302). -/
def State.coreGranule (s : State) (r : MReq) (err : Bool) : State :=
  match s.accOf r.frame with
  | none => s
  | some x =>
    let g := coreByte r.cell r.gran
    if !x.todo.contains g then s
    else
      let s := match err, x.op with
        | false, .write d => if rewrites x.addr g d then (s.storeGranule x.core x.addr g d).unpoison r.cell r.gran
            else s.storeGranule x.core x.addr g d
        | true, .write _ => s.poison r.cell r.gran 0 0
        | _, _ => s
      let s := if err && !x.bad then s.coreFault x.core x.addr x.op.stores else s
      let x := { x with todo := x.todo.erase g, bad := x.bad || err }
      if x.todo = [] then s.accDone r.frame x else s.setAcc r.frame (some x)

/-! ### The command slot (R289 to R292, R295) -/

/-- Whether a write drain runs after the count of writes held (R291). -/
def State.drains (s : State) (x : MCh) : Bool :=
  let n := (x.queue.filter (·.write)).length
  let hi := s.rd F.MEM_CFG_WR_HI 0
  let lo := min (s.rd F.MEM_CFG_WR_LO 0) (hi - 1)
  if hi < n then true else if n ≤ lo then false else x.drain

/-- The candidate of a bank: its oldest request of a kind. -/
def MCh.candidate (x : MCh) (p : MReq → Bool) (b : Nat) : Option MReq := x.queue.find? (fun r => r.bank == b && p r)

/-- Whether a request goes to the open row, which has served fewer than 4 (R290). -/
def MCh.openHit (x : MCh) (r : MReq) : Bool :=
  match x.openAt with
  | some (b, row, n) => b == r.bank && row == r.row && decide (n < 4)
  | none => false

/-- The rotating pick among the requests of a kind in the banks that are ready (R290): the open row first, then from the
pointer on. -/
def MCh.pick (x : MCh) (ready : Nat) (p : MReq → Bool) : Option MReq :=
  let cand (b : Nat) : Option MReq := if bit ready b then x.candidate p b else none
  let hit := match x.openAt with
    | some (b, _, _) => (cand b).filter x.openHit
    | none => none
  match hit with
  | some r => some r
  | none => ((List.range 16).filterMap (fun i => cand ((x.ptr + i) % 16))).head?

/-- The request that a slot serves: a panic read, else by the drain's order (R289, R291). -/
def MCh.pickNormal (x : MCh) (ready : Nat) : Option MReq :=
  let rd := x.pick ready (fun r => !r.write)
  let wr := x.pick ready (fun r => r.write)
  if x.drain then (match wr with | some r => some r | none => rd) else (match rd with | some r => some r | none => wr)

/-- A request issued: an activate moves the pointer behind its bank. -/
def MCh.serve (x : MCh) (r : MReq) : MCh :=
  let x := if x.openHit r then
      { x with openAt := x.openAt.map (fun o => (o.1, o.2.1, o.2.2 + 1)) }
    else { x with openAt := some (r.bank, r.row, 1), ptr := (r.bank + 1) % 16 }
  { x with queue := x.queue.erase r }.admitHeld

/-- A request issued to the device, or answered from the poison table (R303). -/
def State.issue (s : State) (m : Nat) (r : MReq) : State :=
  if !r.write && s.isPoisoned r.cell r.gran then
    let s := (s.modMch m (fun x => { x with queue := x.queue.erase r }.admitHeld)).inc F.MEM_CH_UNC m
    if r.who = whoCore then s.coreGranule r true else s.readFailed r true
  else
    let s := s.modMch m (fun x => let y := x.serve r; { y with fly := y.fly ++ [r] })
    s.emit (.mem m (if r.write then mcWrite else mcRead) r.bank r.row (4 * (cellPlace (s.rd F.MEM_CFG_ORDER 0) (r.cell / 64)).2.2 + r.gran))

/-- The banks to which a per-bank refresh is due (R295). -/
def State.refreshBanks (s : State) (m ready : Nat) : List Nat :=
  let x := s.mch m
  if s.rd F.MEM_CH_STAT_DEBT m = 0 then []
  else (List.range 16).filter (fun b => bit ready b && !bit x.refSet b && !x.queue.any (fun r => r.bank == b && r.panic && !r.write))

/-- A per-bank refresh: of the banks due, which first the spec does not say (a free value). A set of 16 lowers the
debt. -/
def State.bankRefresh (s : State) (m : Nat) (bs : List Nat) : State :=
  let v := s.takeFree
  let b := bs.getD (v.1 % bs.length) 0
  let set := putBit (s.mch m).refSet b true
  let s := (v.2.modMch m (fun x => { x with refSet := set })).emit (.mem m mcBank b 0 0)
  if set = 65535 then s.lowerDebt m else s

/-- MEM_COMMAND_SLOT (R289): in a training slot its next step and nothing else (R298); `ready` has a bit for each bank whose
candidate meets the device's timing. -/
def memCommandSlot (m ready : Nat) (s : State) : State :=
  if s.rd F.MEM_CH_STAT_USE m != useIn then s
  else if s.inSlot m then s.emit (.mem m mcTrain 0 0 0)
  else
    let s := s.modMch m (fun x => { x with drain := s.drains x })
    let x := s.mch m
    if x.refPend ≠ 0 then
      (s.setMch m { x with refPend := x.refPend - 1, openAt := none }).emit (.mem m mcAll 0 0 0)
    else match x.pick ready (fun r => r.panic && !r.write) with
      | some r => s.issue m r
      | none => match s.refreshBanks m ready with
        | [] => (match x.pickNormal ready with | some r => s.issue m r | none => s)
        | bs => s.bankRefresh m bs

/-! ### Temperature and retraining (R293, R298 to R300) -/

/-- A reading of 8 bits as a number of °C. -/
def degrees (t : Nat) : Int := if t < 128 then (t : Int) else (t : Int) - 256

/-- Whether a channel's device has drifted from its training temperature (R298). -/
def State.drifted (s : State) (m : Nat) : Bool :=
  let d := degrees (s.rd F.MEM_CH_TEMP_TEMP m) - degrees (s.rd F.MEM_CH_TEMP_T_TRAIN m)
  s.img.trained && s.rd F.MEM_CH_STAT_USE m == useIn && decide (max 1 (s.rd F.MEM_TRAIN_CFG_DRIFT 0) ≤ d.natAbs)

/-- A reading of a device's temperature, as one of its channels takes it. -/
def State.chTemp (s : State) (m t : Nat) : State :=
  let on : Int := (s.rd F.MEM_REF_CFG_HOT_ON 0 : Int)
  let off : Int := min (s.rd F.MEM_REF_CFG_HOT_OFF 0 : Int) (on - 1)
  let v := degrees t
  let s := s.wr F.MEM_CH_TEMP_TEMP m t
  let s := if on < v then s.wr F.MEM_CH_STAT_HOT m 1 else if v ≤ off then s.wr F.MEM_CH_STAT_HOT m 0 else s
  if s.drifted m then s.wr F.MEM_CH_STAT_RETRAIN m 1 else s

/-- MEM_TEMP_READ (R293, R298). -/
def memTempRead (d t : Nat) (s : State) : State := (List.range 4).foldl (fun s i => s.chTemp (4 * d + i) t) s

/-- Whether a maintenance slot may start now (R299). -/
def State.slotMayStart (s : State) (m : Nat) : Bool :=
  let x := s.mch m
  s.on F.MEM_CH_STAT_RETRAIN m && s.rd F.MEM_CH_STAT_USE m == useIn && !x.slotDone && !s.memPanic &&
    decide (s.rd F.MEM_CH_STAT_DEBT m + 2 ≤ s.postponeMax) &&
    (decide (x.queue.length < s.rd F.MEM_TRAIN_CFG_SLOT_Q 0) || decide (s.rd F.MEM_TRAIN_CFG_DEFER_MAX 0 ≤ x.deferred))

/-- The device cycles of a training slot: at most 2 µs, which the model lets it take (DESIGN CHOICE, log entry 136). -/
def slotCycles : Nat := 4000

/-- RETRAIN_SLOT (R298 to R300). -/
def retrainSlot (m : Nat) (outOfReach : Bool) (s : State) : State :=
  if !s.slotMayStart m then s
  else
    let s := s.modMch m (fun x => { x with slotDone := true, deferred := 0, slotEnd := s.pegs.cyc + slotCycles })
    if outOfReach then
      let s := ((s.wr F.MEM_CH_STAT_RETRAIN_FAIL m 1).wr F.MEM_CH_STAT_RETRAIN m 0).wr F.MEM_CH_TEMP_SLOTS m 0
      ((s.log 0x0802 engineReq m [s.rd F.MEM_CH_TEMP_TEMP m]).raise 12 m).watch fsMemRetrain m
    else if s.rd F.MEM_CH_TEMP_SLOTS m + 1 < 8 then s.inc F.MEM_CH_TEMP_SLOTS m
    else
      (((s.wr F.MEM_CH_TEMP_SLOTS m 0).wr F.MEM_CH_STAT_RETRAIN m 0).wr F.MEM_CH_TEMP_T_TRAIN m (s.rd F.MEM_CH_TEMP_TEMP m)).inc
        F.MEM_CH_RETRAIN m

/-- The end of a window of 64 core ticks (R299). -/
def State.memWindowEnd (s : State) (m : Nat) : State :=
  let x := s.mch m
  let wants := s.on F.MEM_CH_STAT_RETRAIN m && !x.slotDone
  s.setMch m { x with slotDone := false, deferred := if wants then x.deferred + 1 else x.deferred }

/-! ### Accesses complete (R301, R302, R308) -/

/-- An access in error counted and logged (R302); a parity error asks for retraining (R298). -/
def State.accessError (s : State) (m kind bank row col who : Nat) : State :=
  let s := if kind = 2 then (s.inc F.MEM_CH_CAPAR m).wr F.MEM_CH_STAT_RETRAIN m 1 else s.inc F.MEM_CH_UNC m
  let s := s.log 0x0801 engineReq m ([bank] ++ bytesLE 2 row ++ [col, kind, who])
  (s.raise 12 m).watch fsMemUnc m

/-- The corrections and repetitions of an access (R301). -/
def State.accessCounts (s : State) (m : Nat) (r : DeepRes) : State :=
  ((List.range r.corr).foldl (fun s _ => s.watch fsMemCorr m) (s.addN F.MEM_CH_CORR m r.corr)).addN F.MEM_CH_CRC_RETRY m r.retries

/-- The rewriting of a frame has ended (R306): in one step its new cells, and the advance cell that replaces a closed one where
the run still holds it, take the old ones' place, RUN_NEXT and LOC with them, and the old ones are free. -/
def State.evacDone (s : State) (id : Nat) (d : DeepFr) (e : Evac) : State :=
  let adv := if d.adv.isSome then e.adv else none
  let dropped := (d.adv.toList.filter (fun x => adv != some x)) ++ (e.adv.toList.filter (fun x => adv != some x && d.adv != some x))
  let head := d.cells.head?
  let s := { s with mem := { s.mem with deep := s.mem.deep.map (fun (y : Nat × DeepFr) =>
    (y.1, if y.2.adv.isNone && head == some y.2.runNext then { y.2 with runNext := e.cells.headD 0 } else y.2)) } }
  let s := s.freeCells (d.cells ++ dropped)
  s.setDeepFr id { d with
    cells := e.cells, adv, evac := none, runNext := adv.getD d.runNext,
    desc := patch d.desc 8 (bytesLE 4 (2 ^ 31 + e.cells.headD 0 % 2 ^ 28)) }

/-- A granule of a frame written, into its cells or into those that it is rewritten into. -/
def State.wroteGranule (s : State) (r : MReq) : State :=
  let d := s.deepFr r.frame
  if r.who != whoEvac then (if d.cells.contains r.cell then s.setDeepFr r.frame { d with wr := d.wr - 1 } else s)
  else match d.evac with
    | none => s
    | some e =>
      if !e.cells.contains r.cell then s
      else if e.wr ≤ 1 then s.evacDone r.frame d e
      else s.setDeepFr r.frame { d with evac := some { e with wr := e.wr - 1 } }

/-- The bytes of a frame of the deep store. -/
def State.deepBytes (s : State) (id : Nat) : Nat :=
  match s.deepPlace id with
  | some (_, _, x) => x.len
  | none => match (s.store.ctx.flatMap (fun e => e.2.fifo.flatMap (·.2))).find? (fun x => x.2.deep == id) with
    | some x => x.2.len
    | none => 64

/-- A granule read for the evacuation agent: behind the last the frame is written into its new cells. -/
def State.evacRead (s : State) (id : Nat) : State :=
  let d := s.deepFr id
  match d.evac with
  | none => s
  | some e =>
    let s := s.setDeepFr id { d with evac := some { e with rd := e.rd - 1 } }
    if e.rd = 1 then s.memFrame whoEvac id e.cells (s.deepBytes id) true false else s

/-- A granule of a frame read: the last one lands the frame (R137, R196). -/
def State.readGranule (s : State) (r : MReq) : State :=
  if !(s.deepFr r.frame).cells.contains r.cell then s
  else if r.who = whoEvac then s.evacRead r.frame
  else
    let s := s.modDeepFr r.frame (fun d => { d with rd := d.rd - 1 })
    if (s.deepFr r.frame).rd = 0 && r.who = whoRestage then
      match s.deepPlace r.frame with
      | some (q, _, _) => s.landRestaged q (s.qCount q)
      | none => s
    else s

/-- Whether a cell is a frame's, or one that it is rewritten into. -/
def State.ownsCell (s : State) (id cell : Nat) : Bool :=
  let d := s.deepFr id
  d.cells.contains cell || (match d.evac with | some e => e.cells.contains cell | none => false)

/-- A granule of a frame whose write has failed: poisoned (R302, R303), with a full poison table the frame is dropped (DESIGN CHOICE,
log entry 84). -/
def State.writeFailed (s : State) (r : MReq) : State :=
  if !s.ownsCell r.frame r.cell then s
  else if !s.poisonRoom r.cell then s.dropDeepFrame r.frame
  else
    let n := s.linksOf r.frame r.cell
    (s.poison r.cell r.gran n.1 n.2).wroteGranule r

/-- An issued access of a controller completes. -/
def State.requestDone (s : State) (m : Nat) (r : MReq) (res : DeepRes) : State :=
  match res.err with
  | none => if r.who = whoCore then s.coreGranule r false else if r.write then s.wroteGranule r else s.readGranule r
  | some k =>
    let col := 4 * (cellPlace (s.rd F.MEM_CFG_ORDER 0) (r.cell / 64)).2.2 + r.gran
    let s := s.accessError m k r.bank r.row col r.who
    if r.who = whoCore then s.coreGranule r true else if r.write then s.writeFailed r else s.readFailed r false

/-- The copy of a granule of the service block completes (R306): one that cannot be read is written as poisoned. -/
def State.copyGranule (s : State) (m a : Nat) (res : DeepRes) : State :=
  match res.err with
  | none => s
  | some k =>
    if !s.coreWaits a then s
    else
      let x := s.coreCell a
      let p := cellPlace (s.rd F.MEM_CFG_ORDER 0) (x / 64)
      (s.accessError m k p.2.1 p.1 (4 * p.2.2 + coreGran a) whoEvac).poison x (coreGran a) 0 0

/-- DEEP_ACCESS_COMPLETE (R301, R302). -/
def deepAccessComplete (m : Nat) (acc : DeepAcc) (res : DeepRes) (s : State) : State :=
  match acc with
  | .issued n => (match (s.mch m).fly[n]? with
    | none => s
    | some r =>
      let s := if r.who = whoPort then s.burstsRun else s
      let s := ((s.modMch m (fun x => { x with fly := x.fly.eraseIdx n })).accessCounts m res).requestDone m r res
      if r.who = whoPort then s.burstsRun else s)
  | .copy a => (s.accessCounts m res).copyGranule m a.toNat res

/-! ### Map-out (R305, R306) -/

/-- The channels of a device put to a use. -/
def State.useDevice (s : State) (d u : Nat) : State :=
  (List.range 4).foldl (fun s i => s.wr F.MEM_CH_STAT_USE (4 * d + i) u) s

/-- The cells that a frame of the deep store holds, its run's advance cell included. -/
def DeepFr.held (d : DeepFr) : List Nat := d.cells ++ d.adv.toList

/-- The cells still to evacuate (MEM_EVAC_LEFT). -/
def State.evacLeft (s : State) : Nat :=
  if s.rd F.MEM_MAPOUT_STATE 0 = moDrain then ((s.mem.deep.flatMap (fun e => e.2.held)).filter s.cellClosed).length else 0

/-- A frame to be rewritten into other cells (R306): they are allocated, the writes are charged as DP 0 writes, and its granules are
read first. -/
def State.evacuate (s : State) (id : Nat) (d : DeepFr) : State :=
  let bytes := s.deepBytes id
  let n := (framePlaces d.cells bytes).length
  let cost := 64 * n * 128
  if s.store.tokens < cost || s.deepFree < d.cells.length + 1 then s
  else
    let r := s.allocCells d.cells.length
    let a : Option Nat × State := match d.adv with
      | none => (none, r.2)
      | some x => if s.cellClosed x then (match r.2.allocCell with | some y => (some y.1, y.2) | none => (some x, r.2)) else (some x, r.2)
    let s' := { a.2 with store := { a.2.store with tokens := s.store.tokens - cost } }
    (s'.setDeepFr id { d with evac := some { cells := r.1, adv := a.1, rd := n, wr := n } }).memFrame whoEvac id d.cells bytes false false

/-- EVACUATION_REWRITE (R306): the next frame that holds such a cell and can be read. -/
def evacuationRewrite (s : State) : State :=
  if s.rd F.MEM_MAPOUT_STATE 0 != moDrain then s
  else match s.mem.deep.find? (fun e => e.2.wr == 0 && !e.2.reading && e.2.evac.isNone && e.2.held.any s.cellClosed) with
    | none => s
    | some e => s.evacuate e.1 e.2

/-- DRAIN_DONE (R306). -/
def drainDone (s : State) : State :=
  if s.rd F.MEM_MAPOUT_STATE 0 = moDrain && s.evacLeft = 0 then s.wr F.MEM_MAPOUT_STATE 0 moCopy else s

/-- The poisoned granules of the service block of the device mapped out move with their copies (R306), to the next device or back. -/
def State.movePoison (s : State) (back : Bool) : State :=
  let d := s.mem.mdev
  let block (x : Nat) : Bool := decide (frameArea ≤ x) && x % 64 / 4 == d
  let taken (x : Nat) : Bool := decide (x < frameArea) && decide (4063232 ≤ x / 64) && x % 64 / 4 == nextDev d
  { s with mem := { s.mem with poison := s.mem.poison.map (fun p =>
    if back then (if taken p.cell then { p with cell := homeCell p.cell } else p)
    else if block p.cell then { p with cell := takeoverCell p.cell } else p) } }

/-- COPY_DONE (R306): OUT, whose effects the next boundary brings; the service cores go on in the next device. -/
def copyDone (s : State) : State :=
  if s.rd F.MEM_MAPOUT_STATE 0 != moCopy then s
  else (({ s with mem := { s.mem with copyDone := true } }.movePoison false).wr F.MEM_MAPOUT_STATE 0 moOut).releaseAccs

/-- MAPOUT_TRAIN_DONE (R306). -/
def mapoutTrainDone (pass : Bool) (s : State) : State :=
  if s.rd F.MEM_MAPOUT_STATE 0 != moTrain then s
  else if pass then
    let d := s.mem.mdev
    let s := (List.range 4).foldl (fun s i => s.wr F.MEM_CH_TEMP_T_TRAIN (4 * d + i) (s.rd F.MEM_CH_TEMP_TEMP (4 * d + i))) s
    (s.useDevice d useOut).wr F.MEM_MAPOUT_STATE 0 moReturn
  else ((s.useDevice s.mem.mdev useOut).wr F.MEM_MAPOUT_STATE 0 moOut).wr F.MEM_MAPOUT_REFUSED 0 1

/-- RETURN_DONE (R306): the next boundary takes the device back. -/
def returnDone (s : State) : State :=
  if s.rd F.MEM_MAPOUT_STATE 0 = moReturn then { s with mem := { s.mem with copyDone := true } } else s

/-- What a core-tick boundary does after a copy (R306). GO_IN ends the effect of a RETIRE action (R404). -/
def State.memBoundary (s : State) : State :=
  if !s.mem.copyDone then s
  else
    let s := { s with mem := { s.mem with copyDone := false } }
    let d := s.mem.mdev
    let st := s.rd F.MEM_MAPOUT_STATE 0
    if st = moReturn then
      let s := ((((s.useDevice d useIn).wr F.MEM_STAT 0 64).movePoison true).wr F.MEM_MAPOUT_STATE 0 moIn).releaseAccs
      (List.range 4).foldl (fun s i => s.endEffect [fsMemCorr, fsMemUnc, fsMemRetrain] (4 * d + i)) s
    else (if st = moOut then s.useDevice d useOut else s).wr F.MEM_STAT 0 60

/-- GO_IN (R306). -/
def State.goIn (s : State) : State :=
  if s.rd F.MEM_MAPOUT_STATE 0 = moOut then
    ((s.useDevice s.mem.mdev useTrain).wr F.MEM_MAPOUT_STATE 0 moTrain).wr F.MEM_MAPOUT_REFUSED 0 0
  else s.wr F.MEM_MAPOUT_REFUSED 0 1

/-! ### The commands -/

/-- MEM_COMMAND_SLOT. -/
def execMemCommandSlot (m : Fin 64) (ready : BitVec 16) (s : State) : Outcome State Fault Refusal :=
  done s (memCommandSlot m ready.toNat s)
/-- REFRESH_INTERVAL. -/
def execRefreshInterval (m : Fin 64) (s : State) : Outcome State Fault Refusal := done s (refreshInterval m s)
/-- REFRESH_PAYBACK. -/
def execRefreshPayback (m : Fin 64) (s : State) : Outcome State Fault Refusal := done s (refreshPayback m s)
/-- MEM_TEMP_READ. -/
def execMemTempRead (d : Fin 16) (t : BitVec 8) (s : State) : Outcome State Fault Refusal :=
  done s (memTempRead d t.toNat s)
/-- RETRAIN_SLOT. -/
def execRetrainSlot (m : Fin 64) (outOfReach : Bool) (s : State) : Outcome State Fault Refusal :=
  done s (retrainSlot m outOfReach s)
/-- DEEP_ACCESS_COMPLETE. -/
def execDeepAccessComplete (m : Fin 64) (acc : DeepAcc) (res : DeepRes) (s : State) : Outcome State Fault Refusal :=
  done s (deepAccessComplete m acc res s)
/-- EVACUATION_REWRITE. -/
def execEvacuationRewrite (s : State) : Outcome State Fault Refusal := done s (evacuationRewrite s)
/-- DRAIN_DONE. -/
def execDrainDone (s : State) : Outcome State Fault Refusal := done s (drainDone s)
/-- COPY_DONE. -/
def execCopyDone (s : State) : Outcome State Fault Refusal := done s (copyDone s)
/-- MAPOUT_TRAIN_DONE. -/
def execMapoutTrainDone (pass : Bool) (s : State) : Outcome State Fault Refusal := done s (mapoutTrainDone pass s)
/-- RETURN_DONE. -/
def execReturnDone (s : State) : Outcome State Fault Refusal := done s (returnDone s)
/-- GO_OUT (R305). -/
def execGoOut (req : Fin 19) (d : Fin 16) (s : State) : Outcome State Fault Refusal :=
  doneWrite req s ((s.mapOut d).foldWrites req F.MEM_MAPOUT.off (if s.rd F.MEM_MAPOUT_STATE 0 = moIn then [0] else []))
/-- GO_IN (R306). -/
def execGoIn (req : Fin 19) (s : State) : Outcome State Fault Refusal := doneWrite req s (s.goIn.foldWrites req F.MEM_MAPOUT.off [0])

end Sys2Proof.Machine
end

