-- ==== Sys2Proof/Machine/Commit.lean ====
section
/-!
DEFINITION. Commits (01_engine): scopes (R23), the values that come into effect, what follows from them in each family,
the change of a role (R22), and the folds of a boundary (R32, R362).
-/

namespace Sys2Proof.Machine

/-! ### Scopes (R23) -/

/-- A commit scope. -/
inductive Scope where
  | dev
  | oct (o : Nat)
  | chan (c : Nat)
  deriving DecidableEq, Repr

/-- The scope of a register instance (R23). -/
def rowScope (r : RegRow) (inst : Nat) : Scope :=
  match r.bank with
  | .oct => .oct inst
  | .meter => .oct (inst / 2048)
  | .chan => .chan inst
  | .reqChan => .chan (inst % 64)
  | .lane => .chan inst
  | .queue => .chan (inst / 64)
  | _ => .dev

/-- The bits of a register that are RWT. -/
def rwtMask (r : RegRow) : Nat := accMask r.flds (· == .rwt)

/-- The scope of a register key with RWT fields. -/
def keyScope (k : Nat) : Option Scope :=
  match findRow (k % 0x100000) with
  | none => none
  | some r => if rwtMask r = 0 then none else some (rowScope r (k / 0x100000))

/-- What a boundary applies to one octant: whether its octant scope, which of its channels, and from which shadows. -/
structure Part where
  oct : Nat
  octScope : Bool
  chs : Nat
  snap : Tab Word
  deriving DecidableEq, Repr

/-- Whether a part holds a scope. -/
def Part.has (p : Part) : Scope → Bool
  | .dev => false
  | .oct o => p.octScope && o == p.oct
  | .chan c => c / 8 == p.oct && bit p.chs c

/-- The keys of two tables, each once. -/
def bothKeys {α β : Type} (a : Tab α) (b : Tab β) : List Nat := (a.map (·.1) ++ b.map (·.1)).eraseDups

/-- One register's RWT fields taken from its shadow. -/
def State.commitKey (s : State) (snap : Tab Word) (k : Nat) : State :=
  match findRow (k % 0x100000) with
  | none => s
  | some r =>
    let m := BitVec.ofNat 32 (rwtMask r)
    let w := (tget regReset s.eff k &&& ~~~m) ||| (tget regReset snap k &&& m)
    { s with eff := tput regReset s.eff k w }

/-- The registers of the scopes that `has` names take the values of a snapshot. -/
def State.commitValues (s : State) (snap : Tab Word) (has : Scope → Bool) : State :=
  ((bothKeys s.eff snap).filter (fun k => match keyScope k with | none => false | some x => has x)).foldl
    (fun s k => s.commitKey snap k) s

/-! ### What follows in each family -/

/-- The frames of a channel's 64 queues discarded and counted (R22). -/
def State.discardQueues (s : State) (c : Nat) : State :=
  (List.range 64).foldl (fun s k =>
    let q := 64 * c + k
    let fs := s.qFrames q
    if fs.isEmpty then s
    else (fs.foldl State.release ((s.setQueue q []).dropDeficit q)).addN F.CH_ROLE_DISC c fs.length) s

/-- A framer in a new role: what R22 and R98 start anew. -/
def Framer.restart (f : Framer) : Framer :=
  { f with pre := 0, pLtn := 0, pJ := 0, j := 0, miss := 0, deliver := false, begins := 0, noWrap := false, due := 0,
           started := false, rebound := false }

/-- What a lane has sent of a line tick or burst under way is dropped, with the injections that wait. -/
def State.dropTx (s : State) (c : Nat) : State :=
  s.modLane c (fun x => { x with inj := false, tx := { x.tx with items := [], inj := [], scr := 0, blocks := 0, busyTo := 0 } })

/-- A commit of the channel's role takes a terminal out of T-BARRED (R129), to T-IDLE, for the spec names no state (DESIGN CHOICE,
log entry 115); panic ends with the burst. -/
def State.leaveBarred (s : State) (c : Nat) : State :=
  let s := if 6 ≤ s.termState c then s.wr F.CH_TERM_CTL_STATE c 0 else s
  s.panicSettle c

/-- A commit changes a channel's role (R22): frames queued in an active role are discarded, those of an OFF channel stay. The
lane drops stage 3, so the framer of a channel that is no terminal reads OFF, and 0b11 in HEAD role (DEDUCED, log entry 41). -/
def State.roleChange (s : State) (c : Nat) : State :=
  let was := s.role c
  let s := s.wr F.CH_ROLE_ROLE_NOW c (s.rd F.CH_ROLE_ROLE c)
  let s := (if was = roleOff then s else s.discardQueues c).bmEmpty c
  let s := (s.modFramer c Framer.restart).modTree c (fun t =>
    { Tree.reset with ring := t.ring, armed := t.armed, terms := t.terms, meas := t.meas })
  let s := { s with store := { s.store with sent := s.store.sent.filter (fun e => e.1 / 64 != c) } }
  let s := (((s.dropTx c).relock c).applyLanePower c).leaveBarred c
  let head := s.role c = roleHead
  let s := (s.wrB F.CH_LTICK_OFS_VALID c head).wrP (tfAlign c) (if head then alSync else if s.role c = roleTerm then
    s.rdP (tfAlign c) else alOff)
  let s := ((s.resetDefects c).srqReset c).endEffect [fsLockLoss, fsSfSet] c
  let s := ((s.gateDiscard c).pauseReset c).shpFillChannel c
  if s.role c = roleOff then s else s.clearTests c

/-- A commit of a channel's scope. A new binding acts as a step of the bound peg: on the gate list (R232), and on DDN (R242). -/
def State.channelCommit (s old : State) (c : Nat) : State :=
  let s := ((s.clampSideband c).clampTaps c).treeCommit old c
  let newRole := s.rd F.CH_ROLE_ROLE c != s.role c
  let s := if newRole then s.roleChange c else s
  let s := s.pauseCommit old c
  let s := if newRole then (if s.on F.CH_GATE_CFG_EN c && s.gateKey c != old.gateKey c then s.gateActivate c else s)
    else (shpOfChannel c).foldl (fun s k => s.shpCommit old k) (s.gateCommit old c)
  let s := if s.boundPeg c = old.boundPeg c then s
    else
      let s := (gateListStart c s).showGate c
      if s.role c = roleTerm then s.modFramer c (fun f => { f with rebound := true }) else s
  (s.applyLanePower c).setStanding c

/-- A commit of an octant's scope: a meter with a changed field has both buckets at their caps (R224). -/
def State.octantCommit (s old : State) (o : Nat) : State :=
  let ms := (bothKeys s.eff old.eff).filterMap (fun k =>
    match findRow (k % 0x100000) with
    | none => none
    | some r => if r.bank == .meter && k / 0x100000 / 2048 == o && tget regReset s.eff k != tget regReset old.eff k
        then some (k / 0x100000) else none)
  ms.eraseDups.foldl State.mtrFill s

/-- Whether the configuration or a member of a chord has changed (R206). -/
def State.chordChanged (s old : State) (ch : Nat) : Bool :=
  (List.range 10).any (fun i => s.reg 0 (0x78000 + 64 * ch + 4 * i) != old.reg 0 (0x78000 + 64 * ch + 4 * i))

/-- A source that is no longer watched has no lasting instance (R403). -/
def State.unwatched (s : State) (src : Nat) : State :=
  if s.on F.FLT_SRC_CFG_EN src then s
  else (s.flt.watch.filter (fun e => e.1 / 256 == src && e.2.lasting)).foldl
    (fun s e => s.lastingEnd engineReq src (e.1 % 256)) s

/-- A commit of the device scope. -/
def State.deviceCommit (s old : State) : State :=
  let s := (List.range 32).foldl (fun s ch => if s.chordChanged old ch then (List.range 8).foldl (fun s g => s.ctxReset ch g) s
    else s) s.epochCommit
  (List.range 16).foldl State.unwatched (((List.range 8).foldl State.clampSurokTaps s).timingCommit old)

/-- The pairs that have become valid: STANDBY until R339 decides. -/
def State.newPairs (s old : State) : State :=
  (List.range 64).foldl (fun s c =>
    if s.pairValid c && !old.pairValid c then
      let s := s.goStandby c
      { s with twin := { s.twin with fresh := tput (fun _ => false) s.twin.fresh c true } }
    else s) s

/-- The servos after a commit that may have changed a source or a binding (R245). -/
def State.servosCommit (s old : State) : State := (List.range 16).foldl (fun s p => s.servoCommit old p) s

/-! ### Folds (R362) -/

/-- Keys in ascending offset, then ascending instance. -/
def insertKey (k : Nat) : List Nat → List Nat
  | [] => [k]
  | x :: xs =>
    let lt := decide (k % 0x100000 < x % 0x100000) || (k % 0x100000 == x % 0x100000 && decide (k < x))
    if lt then k :: x :: xs else x :: insertKey k xs

/-- The registers of a scope whose RWT fields a boundary has changed, folded in order. -/
def State.foldScope (s old : State) (req : Nat) (x : Scope) : State :=
  let ks := (bothKeys s.eff old.eff).filter (fun k => keyScope k == some x && (match findRow (k % 0x100000) with
    | none => false
    | some r => (tget regReset s.eff k ^^^ tget regReset old.eff k) &&& BitVec.ofNat 32 (rwtMask r) != 0))
  (ks.foldr insertKey []).foldl (fun s k => s.foldKey req k) s

/-! ### A commit applied -/

/-- The device scope and the parts of octants that a boundary applies (R29): values first, then what follows from them,
then the folds, device, octants and channels in that order. -/
def State.applyCommit (s : State) (req : Nat) (dev : Bool) (parts : List Part) : State :=
  let old := s
  let s := if dev then s.commitValues s.snap (· == .dev) else s
  let s := parts.foldl (fun s p => s.commitValues p.snap p.has) s
  let octs := (List.range 8).filter (fun o => parts.any (fun p => p.has (.oct o)))
  let chs := (List.range 64).filter (fun c => parts.any (fun p => p.has (.chan c)))
  let s := if dev then s.deviceCommit old else s
  let s := octs.foldl (fun s o => s.octantCommit old o) s
  let s := chs.foldl (fun s c => s.channelCommit old c) s
  let s := (s.newPairs old).servosCommit old
  let s := if dev then s.foldScope old req .dev else s
  let s := octs.foldl (fun s o => s.foldScope old req (.oct o)) s
  chs.foldl (fun s c => s.foldScope old req (.chan c)) s

end Sys2Proof.Machine
end

