-- ==== Sys2Proof/Machine/Host.lean ====
section
/-!
DEFINITION. The host attachment (10_client_host): the rings and their descriptors (R272 to R276), transmit chains,
checksums and segmentation (R277 to R280), the host buckets (R281), access errors (R282), interrupts (R283), and resets
of the PCI Express function (R271).
-/

namespace Sys2Proof.Machine
open Host (Outcome)

/-! ### Rings -/

/-- 2^SIZE of a ring, SIZE held to 6 to 16. -/
def State.ringSize (s : State) (r : Nat) : Nat := 2 ^ max 6 (min 16 (s.rd F.HDMA_RING_CFG_SIZE r))

/-- The buffer size that BUFSZ selects. -/
def State.ringBuf (s : State) (r : Nat) : Nat := if s.on F.HDMA_RING_CFG_BUFSZ r then 16384 else 2048

/-- The descriptors that belong to the engine: from HEAD up to TAIL (R272). -/
def State.ringAvail (s : State) (r : Nat) : Nat :=
  let n := s.ringSize r
  (s.rd F.HDMA_RING_TAIL r + n - s.rd F.HDMA_RING_HEAD r % n) % n

/-- The bus address of a descriptor of a ring. -/
def State.descAddr (s : State) (r i : Nat) : Nat :=
  s.rd F.HDMA_RING_BASE_HI r * 2 ^ 32 + s.rd F.HDMA_RING_BASE_LO r * 64 + 32 * (i % s.ringSize r)

/-- HEAD advanced by some descriptors, and written back while WB_EN is 1 (R272). -/
def State.advanceHead (s : State) (r n : Nat) : State :=
  let h := (s.rd F.HDMA_RING_HEAD r + n) % s.ringSize r
  let s := s.wr F.HDMA_RING_HEAD r h
  if s.on F.HDMA_RING_CFG_WB_EN r then
    s.hostWrite (s.rd F.HDMA_RING_WB_HI r * 2 ^ 32 + s.rd F.HDMA_RING_WB_LO r * 4) (toBytes (bytesLE 4 h))
  else s

/-! ### Interrupts (R283) -/

def State.unsig (s : State) (r : Nat) : Nat := tget (fun _ => 0) s.host.unsig r

/-- The vector of a ring sent; the count of every ring that shares it restarts. -/
def State.signalRing (s : State) (r : Nat) : State :=
  let vec := s.rd F.HDMA_RING_IRQ_VEC r
  let s := s.msix vec
  let shares (e : Nat × Nat) : Bool := s.on F.HDMA_RING_IRQ_EN e.1 && s.rd F.HDMA_RING_IRQ_VEC e.1 == vec
  { s with host := { s.host with unsig := s.host.unsig.filter (fun e => !shares e) } }

/-- A frame of a ring completed: counted, and signalled at the CNT-th. -/
def State.ringDone (s : State) (r : Nat) : State :=
  let s := s.inc F.HDMA_RING_FRAMES r
  let n := s.unsig r + 1
  let at_ := if n = 1 then tput (fun _ => 0) s.host.unsigAt r s.pegs.cyc else s.host.unsigAt
  let s := { s with host := { s.host with unsig := tput (fun _ => 0) s.host.unsig r n, unsigAt := at_ } }
  if s.on F.HDMA_RING_IRQ_EN r && decide (max 1 (s.rd F.HDMA_RING_IRQ_CNT r) ≤ n) then s.signalRing r else s

/-- INTERRUPT_TIMER (R283): TIME_US after the first completion not yet signalled. A µs is 2,000 device cycles. -/
def interruptTimer (r : Nat) (s : State) : State :=
  let t := s.rd F.HDMA_RING_IRQ_TIME_US r
  if s.on F.HDMA_RING_IRQ_EN r && t != 0 && s.unsig r != 0 &&
      decide (tget (fun _ => 0) s.host.unsigAt r + 2000 * t ≤ s.pegs.cyc) then s.signalRing r else s

/-! ### Receive rings (R273 to R276) -/

/-- The head frame of a delivery queue, once its write into the deep store has completed. -/
def State.deliverable (s : State) (q : Nat) : Option QFrame :=
  match (s.queue q).head? with
  | some (.one x) => some x
  | some (.run (x :: _)) => if s.deepReady x.deep then some x else none
  | _ => none

/-- A delivered frame as the host or a core gets it: with its FCS. -/
def QFrame.bytes (x : QFrame) : List Byte := x.f.body ++ leavingFcs x.f x.f.body false

/-- Bytes 8 to 31 of a receive descriptor (Table: Receive descriptor): LEN, STATUS, the frame, and whether SOF is set. -/
def rxDesc (x : QFrame) (len status : Nat) (sof : Bool) : List Byte :=
  let entry := (if x.f.src = 0 then x.f.entry % 64 else 0) + x.f.src % 4 * 64
  toBytes (bytesLE 2 len ++ [status, x.reason % 64 + (if x.copy then 64 else 0)] ++
    bytesLE 8 (if sof then x.f.stamp else 0) ++ [entry, x.f.tid % 32 + (if x.f.bc then 32 else 0)] ++
    bytesLE 2 (if sof then x.len else 0) ++ bytesLE 4 (x.act % 2 ^ 18) ++ bytesLE 2 x.ameta ++ [0, 0])

/-- STATUS of the i-th of n descriptors of a frame. -/
def rxStatus (x : QFrame) (i n : Nat) (trunc : Bool) : Nat :=
  1 + (if i = 0 then 2 else 0) + (if i + 1 = n then 4 else 0) + (if trunc && i + 1 == n then 8 else 0) +
    (if x.f.fcsNew then 16 else 0)

/-- The parts of a frame in its buffers: index, and bytes. -/
def rxParts (bytes : List Byte) (size n : Nat) : List (Nat × List Byte) :=
  (List.range n).map (fun i => (i, slice bytes (i * size) size))

/-- A frame written into n descriptors of a ring, their buffer addresses read first, in the order of R274. -/
def State.ringWrite (s : State) (r n : Nat) (x : QFrame) (trunc : Bool) (bufs : List (BitVec 64)) : State :=
  let ps := rxParts x.bytes (s.ringBuf r) n
  let head := s.rd F.HDMA_RING_HEAD r
  let data (s : State) (p : Nat × List Byte) : State :=
    s.hostWrite ((bufs.getD p.1 0).toNat / 64 * 64) p.2
  let desc (s : State) (p : Nat × List Byte) : State :=
    s.hostWrite (s.descAddr r (head + p.1) + 8) (rxDesc x p.2.length (rxStatus x p.1 n trunc) (p.1 == 0))
  let s := ps.foldl (fun s p => s.hostRead (s.descAddr r (head + p.1)) 8) s
  let s := (ps.drop 1).foldl desc (ps.foldl data s)
  (((ps.take 1).foldl desc s).advanceHead r n).ringDone r

/-- A ring without a descriptor (R275). -/
def State.ringEmpty (s : State) (r : Nat) : State := (s.inc F.HDMA_RING_EMPTY r).wr F.HDMA_RING_STAT_EMPTY r 1

/-- The frame at the head of a ring's delivery queue taken out of the store. -/
def State.takeDelivery (s : State) (q : Nat) (x : QFrame) : State := ((s.dequeue q).countDrain q x.len).release x

/-- A frame taken for a ring (R274, R275, R281). -/
def State.ringFrame (s : State) (r : Nat) (x : QFrame) (bufs : List (BitVec 64)) (rd : FsRead) : State :=
  let s := s.takeDelivery (qRing r) x
  let s := { s with host := { s.host with rxTok := s.host.rxTok - 2 * (x.len : Int) } }
  let w := s.readWords rd 0 x.slice
  if w.2 then w.1
  else
    let s := w.1
    let need := ceilDiv x.len (s.ringBuf r)
    let have_ := s.ringAvail r
    if need ≤ have_ then s.ringWrite r need x false bufs
    else if have_ = 0 then s.ringEmpty r
    else (s.ringWrite r have_ x true bufs).ringEmpty r

/-- RING_DELIVERY (R271, R274 to R276, R281): the frame at the head of a receive ring's delivery queue. -/
def ringDelivery (r : Nat) (bufs : List (BitVec 64)) (rd : FsRead) (s : State) : State :=
  match s.deliverable (qRing r) with
  | none => s
  | some x =>
    if !s.hostUp then (s.takeDelivery (qRing r) x).inc F.HDMA_NOHOST 0
    else if !s.on F.HDMA_RING_CFG_EN r then s
    else if s.on F.HDMA_RING_STAT_EMPTY r then (s.takeDelivery (qRing r) x).inc F.HDMA_RING_EMPTY r
    else if s.host.rxTok ≤ 0 then s
    else s.ringFrame r x bufs rd

/-! ### Checksums of a send (R278, R280) -/

/-- The checksum that makes some 16-bit words sum to 0. -/
def checksum (ws : List Nat) : Nat := 65535 - ocSum ws

/-- The IPv4 header checksum computed anew. -/
def ip4Checksum (b : List Byte) (l3 : Nat) : List Byte :=
  let b := patch b (l3 + 10) [0, 0]
  patch b (l3 + 10) (bytesBE 2 (checksum (words16 (slice b l3 (4 * (byteAt b l3 % 16))))))

/-- The TCP or UDP checksum over n bytes from L4_OFS computed anew; a UDP checksum of 0 is sent as all ones. -/
def l4Checksum (b : List Byte) (l3 l4 n : Nat) (udp v6 : Bool) : List Byte :=
  let at_ := l4 + (if udp then 6 else 16)
  let b := patch b at_ [0, 0]
  let addrs := if v6 then slice b (l3 + 8) 32 else slice b (l3 + 12) 8
  let sum := checksum (words16 addrs ++ [n / 65536, n % 65536, if udp then 17 else 6] ++ words16 (slice b l4 n))
  patch b at_ (bytesBE 2 (if udp && sum == 0 then 65535 else sum))

/-- The bytes from L4_OFS that the IP header counts. -/
def l4Length (b : List Byte) (l3 l4 : Nat) (v6 : Bool) : Nat :=
  if v6 then l3 + 40 + fieldBE b (l3 + 4) 2 - l4 else l3 + fieldBE b (l3 + 2) 2 - l4

/-- CSUM without LSO (R278). -/
def csumFix (b : List Byte) (l3 l4 : Nat) (udp v6 : Bool) : List Byte :=
  let b := l4Checksum b l3 l4 (l4Length b l3 l4 v6) udp v6
  if v6 then b else ip4Checksum b l3

/-- Segment i of n of a send (R280): the template followed by its part of the payload, fixed up. -/
def lsoSegment (tmpl part : List Byte) (l3 l4 mss i n : Nat) (udp v6 : Bool) : List Byte :=
  let b := tmpl ++ part
  let len := b.length
  let b := if v6 then patch b (l3 + 4) (bytesBE 2 (len - l4))
    else patch (patch b (l3 + 2) (bytesBE 2 (len - l3))) (l3 + 4) (bytesBE 2 ((fieldBE b (l3 + 4) 2 + i) % 65536))
  let b := if udp then patch b (l4 + 4) (bytesBE 2 (len - l4))
    else
      let fl := byteAt b (l4 + 13)
      let fl := if i + 1 = n then fl else fl &&& 0xF6
      let fl := if i = 0 then fl else fl &&& 0x7F
      patch (patch b (l4 + 4) (bytesBE 4 ((fieldBE b (l4 + 4) 4 + i * mss) % 2 ^ 32))) (l4 + 13) [fl]
  let b := l4Checksum b l3 l4 (len - l4) udp v6
  if v6 then b else ip4Checksum b l3

/-! ### Transmit rings (R277 to R281) -/

/-- The CTL byte of a transmit descriptor. -/
def txCtl (d : List Byte) : Nat := byteAt d 10
def txSof (d : List Byte) : Bool := bit (txCtl d) 0
def txEof (d : List Byte) : Bool := bit (txCtl d) 1

/-- The bytes that a descriptor gives: LEN bytes of its buffer. -/
def txBytes (d : List Byte × List Byte) : List Byte :=
  let n := fieldLE d.1 8 2
  (d.2 ++ List.replicate n 0).take n

/-- What the descriptors posted hold at their front: a chain with how many descriptors it takes, a bad chain, or one that
is not complete (R278, R279). A bad chain goes up to the next descriptor that holds SOF. -/
inductive TxFront where
  | chain (n : Nat)
  | bad (n : Nat)
  | wait
  deriving DecidableEq, Repr

/-- The segments of a good chain; none where it breaks a limit (R279, R280). -/
def txSegments (ds : List (List Byte × List Byte)) : Option (List (List Byte)) :=
  let h := (ds.headD ([], [])).1
  let b := ds.flatMap txBytes
  let l3 := byteAt h 11
  let l4 := byteAt h 12
  let udp := bit (byteAt h 16) 0
  let v6 := bit (byteAt h 16) 1
  if bit (txCtl h) 2 then
    let hl := byteAt h 13
    let mss := fieldLE h 14 2
    let p := b.length - hl
    let n := ceilDiv p mss
    let ipLen := if v6 then 40 else 4 * (byteAt b l3 % 16)
    if 0 < hl && decide (hl ≤ fieldLE h 8 2) && decide (hl < b.length) && decide (p ≤ 262144) && decide (64 ≤ mss) &&
        decide (mss ≤ 16379 - hl) && l4 == l3 + ipLen then
      some ((List.range n).map (fun i =>
        lsoSegment (b.take hl) (slice b (hl + i * mss) mss) l3 l4 mss i n udp v6))
    else none
  else if 16379 < b.length then none
  else some [if bit (txCtl h) 3 then csumFix b l3 l4 udp v6 else b]

/-- The front of the posted descriptors. -/
def txFront (ds : List (List Byte × List Byte)) : TxFront :=
  match ds with
  | [] => .wait
  | d :: rest =>
    let skip := 1 + (rest.takeWhile (fun e => !txSof e.1)).length
    if !txSof d.1 then .bad skip
    else
      let n := if txEof d.1 then 1 else (rest.takeWhile (fun e => !txEof e.1)).length + 2
      if skip < n then (if skip < ds.length then .bad skip else .wait)
      else if ds.length < n then .wait
      else if (txSegments (ds.take n)).isSome then .chain n else .bad skip

/-- DONE written in descriptors, after the first in ring order and the first last (R274, R277). -/
def State.txWriteBack (s : State) (ds : List (Nat × Nat)) (stamp segs : Nat) (err : Bool) : State :=
  let ctl (c : Nat) : List Byte := toBytes [putBit (putBit c 4 true) 5 err]
  let s := (ds.drop 1).foldl (fun s d => s.hostWrite (d.1 + 10) (ctl d.2)) s
  (ds.take 1).foldl (fun s d =>
    let s := if err then s else s.hostWrite (d.1 + 20) (toBytes (bytesLE 8 stamp ++ bytesLE 2 segs))
    s.hostWrite (d.1 + 10) (ctl d.2)) s

/-- The descriptors from HEAD on with their addresses and CTL bytes. -/
def State.txDescs (s : State) (r : Nat) (ds : List (List Byte × List Byte)) : List (Nat × Nat) :=
  (ds.zipIdx).map (fun e => (s.descAddr r (s.rd F.HDMA_RING_HEAD r + e.2), txCtl e.1.1))

/-- Descriptors of a ring discarded with ERR; `seek` says whether the next descriptor with SOF is still to come (R279). -/
def State.txDiscard (s : State) (r : Nat) (ds : List (List Byte × List Byte)) (seek : Bool) : State :=
  let s := (s.txWriteBack (s.txDescs r ds) 0 0 true).advanceHead r ds.length
  { s with host := { s.host with seek := tput (fun _ => false) s.host.seek r seek } }

/-- A bad chain discarded (R279). -/
def State.txBad (s : State) (r : Nat) (ds : List (List Byte × List Byte)) (seek : Bool) : State :=
  (s.txDiscard r ds seek).inc F.HDMA_RING_TXBAD r

def State.txJob (s : State) (r : Nat) : TxJob := tget (fun _ => TxJob.none) s.host.jobs r
def State.setTxJob (s : State) (r : Nat) (j : TxJob) : State :=
  { s with host := { s.host with jobs := tput (fun _ => TxJob.none) s.host.jobs r j } }

/-- A frame given to the engine without FCS, padded and with an FCS, enters the injection pipe (R15, R278). -/
def State.inject (s : State) (src entry : Nat) (b : List Byte) : State :=
  let b := b ++ List.replicate (60 - b.length) 0
  s.enterPipe (s.arrived (b ++ fcsBytes b) s.now16 src entry)

/-- The next segment of a send passed to the injection pipe; after the last the descriptors are written back. -/
def State.txSegment (s : State) (r : Nat) : State :=
  let j := s.txJob r
  match j.segs with
  | [] => s
  | b :: rest =>
    let stamp := j.stamp.getD (s.now16 % 2 ^ 64)
    let s := s.inject 1 (r - 128) b
    let s := { s with host := { s.host with txTok := s.host.txTok - 2 * (max 64 (b.length + 4) : Nat), lastTx := r } }
    if rest = [] then
      (((s.setTxJob r TxJob.none).txWriteBack j.descs stamp j.n false).advanceHead r j.descs.length).ringDone r
    else s.setTxJob r { j with segs := rest, stamp := some stamp }

/-- The reads of a transmit ring's descriptors, and where asked of the buffers that they name. -/
def State.txRead (s : State) (r : Nat) (ds : List (List Byte × List Byte)) (bufs : Bool) : State :=
  let s := ((s.txDescs r ds).map (·.1)).foldl (fun s a => s.hostRead a 32) s
  if bufs then ds.foldl (fun s d => s.hostRead (fieldLE d.1 0 8) (fieldLE d.1 8 2)) s else s

/-- A chain fetched (R278, R280). -/
def State.txChain (s : State) (r : Nat) (ds : List (List Byte × List Byte)) : State :=
  let segs := (txSegments ds).getD []
  let lso := bit (txCtl (ds.headD ([], [])).1) 2
  let s := if lso then s.addN F.HDMA_LSO_SEGS 0 segs.length else s
  (s.setTxJob r { segs, n := segs.length, stamp := none, descs := s.txDescs r ds }).txSegment r

/-- One turn of a transmit ring, the descriptors from HEAD on given as the engine reads them: those that follow a bad chain
without SOF belong to it. -/
def State.txTurn (s : State) (r : Nat) (ds : List (List Byte × List Byte)) : State :=
  if (s.txJob r).segs ≠ [] then s.txSegment r
  else
    let ds := ds.take (s.ringAvail r)
    let s := s.txRead r ds false
    let skip := if tget (fun _ => false) s.host.seek r then (ds.takeWhile (fun d => !txSof d.1)).length else 0
    if skip != 0 then s.txDiscard r (ds.take skip) (skip == ds.length)
    else match txFront ds with
      | .wait => s
      | .bad n => s.txBad r (ds.take n) (n == ds.length)
      | .chain n => (s.txRead r (ds.take n) true).txChain r (ds.take n)

/-- The next transmit ring in the round robin with a send under way or a descriptor posted (R278). -/
def State.nextTx (s : State) : Option Nat :=
  ((List.range 128).map (fun i => 128 + (s.host.lastTx - 128 + 1 + i) % 128)).find? (fun r =>
    s.on F.HDMA_RING_CFG_EN r && ((s.txJob r).segs != [] || s.ringAvail r != 0))

/-- HOST_TX_FETCH (R278): one turn, with the descriptors that the ring whose turn it is has posted, and the buffers. -/
def hostTxFetch (ds : List (List Byte × List Byte)) (s : State) : State :=
  if !s.hostUp || s.host.txTok ≤ 0 then s
  else match s.nextTx with
    | none => s
    | some r =>
      let s := { s with host := { s.host with lastTx := r } }
      s.txTurn r ds

/-! ### The buckets (R281) -/

/-- HOST_CAP_REFILL (R281): both buckets, in half bytes. -/
def hostCapRefill (s : State) : State :=
  let rate : Nat := max 1 (min 200 (s.rd F.HDMA_CAP 0))
  let fill (t : Int) : Int := min 131072 (t + (125 * rate : Nat))
  { s with host := { s.host with rxTok := fill s.host.rxTok, txTok := fill s.host.txTok } }

/-! ### Writes of a ring's registers (R272, R275) -/

/-- A write of TAIL (R272, R275): ignored at or above 2^SIZE; one that posts a descriptor ends EMPTY. -/
def State.writeTail (s : State) (r tail : Nat) : State :=
  if s.ringSize r ≤ tail then s
  else
    let s := s.wr F.HDMA_RING_TAIL r tail
    if s.ringAvail r != 0 then s.wr F.HDMA_RING_STAT_EMPTY r 0 else s

/-- A ring enabled (R272). -/
def State.enableRing (s : State) (r : Nat) : State :=
  if s.on F.HDMA_RING_CFG_EN r then s
  else
    let s := { s with host := { s.host with seek := tput (fun _ => false) s.host.seek r false } }
    (((s.wr F.HDMA_RING_CFG_EN r 1).wr F.HDMA_RING_HEAD r 0).wr F.HDMA_RING_TAIL r 0).wr F.HDMA_RING_STAT_ERR r 0

/-- RING_ACCESS_ERROR (R282): HEAD goes to the descriptor whose access failed, of those posted. -/
def ringAccessError (r status desc : Nat) (s : State) : State :=
  if !s.on F.HDMA_RING_CFG_EN r then s
  else
    let s := if r < 128 then (match s.deliverable (qRing r) with | some x => s.takeDelivery (qRing r) x | none => s)
      else s.setTxJob r TxJob.none
    let s := s.advanceHead r (min desc (s.ringAvail r))
    let s := (s.wr F.HDMA_RING_STAT_ERR r 1).wr F.HDMA_RING_CFG_EN r 0
    ((s.log 0x0A01 engineReq r [status]).emit (.aer r)).watch fsRingErr r

/-! ### The link (R269, R271) -/

/-- What a function-level or hot reset resets (R271): the HDMA region, the MSI-X table, requester 0's banked copies. Shadows stay. -/
def State.resetFunction (s : State) : State :=
  let hdma (k : Nat) : Bool := k % 0x100000 / 0x10000 == 0xA
  let s := { s with eff := s.eff.filter (fun e => !hdma e.1),
                    host := { s.host with msixTab := [], msixPend := [], jobs := [], lastTx := 255, unsig := [],
                                          unsigAt := [], rxTok := 0, txTok := 0, seek := [] } }
  s.resetBank 0

/-- PCIE_RESET (R271): the reset is in progress until the function comes up again (PRESUMED, log entry 134). -/
def pcieReset (s : State) : State := let s := s.resetFunction; { s with host := { s.host with flr := true } }

/-- PCIE_LINK_DOWN (R271): the link, or Bus Master Enable. A frame in progress is not continued. -/
def pcieLinkDown (link : Bool) (s : State) : State :=
  let h := if link then { s.host with link := false } else { s.host with bme := false }
  { s with host := h }

/-- PCIE_LINK_UP (R269, R271): the link, or Bus Master Enable; a reset in progress has ended. -/
def pcieLinkUp (up : PcieUp) (s : State) : State :=
  let h := match up with
    | .link width rate => { s.host with link := true, width, rate, flr := false }
    | .master payload request => { s.host with bme := true, payload, request, flr := false }
  { s with host := h }.sendPending

/-- A write of a word of the MSI-X table (R270, R425): an unmasked vector that is pending is sent. -/
def State.writeMsix (s : State) (k : Nat) (w : Word) : State :=
  let s := { s with host := { s.host with msixTab := tput msixDefault s.host.msixTab k w } }
  if k % 4 = 3 then s.sendPending else s

/-! ### The commands -/

/-- HOST_CAP_REFILL. -/
def execHostCapRefill (s : State) : Outcome State Fault Refusal := done s (hostCapRefill s)
/-- HOST_TX_FETCH. -/
def execHostTxFetch (descs : List (List Byte × List Byte)) (s : State) : Outcome State Fault Refusal :=
  done s (hostTxFetch descs s)
/-- RING_DELIVERY. -/
def execRingDelivery (ring : Fin 128) (bufs : List (BitVec 64)) (rd : FsRead) (s : State) :
    Outcome State Fault Refusal := done s (ringDelivery ring bufs rd s)
/-- INTERRUPT_TIMER. -/
def execInterruptTimer (ring : Fin 256) (s : State) : Outcome State Fault Refusal := done s (interruptTimer ring s)
/-- RING_ACCESS_ERROR. -/
def execRingAccessError (ring : Fin 256) (fault : RingFault) (s : State) : Outcome State Fault Refusal :=
  done s (ringAccessError ring fault.status.toNat fault.desc.toNat s)
/-- PCIE_RESET. -/
def execPcieReset (s : State) : Outcome State Fault Refusal := doneAlways s (pcieReset s)
/-- PCIE_LINK_DOWN. -/
def execPcieLinkDown (link : Bool) (s : State) : Outcome State Fault Refusal := doneAlways s (pcieLinkDown link s)
/-- PCIE_LINK_UP. -/
def execPcieLinkUp (up : PcieUp) (s : State) : Outcome State Fault Refusal := doneAlways s (pcieLinkUp up s)
/-- TAIL_WRITE: the ring that the requester's RINGSEL names. -/
def execTailWrite (req : Fin 19) (tail : BitVec 16) (s : State) : Outcome State Fault Refusal :=
  let r := s.rd F.RINGSEL req % 256
  doneWrite req s (s.ordered req F.HDMA_RING_TAIL.off [r] (fun t => (t.writeTail r tail.toNat).foldWrites req F.HDMA_RING_TAIL.off
    (if tail.toNat < t.ringSize r then [r] else [])))
/-- RING_ENABLE: the ring that the requester's RINGSEL names. -/
def execRingEnable (req : Fin 19) (s : State) : Outcome State Fault Refusal :=
  doneWrite req s ((s.enableRing (s.rd F.RINGSEL req % 256)).foldWrites req F.HDMA_RING_CFG.off [s.rd F.RINGSEL req % 256])

end Sys2Proof.Machine
end

