-- ==== Sys2Proof/Machine/Image.lean ====
section
/-!
DEFINITION. The configuration image (14_image_security): the fields of header, certificate and manifest (R353), the layout of
a slot (R354), the order of its checks (R356), and what its sections load (R355, R359, R360).
-/

namespace Sys2Proof

/-! ### Header, certificate and manifest (R353) -/

/-- SVN of the header. -/
def SlotImage.svn (z : SlotImage) : Nat := Machine.fieldLE z.header 12 4
/-- BUILD of the header. -/
def SlotImage.build (z : SlotImage) : Nat := Machine.fieldLE z.header 16 4
/-- VENDOR_PK of the certificate: check 3 holds its digest against the fused root hash, which `rootOk` tells (log entry 95). -/
def SlotImage.vendorPk (z : SlotImage) : List Byte := Machine.slice z.cert 16 2592
/-- VENDOR_SIG of the certificate and what it covers: check 4 verifies it under VENDOR_PK, which `certOk` tells. -/
def SlotImage.vendorSig (z : SlotImage) : List Byte := Machine.slice z.cert 5200 4627
def SlotImage.certSigned (z : SlotImage) : List Byte := Machine.slice z.cert 0 5200
/-- OWNER_PK of the certificate. -/
def SlotImage.ownerPk (z : SlotImage) : List Byte := Machine.slice z.cert 2608 2592
/-- What the image signature covers (R356, check 6): header and manifest. -/
def SlotImage.signed (z : SlotImage) : List Byte := Machine.exactly 256 z.header ++ z.manifest

end Sys2Proof

namespace Sys2Proof.Machine

/-- An entry of the manifest: type, parameter, offset, length, and the digest that check 7 holds a section's copy against, which
`digestsOk` tells (log entry 95). -/
structure ManEntry where
  type : Nat
  param : Nat
  ofs : Nat
  len : Nat
  digest : List Byte
  deriving DecidableEq, Repr

/-- The entries of a manifest (Table: Manifest); a COUNT above 64 is no layout. -/
def manEntries (m : List Byte) : List ManEntry :=
  (List.range (min 64 (fieldLE m 0 4))).map (fun i =>
    { type := byteAt m (8 + 80 * i), param := byteAt m (9 + 80 * i), ofs := fieldLE m (12 + 80 * i) 4,
      len := fieldLE m (16 + 80 * i) 4, digest := slice m (24 + 80 * i) 64 })

/-! ### The layout of a slot (R354) -/

/-- Whether a section type admits a parameter (Table: Section types). -/
def paramOk (type param : Nat) : Bool :=
  match type with
  | 1 => decide (param < 8) || param == 0xFF
  | 5 | 6 => decide (param < 64)
  | 9 => decide (param < 32)
  | 2 | 3 | 4 | 7 | 8 | 10 => param == 0
  | _ => false

/-- Whether two parts, as (offset, length), lie apart. -/
def apart (a b : Nat × Nat) : Bool := a.2 == 0 || b.2 == 0 || decide (a.1 + a.2 ≤ b.1) || decide (b.1 + b.2 ≤ a.1)

/-- Whether the parts of a list lie apart from each other. -/
def allApart : List (Nat × Nat) → Bool
  | [] => true
  | a :: t => t.all (apart a) && allApart t

/-- The section counts of Table: Section types: no type twice with one parameter, LANES and FIRMWARE once. -/
def countsOk (es : List ManEntry) : Bool :=
  decide ((es.map (fun e => 256 * e.type + e.param)).Nodup) && es.any (·.type == 7) && es.any (·.type == 8)

/-- EXT_OK and SERIAL_BOUND of the certificate. -/
def certFlag (z : SlotImage) (b : Nat) : Bool := bit (fieldLE z.cert 2 2) b

/-- The parts of a slot: header, certificate, manifest, signature, sections. -/
def slotParts (z : SlotImage) : List (Nat × Nat) :=
  let h := z.header
  [(0, 256), (fieldLE h 24 4, 9827), (fieldLE h 32 4, fieldLE h 36 4), (fieldLE h 40 4, 4627)] ++
    (manEntries z.manifest).map (fun e => (e.ofs, e.len))

/-- Check 1 (R356): MAGIC, FORMAT, HDR_LEN, the values that the tables give the other lengths, and the layout. -/
def layoutOk (z : SlotImage) : Bool :=
  let h := z.header
  let len := fieldLE h 8 4
  let count := fieldLE z.manifest 0 4
  let es := manEntries z.manifest
  slice h 0 4 == toBytes [0x4D, 0x52, 0x49, 0x4D] && fieldLE h 4 2 == 1 && fieldLE h 6 2 == 256 &&
    decide (10000 ≤ len) && decide (len ≤ 33554432) && decide (z.svn ≤ 64) && fieldLE h 28 4 == 9827 &&
    decide (1 ≤ count) && decide (count ≤ 64) && fieldLE h 36 4 == 8 + 80 * count &&
    (slotParts z).all (fun p => decide (p.1 + p.2 ≤ len)) && allApart (slotParts z) &&
    es.all (fun e => paramOk e.type e.param && e.ofs % 4 == 0) && countsOk es &&
    (certFlag z 0 || es.all (fun e => e.type != 9))

/-! ### The checks in order (R356) -/

/-- The cause of checks 1 to 6 (Table: Image causes), 0 where all pass. -/
def State.slotCause (s : State) (z : SlotImage) : Nat :=
  if !z.readable then 1
  else if !layoutOk z then 2
  else if fieldLE z.header 20 2 != s.rd F.DEV_ID_PART 0 || decide (s.rd F.DEV_STEP 0 < byteAt z.header 22) then 3
  else if !z.rootOk then 4
  else if !z.certOk || (certFlag z 1 && slice z.cert 4 7 != exactly 7 s.img.serial) then 5
  else if z.svn < s.rd F.IMG_STAT_FUSE_SVN 0 then 6
  else if !z.sigOk then 7
  else 0

/-- The cause of checks 1 to 7. -/
def State.verifyCause (s : State) (z : SlotImage) : Nat :=
  if s.slotCause z != 0 then s.slotCause z else if z.digestsOk then 0 else 8

/-- The copies of the sections (check 7), each with its type and parameter. -/
def heldSections (m : List Byte) (copies : List (List Byte)) : List (Nat × Nat × List Byte) :=
  ((manEntries m).zip copies).map (fun e => (e.1.type, e.1.param, exactly e.1.len e.2))

/-! ### What sections load -/

/-- One step of APPLY (R360): a lane table entry, a register record, an aperture record, an exact entry, a channel's admin gate
entries, firmware, or an extension with MEM_BASE, MEM_LEN and REGIONS. -/
inductive Load where
  | lane (entry : List Byte)
  | reg (off value : Nat)
  | aperture (off : Nat) (data : List Byte)
  | exact (prof : Nat) (wide : Bool) (epochs act : Nat) (key : List Byte)
  | gates (c : Nat) (entries : List (Nat × Nat))
  | firmware (load entry : Nat) (code : List Byte)
  | extension (n load entry : Nat) (pmp : List Nat) (prio affinity : Nat) (code : List Byte)
  deriving DecidableEq, Repr

/-- The whole records of n bytes in a section. -/
def records (n : Nat) (b : List Byte) : List (List Byte) := (List.range (b.length / n)).map (fun i => slice b (n * i) n)

/-- The register records of a REGS section (R355). -/
def regLoads (b : List Byte) : List Load := (records 8 b).map (fun r => .reg (fieldLE r 0 4) (fieldLE r 4 4))

/-- The aperture records of a PARSER or TABLES section: offset, length, bytes padded to a multiple of 4. -/
def apertureLoads : Nat → List Byte → List Load
  | 0, _ => []
  | n + 1, b =>
    if b.length < 8 then []
    else .aperture (fieldLE b 0 4) (slice b 8 (fieldLE b 4 4)) :: apertureLoads n (b.drop (8 + (fieldLE b 4 4 + 3) / 4 * 4))

/-- An entry of an EXACT section. -/
def exactLoad (r : List Byte) : Load :=
  .exact (byteAt r 0 % 32) (bit (byteAt r 1) 0) (byteAt r 2 % 16) (fieldLE r 4 4 % 2 ^ 18) (slice r 8 64)

/-- What a section loads (Table: Section types); TREE and POLICY are the services' to read. -/
def sectionLoads (type param : Nat) (b : List Byte) : List Load :=
  match type with
  | 1 => regLoads b
  | 2 | 3 => apertureLoads b.length b
  | 4 => (records 80 b).map exactLoad
  | 5 => [.gates param ((records 8 b).map (fun r => (byteAt r 0, fieldLE r 4 4)))]
  | 7 => ((records 16 b).take 72).map .lane
  | 8 => [.firmware (fieldLE b 0 8) (fieldLE b 8 8) (b.drop 64)]
  | 9 => [.extension param (fieldLE b 0 8) (fieldLE b 8 8) [fieldLE b 16 8, fieldLE b 24 8, fieldLE b 32 2] (byteAt b 34)
      (fieldLE b 36 2) (b.drop 64)]
  | _ => []

/-- The types in the order of APPLY (Table: Start phases): lane table, register records, aperture and exact records, gate
entries, firmware. -/
def applyTypes : List (List Nat) := [[7], [1], [2, 3], [4], [5], [8], [9]]

/-- Every load of an image in the order of APPLY, sections of a kind in the order of the manifest. -/
def applyOrder (sections : List (Nat × Nat × List Byte)) : List Load :=
  applyTypes.flatMap (fun ts => (sections.filter (fun x => ts.contains x.1)).flatMap (fun x => sectionLoads x.1 x.2.1 x.2.2))

end Sys2Proof.Machine
end

