-- ==== Sys2Proof/Machine/TwinOps.lean ====
section
/-!
DEFINITION. Pair states (13_twin): a channel that becomes ACTIVE takes up the copied records (R348, R349) or STANDBY, and
the handovers that line ticks carry out (R341).
-/

namespace Sys2Proof.Machine

/-! ### What a channel that becomes ACTIVE takes up (R349) -/

/-- The copied terminal record of a channel's terminal: 32 bytes and 16 of grant state, or none. -/
def State.trecCopy (s : State) (c t : Nat) : List Byte := tget (fun _ => []) s.twin.trec (32 * c + t)

/-- One copied record written to CH_TREC, ATTEST_OK before STATE, and its grant state to the grant engine; `u` is the
newest upstream line tick granted. -/
def State.loadTrec (s : State) (c u t : Nat) : State :=
  let b := s.trecCopy c t
  if b.length != 48 then s
  else
    let w (k : Nat) : Word := BitVec.ofNat 32 (fieldBE b (4 * k) 4)
    let s := (s.trecWrite c t (setF (w 0) (F.CH_TREC_STATE_STATE t) 0) 0xFFFFFF00).trecWrite c t (w 0) 0xFFFFFFFF
    let s := [1, 2, 3, 4].foldl (fun s k => s.setReg c (0x40500 + 32 * t + 4 * k) (w k)) s
    let pd := fieldBE b 44 4
    s.modTerm c t (fun x => { x with
      granted := [(u, fieldBE b 32 4)], old := 0, lastRep := none, pBlk := fieldBE b 36 4,
      prevM := if 2 ^ 31 ≤ pd then some (fieldBE b 40 4) else none, prevDemand := pd % 2 ^ 31 })

/-- The last L copied fret maps taken into the grant engine. -/
def State.loadMaps (s : State) (c ltn : Nat) : State :=
  let l := s.leadH c
  (List.range (l + 1)).foldl (fun s i =>
    let m := (ltn + 1 + 2 ^ 32 - i) % 2 ^ 32
    let es := s.mapOf c ((m + l) % 2 ^ 32)
    if es.isEmpty then s
    else s.modTree c (fun t => { t with maps := tput (fun _ => (0, [])) t.maps ((m + l) % 256) ((m + l) % 2 ^ 32, es) })) s

/-- A HEAD pair that becomes ACTIVE: the standby's maps while it still reads as STANDBY, then the records. -/
def State.loadHead (s : State) (c : Nat) : State :=
  let ltn := s.rd F.CH_LTICK_NUM c
  (List.range 32).foldl (fun s t => s.loadTrec c ((ltn + s.leadH c) % 2 ^ 32) t) s

/-- The own arrival of block 0 less the partner's, in 1/16 ns (R348): of the line tick that the partner's stamp names, or of the
newest one, its distance in line ticks taken off. -/
def State.arrivalDiff (s : State) (c ltn stamp : Nat) : Int :=
  match (match s.arrOf c ltn with | some a => some a | none => (s.tree c).arr.head?) with
  | none => 0
  | some a =>
    let n : Nat := (a.ltn + 2 ^ 32 - ltn) % 2 ^ 32
    diff64 a.stamp0 stamp - 256000 * (if n < 2 ^ 31 then (n : Int) else (n : Int) - 2 ^ 32)

/-- A TERM pair that becomes ACTIVE (R348): the state copied, and its EQD less twice the difference of the arrivals. -/
def State.loadTerm (s : State) (c : Nat) : State :=
  let b := tget (fun _ => []) s.twin.term c
  if b.length != 28 then s
  else
    let s := s.setReg c F.CH_TERM_CTL.off (BitVec.ofNat 32 (fieldBE b 0 4))
    let cfg := BitVec.ofNat 32 (fieldBE b 4 4)
    let s := (s.wr F.CH_TF_CFG_TID c (getF cfg F.CH_TF_CFG_TID)).wr F.CH_TF_CFG_TID_VALID c (getF cfg F.CH_TF_CFG_TID_VALID)
    let d := s.arrivalDiff c (fieldBE b 24 4) (fieldBE b 16 8)
    let eqd : Int := (fieldBE b 8 4 : Int) - roundDiv (50 * d) 64
    let s := if eqd < 0 then s.inc F.TWN_EQD_CLAMP 0 else s
    (s.wr F.CH_TERM_EQD_AT c (fieldBE b 12 4)).armEqd c (setF 0 F.CH_TERM_EQD_EQD eqd.toNat)

/-- A valid pair becomes ACTIVE (R349): shapers and meters full, its chords reset, the copied state taken up while the copy
is complete; the first bridge carries the standing map. A self-fenced engine's pairs stay STANDBY (R334). -/
def State.pairActivate (s : State) (c : Nat) : State :=
  if !s.pairValid c || s.pairActive c || s.twin.fence then s
  else
    let complete := s.on F.TWN_STAT_COMPLETE 0
    let head := s.role c == roleHead
    let s := if complete && head then s.loadMaps c (s.rd F.CH_LTICK_NUM c) else s
    let s := (s.wr (F.TWN_PAIR_STATE c) 0 1).inc F.TWN_SWITCHES 0
    let s := ((s.shpFillChannel c).mtrFillOct (octOf c)).resetChordsOf c
    let s := if !complete then s else if head then s.loadHead c else s.loadTerm c
    s.modTree c (fun t => { t with comp := none })

/-- A valid pair switched to STANDBY. -/
def State.pairRetire (s : State) (c : Nat) : State :=
  if s.pairValid c && s.pairActive c then (s.goStandby c).inc F.TWN_SWITCHES 0 else s

/-- A pair switched. -/
def State.pairSwitch (s : State) (c : Nat) (toActive : Bool) : State := if toActive then s.pairActivate c else s.pairRetire c

/-! ### Handovers (R341) -/

/-- The codes of TWN_SWITCH.RESULT. -/
def swDone : Nat := 1
def swPending : Nat := 2
def swRefused : Nat := 3

/-- RESULT of the requester whose request decides; 19 stands for none. -/
def State.switchResult (s : State) (req r : Nat) : State := if req ≤ 18 then s.wr F.TWN_SWITCH_RESULT req r else s

def State.hand (s : State) (c : Nat) : Option Hand := tget (fun _ => none) s.twin.hands c
def State.setHand (s : State) (c : Nat) (h : Option Hand) : State :=
  { s with twin := { s.twin with hands := tput (fun _ => none) s.twin.hands c h } }

/-- Whether the partner has acknowledged a record. -/
def State.acked (s : State) (seq : Nat) : Bool := decide ((s.rd F.TWN_COPY_ACK 0 + 2 ^ 32 - seq) % 2 ^ 32 < 2 ^ 31)

/-- Whether a handover's acknowledgement is there one line tick before T - GAP: at its sender the partner's ACK_SEQ, at its receiver
the ACK_SEQ of the bridges on their way (DESIGN CHOICE, log entry 92). -/
def State.handAcked (s : State) (h : Hand) : Bool :=
  if h.req != 19 then s.acked h.seq else decide ((s.twin.said.2.1 + 2 ^ 32 - h.seq) % 2 ^ 32 < 2 ^ 31)

/-- A line tick begins on a channel under handover: one line tick before T - GAP both engines abandon one that is not
acknowledged, and a self-fenced engine takes none up (R334); the leaving side goes dark at T - GAP, and the other becomes ACTIVE
at T. -/
def State.handover (s : State) (c ltn : Nat) : State :=
  match s.hand c with
  | none => s
  | some h =>
    let last := (h.t + 2 ^ 32 - h.gap - 1) % 2 ^ 32
    if (ltn = last && !s.handAcked h) || (s.twin.fence && h.toActive) then (s.setHand c none).switchResult h.req swRefused
    else if ltn = (if h.toActive then h.t else (last + 1) % 2 ^ 32) then
      ((s.setHand c none).pairSwitch c h.toActive).switchResult h.req swDone
    else s

end Sys2Proof.Machine
end

