-- ==== Sys2Proof/Machine/TickFrame.lean ====
section
/-!
DEFINITION. The tick frame of a tree (03_tick_frame): composing a bridge (R70 to R80), receiving one (R72, R81, R82, R87 to
R93, R119, R134, R369), and the work of a line tick (R21, R146, R225, R267).
-/

namespace Sys2Proof.Machine
open Host (Outcome)

/-! ### Composing a bridge (R70) -/

/-- What a bridge carries beside FAW and its check fields. `msg` is blocks 5 to 12. -/
structure BridgeFields where
  ltn : Nat
  j : Nat
  time : Nat
  domain : Nat
  srq : Nat
  flags : Nat
  kcm : Nat
  msg : List Byte
  fmap : List Nat
  deriving DecidableEq, Repr

/-- The 512 bytes of a bridge. -/
def BridgeFields.bytes (b : BridgeFields) : List Byte :=
  let jc := jCode b.j
  let h := toBytes (bytesBE 4 b.ltn ++ [b.ltn % 64 * 4, jc])
  let x := toBytes (bytesBE 8 0xA74C1D93F05E6B28) ++ h ++ toBytes (bytesBE 2 (crc16 h)) ++
    toBytes (bytesBE 6 (pegSec b.time) ++ bytesBE 4 (pegNs b.time) ++ bytesBE 2 (pegFrac b.time) ++ [b.domain, 0, 0, 0]) ++
    toBytes (bytesBE 2 b.srq ++ [b.flags, jc] ++ bytesBE 4 b.kcm) ++ b.msg ++ toBytes (b.fmap.flatMap (bytesBE 8)) ++
    List.replicate 80 0 ++ toBytes [jc, 0, 0, 0]
  x ++ toBytes (bytesBE 4 (crc32 x))

/-- The bridge's flags (R73, R74, R328). -/
def State.bridgeFlags (s : State) (p : Nat) (rdi : Bool) : Nat :=
  (if rdi then 128 else 0) + (if s.pegLocked p then 64 else 0) + (if s.rd F.PEG_SRV_STAT_STATE p = svHoldover then 32 else 0)

/-- The J that brings the launch of the next line tick closest to its target (R19, R80), for a launch at a time of a
peg in 2^-48 ns: 1,250 codewords are 32,000 device cycles. -/
def State.chooseJ (s : State) (p launch : Nat) : Nat :=
  let inc := s.pegInc p
  let next := launch + 32000 * inc
  let target := (next + unitTick / 2) / unitTick * unitTick
  let d : Int := 5 * ((target : Int) - (next : Int))
  if 64 * (inc : Int) < d then jPos else if d < -(64 * (inc : Int)) then jNeg else jZero

/-! ### Payload key changes (R369) -/

/-- CUR of a terminal record of keys moved on, and whether it holds a key. -/
def State.advanceCur (s : State) (c t : Nat) : State :=
  let cur := (s.rd (F.CH_PP_CUR t) c + 1) % 4
  ((s.wr (F.CH_PP_CUR t) c cur).wrB (F.CH_PP_CUR_VALID t) c (bit (s.rd (F.CH_PP_INSTALLED t) c) cur)).inc F.CH_PP_CHANGES c

/-- The terminals whose CHANGE is set, as bits. -/
def State.changeMask (s : State) (c : Nat) : Nat :=
  (List.range 32).foldl (fun v t => if s.on (F.CH_PP_CHANGE t) c then v + 2 ^ t else v) 0

/-- KCM of a head end's next bridge: at a superframe boundary the announced changes act, and the rest are announced. -/
def State.headKcm (s : State) (c ltn : Nat) : Nat × State :=
  let was := tget (fun _ => 0) s.img.kcm c
  let s := if ltn % 64 = 0 then
      (bitsSet 32 was).foldl (fun s t => (s.advanceCur c t).wr (F.CH_PP_CHANGE t) c 0) s
    else s
  let m := s.changeMask c
  (m, { s with img := { s.img with kcm := tput (fun _ => 0) s.img.kcm c m } })

/-- A terminal's key change: at a superframe boundary, where a bridge of the superframe before announced it. -/
def State.termKcm (s : State) (c ltn : Nat) (bridge : Option (List Byte)) : State :=
  let seen := tget (fun _ => false) s.img.kseen c
  let s := if ltn % 64 = 0 && seen then s.advanceCur c 0 else s
  let now := match bridge with
    | none => false
    | some b => s.on F.CH_TF_CFG_TID_VALID c && bit (Br.kcm b) (s.rd F.CH_TF_CFG_TID c)
  let keep := (seen && ltn % 64 != 0) || now
  { s with img := { s.img with kseen := tput (fun _ => false) s.img.kseen c keep } }

/-! ### BRIDGE_LAUNCH of a tree -/

/-- CH_LTICK_OFS, CH_LTICK_NUM and the counts of R21 for a line tick that begins at a peg-0 time in 1/16 ns (R20). OFS is taken
modulo 16 µs, which its range of 0 to 255,999 wants where R18 has lengthened the core tick and the line tick begins 16 µs or more
after its boundary (DESIGN CHOICE, log entry 121). -/
def State.beginLineTick (s : State) (c ltn stamp : Nat) : State :=
  let ofs := (((stamp : Int) - (s.eng.lastB / unit16 : Nat)) % 256000).toNat
  let s := ((s.wr F.CH_LTICK_OFS_VALID c 1).wr F.CH_LTICK_OFS_OFS c ofs).wr F.CH_LTICK_NUM c ltn
  (s.wr F.CH_TF_STAT_SFP c (ltn % 64)).modFramer c (fun f => { f with begins := f.begins + 1, due := f.due + 1 })

/-- The keepalives that a head end owes at the end of its line tick, for the room that is left (R203). -/
def State.headKeeps (s : State) (c ltn : Nat) : List (Nat × Nat) → State
  | [] => s
  | (ch, i) :: l =>
    let block := (s.tree c).busyTo
    if s.tickBlocks c < block + keepBlocks then s
    else
      let r := s.sealFrame c 0 (s.rd (F.QSH_CHORD_M_TID ch i) 0) (s.on (F.QSH_CHORD_M_BC ch i) 0) false ltn block
        (keepFrame ch s.now4)
      let s := match r.1 with
        | none => r.2
        | some out => ((r.2.modTree c (fun t => { t with busyTo := block + keepBlocks })).putFrame c block out).emit (.treeFrame c out)
      s.headKeeps c ltn l

/-- The end of a head end's line tick: the keepalives that it owes, and what it sent leaves coded. -/
def State.endLineTick (s : State) (c : Nat) : State :=
  let s := match (s.tree c).line with
    | none => s
    | some (ltn, _) => if s.canSend c then
        s.headKeeps c ltn (s.keepChords c (fun q => tget (fun _ => false) s.store.sent q)) else s
  let s := s.sendLineTick c (s.tickBlocks c)
  { s with store := { s.store with sent := s.store.sent.filter (fun e => e.1 / 64 != c) } }

/-- The number of the line tick that a head end begins (R78), launched at a time of its bound peg. -/
def State.headLtn (s : State) (c launch : Nat) : Nat :=
  match (s.tree c).line with
  | none => launch / unitTick % 2 ^ 32
  | some (n, _) => (n + 1) % 2 ^ 32

/-- The map of a bridge, copied to the partner before the launch and noted as sent (R146, R150; the FMAP record). -/
def State.bridgeMap (s : State) (c ltn : Nat) : List Nat × State :=
  let m := s.takeMap c ltn
  let ws := mapWords m.1
  let s := if m.2.copies c then m.2.copyRec rcFmap (recIndex c 0) (toBytes (bytesBE 4 ltn ++ ws.flatMap (bytesBE 8))) else m.2
  (ws, s.mapSent c ((ltn + s.leadH c) % 2 ^ 32) m.1)

/-- The bridge of a head end's line tick sent (R70 to R80): with its map, which counts as granted as the bridge leaves (R150). A
transmitter that cannot send sends no bridge, and the map composed for it is dropped. -/
def State.sendBridge (s : State) (c p ltn j launch kcm : Nat) : State :=
  if !s.canSend c then s.modTree c (fun t => { t with comp := none })
  else
    let m := s.bridgeMap c ltn
    let b := m.2.bmTake c
    let s := b.2
    let bytes := BridgeFields.bytes
      { ltn, j, time := launch, domain := s.rd F.CH_TF_CFG_DOMAIN c,
        srq := s.rd F.CH_SRQ_TX_SRQ1 c * 256 + s.rd F.CH_SRQ_TX_SRQ2 c,
        flags := s.bridgeFlags p (s.on F.CH_DEF_STAT_LOS c), kcm, msg := b.1, fmap := m.1 }
    (s.putBridge c bytes).emit (.bridge c j bytes)

/-- A head end begins a line tick (R19, R70 to R80). A STANDBY one keeps number and phase and sends nothing (R345). -/
def State.headBridge (s : State) (c : Nat) : State :=
  let s := s.endLineTick c
  let p := s.boundPeg c
  let lat := s.latency c true
  let launch := ((s.pegTime p : Int) + lat * (unit16 : Int)).toNat
  let ltn := s.headLtn c launch
  let j := s.chooseJ p launch
  let s := s.modTree c (fun t => { t with line := some (ltn, s.pegs.cyc, launch), busyTo := 64 })
  let s := (s.modFramer c (fun f => { f with j, started := true })).wr F.CH_TF_STAT_LAST_J c j
  let s := if j = jPos then s.inc F.CH_TF_JC_POS c else if j = jNeg then s.inc F.CH_TF_JC_NEG c else s
  let s := (s.beginLineTick c ltn (shift16 s.now16 lat)).handover c ltn
  if !s.pairActive c then s
  else
    let k := s.headKcm c ltn
    (k.2.sendBridge c p ltn j launch k.1).latchReports c ((ltn + 1 + s.leadH c) % 2 ^ 32)

/-- BRIDGE_LAUNCH on a line lane. -/
def treeBridgeLaunch (c : Nat) (s : State) : State :=
  if s.role c == roleHead && s.octRuns (octOf c) then s.headBridge c else s

/-! ### BRIDGE_RECEIVED -/

/-- The view of a bridge behind a line tick of a J. -/
def viewFor (j : Nat) (short same long : BridgeView) : BridgeView := if j = jPos then long else if j = jNeg then short else same

/-- Whether a view's block 0 matches FAW (R87). -/
def viewFaw (v : BridgeView) : Bool := fawMatches v.block0.toNat

/-- A candidate rejected (R88). -/
def State.falseCand (s : State) (l : Nat) : State :=
  (if isSurok l then s else s.inc F.CH_TF_FALSE_CAND l).framerHunt l

/-- The presync check of the next header (R88). The answer is whether the framer enters SYNC with this bridge. -/
def State.presync (s : State) (l : Nat) (short same long : BridgeView) : State × Bool :=
  let f := s.framer l
  let v := if f.pre = 0 then same else viewFor f.pJ short same long
  let j := jDecide (Br.jc v.bytes)
  let next := (f.pLtn + 1) % 2 ^ 32
  let ok := Br.hcrcOk v.bytes && (f.pre == 0 || (viewFaw v && Br.ltn v.bytes == next)) && (f.pre == 2 || j != jUndecided)
  if !ok then (s.falseCand l, false)
  else if f.pre < 2 then (s.modFramer l (fun f => { f with pre := f.pre + 1, pLtn := Br.ltn v.bytes, pJ := j }), false)
  else (s, true)

/-- The bridge of a boundary in SYNC (R89): the view at the position taken, whether FAW matched there, and the J that the
line tick before is now known to have had. Where J is undecided and FAW matches at more than one of the three positions, 100,000
blocks come before 100,080 and these before 99,920: the spec names no order (DESIGN CHOICE, log entry 122). -/
def State.boundary (s : State) (l : Nat) (short same long : BridgeView) : BridgeView × Bool × Nat :=
  let j := (s.framer l).j
  if j = jUndecided then
    if viewFaw same then (same, true, jZero) else if viewFaw long then (long, true, jPos) else if viewFaw short then (short, true, jNeg)
    else (same, false, jZero)
  else let v := viewFor j short same long; (v, viewFaw v, j)

/-- DDN from an arrival stamp in the bound peg and a bridge's time message (R119), and the TREE sample (R244). -/
def State.timeMessage (s : State) (c stampB : Nat) (b : List Byte) : State :=
  let sent : Nat := (Br.tmSec b * 10 ^ 9 + Br.tmNs b) * 16 + Br.tmFrac b / 4096
  let d : Int := (stampB : Int) - (sent : Int)
  let ddn := clampInt 0 (2 ^ 31 - 1) d
  let p := s.boundPeg c
  let dom := Br.domain b == s.rd F.CH_TF_CFG_DOMAIN c
  let valid := dom && Br.tmv b && !Br.holdover b && s.pegLocked p && ddn == d
  let s := (s.wr F.CH_TERM_DDN_DDN c ddn.toNat).wrB F.CH_TERM_DDN_VALID c valid
  if dom && Br.tmv b && s.on F.CH_PTP_TDLY_VALID c && s.source p == srcTree && s.rd F.PEG_SRV_CFG_SRC_IDX p == c then
    s.giveSample p (ddn - (s.rd F.CH_PTP_TDLY_DLY c : Int))
  else s

/-- A bridge message that reaches a terminal (R77). -/
def State.bridgeMessage (s : State) (c : Nat) (m : List Byte) : State :=
  let a := byteAt m 0
  if bit a 7 && (bit a 6 || (s.on F.CH_TF_CFG_TID_VALID c && a % 32 == s.rd F.CH_TF_CFG_TID c)) then s.bmEnqueue c m else s

/-- A fret map stored (R134). -/
def State.storeMap (s : State) (c : Nat) (b : List Byte) : State :=
  s.modTree c (fun t => { t with ring := tput (fun _ => (0, [])) t.ring (Br.ltn b % 128) (Br.ltn b, Br.fmap b) })

/-- What a bridge that passes BCRC gives a terminal. -/
def State.useBridge (s : State) (c stampB : Nat) (b : List Byte) : State :=
  let s := s.modFramer c (fun f => { f with seen := { f.seen with rdi := judge (Br.rdi b) } })
  ((((s.srqReceive c 0 (some (Br.srq b))).timeMessage c stampB b).bridgeMessage c (Br.bmsg b)).storeMap c b)

/-- The tick header at a boundary (R91): the flywheel's number, LOSF where a valid header is a bad tick or a good one, and
what the setting of LOSF does (R91, R121). -/
def State.tickHeader (s : State) (c ltn : Nat) (b : List Byte) : Nat × State :=
  if !Br.hcrcOk b then
    (ltn, (s.inc F.CH_TF_HCRC_ERR c).modFramer c (fun f => { f with seen := { f.seen with errored := true } }))
  else
    let was := s.on F.CH_DEF_STAT_LOSF c
    let s := s.evalLosf c (judge (Br.ltn b != ltn || Br.sfp b != Br.ltn b % 64))
    if s.on F.CH_DEF_STAT_LOSF c && !was then
      (Br.ltn b, (s.modTree c (fun t => { t with ring := [], armed := false })).wr F.CH_TERM_EQD_PEND c 0)
    else (ltn, s)

/-- The J decided for a line tick, counted (R80, R82). -/
def State.countJ (s : State) (c j : Nat) : State :=
  let s := (s.modFramer c (fun f => { f with j })).wr F.CH_TF_STAT_LAST_J c j
  if j = jPos then s.inc F.CH_TF_JC_POS c else if j = jNeg then s.inc F.CH_TF_JC_NEG c
  else if j = jUndecided then s.inc F.CH_TF_JC_UNDEC c else s

/-- The first line tick of a terminal under a new binding has no valid DDN (R242). -/
def State.firstBinding (s : State) (c : Nat) : State :=
  if (s.framer c).rebound then (s.wr F.CH_TERM_DDN_VALID c 0).modFramer c (fun f => { f with rebound := false }) else s

/-- A boundary of a terminal in SYNC, its line tick numbered `ltn` by the flywheel (R72, R89 to R93). -/
def State.syncBridge (s : State) (c ltn : Nat) (v : BridgeView) (faw follows : Bool) : State :=
  let b := v.bytes
  let f := s.framer c
  let miss := if faw then 0 else f.miss + 1
  let hdr := Br.hcrcOk b
  let s := if faw then s else s.inc F.CH_TF_FAW_MISS c
  let s := s.modFramer c (fun f => { f with
    miss, deliver := faw || hdr,
    seen := { f.seen with faw := judge (!faw), errored := f.seen.errored || !(faw || hdr) } })
  let h := s.tickHeader c ltn b
  let ltn := h.1
  let j := jDecide (Br.jc b)
  let s := ((h.2.countJ c j).beginRxTick c).arrive c ltn (80 * jCodewords j) follows v.ago
  let s := (s.beginLineTick c ltn (s.rxStamp c v.ago)).handover c ltn
  let ok := Br.bcrcOk b
  let s := if ok then s.useBridge c (match (s.tree c).arr.head? with | some a => a.stampB | none => 0) b
    else ((s.inc F.CH_TF_BCRC_ERR c).srqReceive c 0 none).modFramer c (fun f => { f with seen := { f.seen with errored := true } })
  let s := (s.termKcm c ltn (if ok then some b else none)).firstBinding c
  if 4 ≤ miss then s.framerHunt c else s

/-- The line tick before is known to have held what a J says (R89). -/
def State.fixLength (s : State) (c j : Nat) : State :=
  s.modTree c (fun t => { t with arr := match t.arr with | [] => [] | a :: l => { a with blocks := 80 * jCodewords j } :: l })

/-- BRIDGE_RECEIVED (R72, R88, R89). -/
def bridgeReceived (c : Nat) (short same long : BridgeView) (s : State) : State :=
  if s.role c != roleTerm || !s.octRuns (octOf c) || !s.rxPowered c then s
  else
    let old := s.defWords c
    let al := s.rdP (tfAlign c)
    if al = alPresync then
      let v := viewFor (s.framer c).pJ short same long
      let r := s.presync c short same long
      if !r.2 then r.1
      else
        let s := ((r.1.wrP (tfAlign c) alSync).modFramer c (fun f => { f with noWrap := true, miss := 0 })).srqReset c
        ((s.rejoin c).syncBridge c (Br.ltn v.bytes) v true false).defectsChanged c old
    else if al = alSync then
      let b := s.boundary c short same long
      let s := if (s.framer c).j = jUndecided then s.fixLength c b.2.2 else s
      (s.syncBridge c ((s.rd F.CH_LTICK_NUM c + 1) % 2 ^ 32) b.1 b.2.1 true).defectsChanged c old
    else s

/-! ### LINE_TICK_WORK (R21) -/

/-- The sequencer cycles of a channel's work (Table: Sequencer cycles per channel per line tick). -/
def workCycles (role : Nat) : Nat :=
  if role = roleHead then 2272 else if role = roleTerm then 1120 else if role = roleClient then 544 else 0

/-- A standby offset loses its lock where every terminal granted in the last superframe shows LOB (R346). -/
def State.checkLock (s : State) (c ltn : Nat) : State :=
  let ts := ((List.range 64).flatMap (fun i => ((s.mapOf c ((ltn + 2 ^ 32 - i) % 2 ^ 32)).filter (fun e => !e.isOpen)).map
    (·.tid))).eraseDups
  if !ts.isEmpty && ts.all (bit (s.rd F.CH_DEF_LOB c)) then s.wr (F.TWN_SOFS_LOCK c) 0 0 else s

/-- What a head end's work holds beside the common part: the composition (R146), the copy once a superframe, and the
standby's lock. -/
def State.headWork (s : State) (c : Nat) : State :=
  match (s.tree c).line with
  | none => s
  | some (ltn, _) =>
    let s := if s.pairActive c then s.compose c ((ltn + 1) % 2 ^ 32) else if ltn % 64 = 0 then s.checkLock c ltn else s
    if ltn % 64 = 0 then (List.range 32).foldl (fun s t => s.copyTrec c t) s else s

/-- One run of a channel's work. -/
def State.channelWork (s : State) (c : Nat) : State :=
  let r := s.role c
  let s := if r = roleHead || r = roleTerm then s.evaluate c else s
  let s := (s.sampleChannel c).countDeepHol c
  let s := if r = roleHead then s.headWork c
    else if r = roleTerm then (if s.rd F.CH_LTICK_NUM c % 64 = 0 then s.copyTerm c else s)
    else s.pauseTick c
  let o := octOf c
  let q := s.seqOf o
  s.setSeq o { q with work := q.work + workCycles r }

/-- LINE_TICK_WORK (R21): a run that is due. -/
def lineTickWork (c : Nat) (s : State) : State :=
  if (s.framer c).due = 0 || s.role c = roleOff || !s.octRuns (octOf c) then s
  else (s.modFramer c (fun f => { f with due := f.due - 1 })).channelWork c

/-- LINE_TICK_WORK. -/
def execLineTickWork (c : Fin 64) (s : State) : Outcome State Fault Refusal := done s (lineTickWork c s)
/-- BRIDGE_RECEIVED. -/
def execBridgeReceived (c : Fin 64) (short same long : BridgeView) (s : State) : Outcome State Fault Refusal :=
  done s (bridgeReceived c short same long s)

end Sys2Proof.Machine
end

