-- ==== Sys2Proof/Machine/Twin.lean ====
section
/-!
DEFINITION. The Surok link and the twin agent (13_twin): Surok bridges (R327, R328), the link's frames (R329, R331), the
sympathetic copy (R342 to R344), heartbeat and TWIN_ALIVE (R333 to R335), declarations (R336, R339), and switches (R341).
-/

namespace Sys2Proof.Machine
open Host (Outcome)

/-! ### What a Surok bridge carries (R328) -/

/-- Whether a sequence number is reached by another, both modulo 2^32. -/
def seqLe (a b : Nat) : Bool := decide ((b + 2 ^ 32 - a) % 2 ^ 32 < 2 ^ 31)

/-- TWN_STAT.COPY (R343). -/
def State.copyState (s : State) : Nat :=
  if !s.copying then 0
  else if s.twin.resyncDue || s.twin.resync.isSome then 1
  else if s.twin.buf.all (fun e => match e.2 with | none => true | some t => decide (s.eng.tick ≤ t + 1)) then 2
  else 3

/-- PAIR_ACT. -/
def State.ownPairAct (s : State) : Nat :=
  (List.range 64).foldl (fun v c => if s.pairValid c && s.on (F.TWN_PAIR_STATE c) 0 then v + 2 ^ c else v) 0

/-- HSTAT. -/
def State.hstat (s : State) : Nat :=
  (if s.eng.devLate = 0 && !s.fout then 128 else 0) + (if s.on F.TWN_STAT_HB_OK 0 then 64 else 0) + 16 * s.strap +
    (if s.on F.TWN_STAT_RULE_MASTER 0 then 8 else 0) + s.copyState

/-- Lane latencies of a Surok lane in 1/16 ns (TWN_L_STAMP). -/
def State.surokTx (s : State) (i : Nat) : Nat := s.rd (surokFld i 0x2C 15 0) 0
def State.surokRx (s : State) (i : Nat) : Nat := s.rd (surokFld i 0x2C 31 16) 0

/-- Blocks 5 to 12 of a Surok bridge of a lane: HB, HSTAT, ACK_SEQ and PAIR_ACT as the line tick has them. -/
def State.surokMsg (s : State) (i : Nat) : List Byte :=
  let e := tget (fun _ => (0, 0)) s.twin.echo i
  let x := s.twin.said
  toBytes (bytesBE 4 s.twin.hb ++ [x.1, 0, 0, 0] ++ bytesBE 8 e.1 ++ bytesBE 8 e.2 ++ bytesBE 4 x.2.1 ++
    [0, 0, 0, 0] ++ bytesBE 8 x.2.2 ++ bytesBE 8 x.2.2 ++ List.replicate 16 0)

/-- The number of the line tick that a lane begins, launched at a time of peg 0 (R78). -/
def State.surokLtn (s : State) (i launch : Nat) : Nat :=
  match tget (fun _ => 0) s.twin.lineTick i with
  | 0 => launch / unitTick % 2 ^ 32
  | n => n % 2 ^ 32

/-- BRIDGE_LAUNCH on a Surok lane (R327): the line tick before leaves coded, and another begins; HB counts the line ticks and the
first lane of one takes HSTAT, ACK_SEQ and PAIR_ACT for all (R328). -/
def surokLaunch (i : Nat) (s : State) : State :=
  if !s.paired || s.rdP (lanePWR (64 + i)) != pwrOn then s
  else
    let launch := s.pegTime 0 + s.surokTx i * unit16
    let ltn := s.surokLtn i launch
    let j := s.chooseJ 0 launch
    let begun := s.twin.lineTick.any (fun e => e.1 != i && e.2 == ltn + 1)
    let hb := if begun then s.twin.hb else (s.twin.hb + 1) % 2 ^ 32
    let said := if begun then s.twin.said else (s.hstat, s.twin.rxSeq, s.ownPairAct)
    let s := { s with twin := { s.twin with hb, said, lineTick := tput (fun _ => 0) s.twin.lineTick i (ltn + 1) } }
    let l := 64 + i
    let s := (s.sendLineTick l (s.lane l).tx.blocks).modLane l (fun x => { x with tx := { x.tx with
      launched := s.pegs.cyc, blocks := 80 * jCodewords j, busyTo := 64 } })
    let bytes := BridgeFields.bytes
      { ltn, j, time := launch, domain := 0, srq := 0, flags := s.bridgeFlags 0 (s.onP (defFld l 0)), kcm := 0,
        msg := s.surokMsg i, fmap := List.replicate 40 0 }
    (s.putBridge l bytes).emit (.bridge l j bytes)

/-! ### Records of registers, tables and exact operations (REG, TBL, EM) -/

/-- The channel and queue offsets whose fields the copy carries: the grant, discovery, framer, scheduler, gate and queue
fields of 13_twin, without DEPTH, which belongs to each engine. -/
def copyRanges : List (Nat × Nat) :=
  [(0x40300, 0x40340), (0x40484, 0x4048C), (0x40900, 0x40B00), (0x40D00, 0x40D44), (0x41200, 0x41310), (0x41400, 0x41418),
   (0x70100, 0x7011C)]

/-- The admin gate entries. -/
def isGateEntry (off : Nat) : Bool := decide (0x42000 ≤ off) && decide (off < 0x42800)

/-- The bits that a REG record carries of a register: its RWT fields without LEAD_MIN, or an admin gate entry. -/
def copyMask (off : Nat) : Nat :=
  match findRow off with
  | none => 0
  | some r =>
    if isGateEntry off then accMask r.flds (· == .rw)
    else if copyRanges.any (fun x => decide (x.1 ≤ off) && decide (off < x.2)) then
      let m := rwtMask r
      if off = F.CH_TREE_CFG_LEAD_MIN.off then
        m - (m &&& ((2 ^ F.CH_TREE_CFG_LEAD_MIN.width - 1) <<< F.CH_TREE_CFG_LEAD_MIN.lo))
      else m
    else 0

/-- The register offsets that the copy carries of a channel: gate entries first, so that they stand before what activates
them. -/
def copyOffsets : List Nat :=
  (List.range 512).map (fun i => 0x42000 + 4 * i) ++
    (copyRanges.dropLast.flatMap (fun x => (List.range ((x.2 - x.1) / 4)).map (fun i => x.1 + 4 * i))).filter
      (fun o => copyMask o != 0)

/-- The queue offsets that the copy carries. -/
def copyQueueOffsets : List Nat := (List.range 7).map (fun i => 0x70100 + 4 * i) |>.filter (fun o => copyMask o != 0)

/-- One REG record: window offset, with the queue of the channel above it, and value. -/
def State.copyReg (s : State) (c k off : Nat) : State :=
  let inst := if off / 0x10000 = 7 then 64 * c + k else c
  s.copyRec rcReg (recIndex c 0) (toBytes (bytesBE 4 (k * 2 ^ 26 + off) ++ bytesBE 4 (s.reg inst off).toNat))

/-- The REG records of a channel for registers that `changed` names, as (instance, offset). -/
def State.copyRegs (s : State) (c : Nat) (changed : Nat → Nat → Bool) : State :=
  let s := copyOffsets.foldl (fun s o => if changed c o then s.copyReg c 0 o else s) s
  (List.range 64).foldl (fun s k => copyQueueOffsets.foldl (fun s o =>
    if changed (64 * c + k) o then s.copyReg c k o else s) s) s

/-- The offset of CLS_EPOCH. -/
def epochOff : Nat := F.CLS_EPOCH_CUR.off

/-- The REG records of a commit boundary: of every channel copied, what changed in effect, with the admin gate entries where
it activates them; and of engine A's rules the epoch (R344). -/
def State.copyCommit (s old : State) : State :=
  let s := (List.range 64).foldl (fun s c =>
    if !s.copies c then s
    else
      let gates := s.gateKey c != old.gateKey c
      s.copyRegs c (fun inst o => if isGateEntry o then gates else s.reg inst o != old.reg inst o)) s
  if s.copiesRules && s.rd F.CLS_EPOCH_CUR 0 != old.rd F.CLS_EPOCH_CUR 0 then
    s.copyRec rcReg 0 (toBytes (bytesBE 4 epochOff ++ bytesBE 4 (s.reg 0 epochOff).toNat))
  else s

/-- The first bytes of the entries of the tables that hold anything. -/
def State.tableEntries (s : State) : List (Nat × Nat) := (s.cls.tbl.filterMap (fun e => entryOf e.1)).eraseDups

/-- The EM record that inserts an exact entry. -/
def emRecord (e : EmEnt) : List Byte :=
  let ctl := setF (setF (if e.wide then 2 ^ 24 else 0) F.CLS_EM_CTL_PROF e.prof) F.CLS_EM_CTL_OP 0
  let act := setF (setF 0 F.CLS_EM_ACT_EPOCHS e.epochs) F.CLS_EM_ACT_ACT e.act
  toBytes (bytesBE 4 ctl.toNat ++ bytesBE 4 act.toNat) ++ padKey 64 e.key

/-- The whole copy of one channel. -/
def State.copyChannel (s : State) (c : Nat) : State :=
  if !s.copies c then s
  else
    let s := s.copyRegs c (fun _ _ => true)
    let s := if s.role c = roleHead then (List.range 32).foldl (fun s t => s.copyTrec c t) s else s.copyTerm c
    if s.role c != roleHead then s
    else
      (List.range (s.leadH c)).foldl (fun s i =>
        let ltn := (s.rd F.CH_LTICK_NUM c + 2 ^ 32 - (s.leadH c - 1 - i)) % 2 ^ 32
        s.copyRec rcFmap (recIndex c 0) (toBytes (bytesBE 4 ltn ++
          (mapWords (s.mapOf c ((ltn + s.leadH c) % 2 ^ 32))).flatMap (bytesBE 8)))) s

/-- A resync (R343): RESYNC_BEGIN, the whole copy, RESYNC_END. -/
def State.startResync (s : State) : State :=
  let s := { s with twin := { s.twin with buf := [], whole := [], resyncDue := false, resync := some 0 } }.inc F.TWN_RESYNCS 0
  let s := s.copyRec rcBegin 0 []
  let s := (List.range 64).foldl State.copyChannel s
  let s := s.copyRec rcReq 0 (toBytes (bytesBE 32 s.localReqs))
  let s := if s.copiesRules then
      let s := s.tableEntries.foldl (fun s e => s.copyRec rcTbl 0 (toBytes (bytesBE 4 e.1) ++ s.tblBytes e.1 e.2)) s
      let s := s.cls.em.foldl (fun s e => s.copyRec rcEm 0 (emRecord e)) s
      s.copyRec rcReg 0 (toBytes (bytesBE 4 epochOff ++ bytesBE 4 (s.reg 0 epochOff).toNat))
    else s
  s.copyRec rcEnd 0 []

/-- ACK_SEQ of the partner: acknowledged records leave the copy buffer, and what a resync still has to send takes their room. -/
def State.takeAck (s : State) (ack : Nat) : State :=
  let s := if seqLe (s.rd F.TWN_COPY_ACK 0) ack && seqLe ack (s.rd F.TWN_COPY_SEQ 0) then s.wr F.TWN_COPY_ACK 0 ack else s
  let a := s.rd F.TWN_COPY_ACK 0
  let resync := match s.twin.resync with | some e => if e != 0 && seqLe e a then none else some e | none => none
  { s with twin := { s.twin with
      resync, buf := s.twin.buf.filter (fun e => e.2.isNone || !seqLe e.1.seq a) } }.refill s.twin.whole.length

/-- The boundaries after which a record sent and not acknowledged shows its sender that the receiver has met a gap: the spec gives no
number (DESIGN CHOICE, log entry 93). -/
def ackWait : Nat := 64

/-- A gap in SEQ as its sender sees it (R343): the oldest record sent is not acknowledged. -/
def State.copyStalled (s : State) : Bool :=
  s.twin.buf.any (fun e => match e.2 with | none => false | some t => decide (t + ackWait ≤ s.eng.tick))

/-! ### Records applied (R343) -/

/-- The own channel that is paired with a channel of the partner. -/
def State.ownChannel (s : State) (pc : Nat) : Option Nat :=
  (List.range 64).find? (fun c => s.pairValid c && s.rd (F.TWN_PAIR_PCH c) 0 == pc)

/-- A copied register written by the twin agent, shadow and value in effect, with what follows as at a commit. -/
def State.applyReg (s : State) (c : Nat) (b : List Byte) : State :=
  let w := fieldBE b 0 4
  let off := w % 2 ^ 26
  let inst := if off / 0x10000 = 7 then 64 * c + w / 2 ^ 26 else c
  let m := BitVec.ofNat 32 (copyMask off)
  if m = 0 then s
  else
    let put (v : Word) : Word := (v &&& ~~~m) ||| (BitVec.ofNat 32 (fieldBE b 4 4) &&& m)
    let old := s
    let s := (s.setReg inst off (put (s.reg inst off))).setShadow inst off (put (s.shadow inst off))
    let s := if isGateEntry off then s else (s.gateSnapshot c).channelCommit old c
    s.foldKey 18 (rkey inst off)

/-- An exact operation of the partner's record. -/
def State.applyEm (s : State) (b : List Byte) : State :=
  let ctl := BitVec.ofNat 32 (fieldBE b 0 4)
  let o : EmOp := { req := 18, op := getF ctl F.CLS_EM_CTL_OP, ctl, actw := BitVec.ofNat 32 (fieldBE b 4 4), key := slice b 8 64 }
  let r := emApply s.cls.em o false
  let s := { s with cls := { s.cls with em := r.1 } }.wr F.CLS_EM_COUNT 0 (emUsed r.1)
  if r.2.1 = emOk then s.fold foldExact 18 0 ctl.toNat (padKey 64 o.key ++ toBytes (bytesLE 4 o.actw.toNat)) else s

/-- A table entry of the partner's record. -/
def State.applyTbl (s : State) (b : List Byte) : State :=
  match entryOf (fieldBE b 0 4) with
  | none => s
  | some (base, size) =>
    let e := padKey size (slice b 4 size)
    (s.tblPut base e).fold foldEntry 18 0 base e

/-- A handover that the partner proposes: this engine takes the other side, unless it is too late to be acknowledged. -/
def State.applyHand (s : State) (c : Nat) (b : List Byte) (seq : Nat) : State :=
  let t := fieldBE b 0 4
  let gap := fieldBE b 4 4
  if seqLe (t + 2 ^ 32 - gap - 1) (s.rd F.CH_LTICK_NUM c) then s
  else s.setHand c (some { t, gap, toActive := fieldBE b 8 4 == 0, seq, req := 19 })

/-- A record of a channel. -/
def State.applyChannelRec (s : State) (r : Rec) (c : Nat) : State :=
  let t := r.index % 32
  let x := s.twin
  if r.typ = rcTrec then { s with twin := { x with trec := tput (fun _ => []) x.trec (32 * c + t) r.body } }
  else if r.typ = rcTerm then { s with twin := { x with term := tput (fun _ => []) x.term c r.body } }
  else if r.typ = rcFmap then
    { s with twin := { x with fmap := tput (fun _ => []) x.fmap (256 * c + fieldBE r.body 0 4 % 256) r.body } }
  else if r.typ = rcKey then { s with twin := { x with keyRec := tput (fun _ => []) x.keyRec (32 * c + t) r.body } }
  else if r.typ = rcReg then s.applyReg c r.body
  else if r.typ = rcHand then s.applyHand c r.body r.seq
  else s

/-- A record in sequence. -/
def State.applyRec (s : State) (r : Rec) : State :=
  if r.typ = rcReq then { s with twin := { s.twin with preq := r.body } }
  else if r.typ = rcTbl then s.applyTbl r.body
  else if r.typ = rcEm then s.applyEm r.body
  else if r.typ = rcEnd then s.wr F.TWN_STAT_COMPLETE 0 1
  else if r.typ = rcReg && fieldBE r.body 0 4 == epochOff then
    { s with twin := { s.twin with epoch := some (getF (BitVec.ofNat 32 (fieldBE r.body 4 4)) F.CLS_EPOCH_CUR) } }
  else match s.ownChannel (r.index / 256 % 64) with
    | none => s
    | some c => s.applyChannelRec r c

/-- A gap in SEQ: records are discarded until a RESYNC_BEGIN, and the copy is not complete. -/
def State.copyGap (s : State) : State := { s with twin := { s.twin with gap := true } }.wr F.TWN_STAT_COMPLETE 0 0

/-- A record received. -/
def State.receiveRec (s : State) (r : Rec) : State :=
  if r.typ = rcBegin then { s with twin := { s.twin with gap := false, rxSeq := r.seq } }.wr F.TWN_STAT_COMPLETE 0 0
  else if s.twin.gap then s
  else if r.seq != (s.twin.rxSeq + 1) % 2 ^ 32 then s.copyGap
  else { s with twin := { s.twin with rxSeq := r.seq } }.applyRec r

/-- The records of a copy frame, up to the first pad record. -/
def recsOf : Nat → List Byte → List Rec
  | 0, _ => []
  | n + 1, b =>
    if b.length < 8 || byteAt b 0 = 0 then []
    else
      let len := 4 * byteAt b 1
      { typ := byteAt b 0, index := fieldBE b 2 2, seq := fieldBE b 4 4, body := slice b 8 len } :: recsOf n (b.drop (8 + len))

/-- COPY_RECORD_APPLY. -/
def State.copyFrame (s : State) (b : List Byte) : State := (recsOf b.length b).foldl State.receiveRec s

/-! ### Frames of the link (R329, R331) -/

/-- The queue, FWD and COPY of a Surok link header. -/
def surokQueue (f : List Byte) : Nat := fieldBE f 4 2 % 4096
def surokFwd (f : List Byte) : Bool := bit (byteAt f 1) 6
def surokCopy (f : List Byte) : Bool := bit (byteAt f 1) 2

/-- A frame of the link (R90, R329, R331), link header first, its Start `ago` sixteenths of a nanosecond ago (R247). -/
def State.takeSurokFrame (s : State) (i : Nat) (f : List Byte) (spoilt : Bool) (ago : Nat) : State :=
  if !s.paired || !s.laneRx i || !(s.framer (64 + i)).deliver then s
  else if fieldBE f 6 2 != crc16 (f.take 6) || hdrLen f < 64 || 16383 < hdrLen f || f.length != 8 + hdrLen f || spoilt then s
  else if surokCopy f then s.copyFrame (f.drop 8)
  else
    let fr := { s.arrived (f.drop 8) (shift16 s.now16 (-(s.surokRx i : Int) - ago)) 3 i with
                  tid := hdrTid f, bc := hdrBc f, prot := hdrProt f }
    if !surokFwd f then s.enterPipe fr
    else if !s.pairActive (surokQueue f / 64) then s.inc F.TWN_RX_FWD_DROP 0
    else s.admitFrame { mkQ fr 0 (surokQueue f) with tid := hdrTid f, bc := hdrBc f, prot := hdrProt f }

/-- SUROK_FRAME_RECEIVED (R331): the frame told or read from its blocks, with the block of its Start in its lane's line tick; spoilt
also where it lies in an uncorrectable codeword (R43). -/
def surokFrameReceived (i : Nat) (rx : TreeRx) (block spoilt ago : Nat) (s : State) : State :=
  let r := treeRead rx
  s.takeSurokFrame i r.1 (spoilt != 0 || r.2 != 0 || s.codewordsBad (64 + i) (block / 80)
    ((block + frameBlocks (r.1.length - 8) - 1) / 80 + 1 - block / 80)) ago

/-! ### Surok bridges received (R326, R328, R332, R333) -/

/-- The copied and echoed fields of a Surok bridge. -/
def sbHb (b : List Byte) : Nat := fieldBE b 40 4
def sbHstat (b : List Byte) : Nat := byteAt b 44
def sbEchoTx (b : List Byte) : Nat := fieldBE b 48 8
def sbEchoRx (b : List Byte) : Nat := fieldBE b 56 8
def sbAck (b : List Byte) : Nat := fieldBE b 64 4
def sbPairAct (b : List Byte) : Nat := fieldBE b 72 8

/-- The times of a bridge: echoed from now on, and with the partner's echo one sample of the link (R332). -/
def State.linkSample (s : State) (i : Nat) (b : List Byte) (ago : Nat) : State :=
  let b2 := ((Br.tmSec b * 10 ^ 9 + Br.tmNs b) * 16 + Br.tmFrac b / 4096) % 2 ^ 64
  let a2 := shift16 s.now16 (-(s.surokRx i : Int) - ago) % 2 ^ 64
  let s := { s with twin := { s.twin with echo := tput (fun _ => (0, 0)) s.twin.echo i (b2, a2) } }
  if !s.laneRx i || (sbEchoTx b = 0 && sbEchoRx b = 0) then s
  else
    let there := diff64 (sbEchoRx b) (sbEchoTx b)
    let back := diff64 a2 b2
    { s with twin := { s.twin with samples := s.twin.samples ++ [((back + there) / 2, (there - back) / 2)] } }

/-- The heartbeat that a bridge brings (R333). -/
def State.takeHeartbeat (s : State) (i : Nat) (b : List Byte) : State :=
  if s.laneRx i && bit (sbHstat b) 7 && s.twin.lastHb != some (sbHb b) then
    { s with twin := { s.twin with lastHb := some (sbHb b), seen := true, hear := bit (sbHstat b) 6 } }
  else s

/-- What a bridge that passes BCRC gives: nothing under the own strap value (R326). -/
def State.useSurok (s : State) (i : Nat) (b : List Byte) (ago : Nat) : State :=
  let strap := sbHstat b / 16 % 4
  if strap = s.strap then
    if s.on F.TWN_STAT_STRAP_ERR 0 then s else (s.wr F.TWN_STAT_STRAP_ERR 0 1).log 0x0B01 engineReq 0 [strap]
  else
    let s := { s with twin := { s.twin with pstrap := some strap, rdi := putBit s.twin.rdi i (Br.rdi b),
                                            pairAct := sbPairAct b } }
    ((s.linkSample i b ago).takeHeartbeat i b).takeAck (sbAck b)

/-- The tick header at a boundary of a Surok lane (R91): the flywheel's number, and the run of bad headers. A Surok lane shows no
LOSF: the flywheel takes the number of the header that makes the run as long as LOSF's default set count (DEDUCED, log entry
127). -/
def surokFlywheel (f : Framer) (ltn : Nat) (b : List Byte) : Nat × Run :=
  if !Br.hcrcOk b then (ltn, f.losf)
  else if Br.ltn b = ltn && Br.sfp b = Br.ltn b % 64 then (ltn, Run.zero)
  else if 4 ≤ f.losf.bad + 1 then (Br.ltn b, Run.zero)
  else (ltn, { bad := f.losf.bad + 1, good := 0 })

/-- A boundary of a Surok lane in SYNC; the framer's LTN is that of its flywheel. It is an evaluation point (R94). -/
def State.surokSync (s : State) (i ltn : Nat) (v : BridgeView) (faw : Bool) : State :=
  let l := 64 + i
  let b := v.bytes
  let miss := if faw then 0 else (s.framer l).miss + 1
  let w := surokFlywheel (s.framer l) ltn b
  let s := (s.beginRxTick l).modFramer l (fun f => { f with
    miss, pLtn := w.1, losf := w.2, j := jDecide (Br.jc b), deliver := faw || Br.hcrcOk b,
    seen := { f.seen with faw := judge (!faw) } })
  let s := s.evaluateLane l
  let s := (s.wr (F.TWN_L_TF_STAT_LAST_J i) 0 (s.framer l).j).wr (F.TWN_L_TF_STAT_SFP i) 0 ((s.framer l).pLtn % 64)
  let s := if Br.bcrcOk b then s.useSurok i b v.ago else s
  if 4 ≤ miss then s.framerHunt l else s

/-- SUROK_BRIDGE_RECEIVED (R327): the alignment of R87 to R91. -/
def surokBridgeReceived (i : Nat) (short same long : BridgeView) (s : State) : State :=
  let l := 64 + i
  if !s.paired || !s.rxPowered l then s
  else if s.rdP (tfAlign l) = alPresync then
    let v := viewFor (s.framer l).pJ short same long
    let r := s.presync l short same long
    if !r.2 then r.1
    else ((r.1.wrP (tfAlign l) alSync).modFramer l (fun f => { f with miss := 0 })).surokSync i (Br.ltn v.bytes) v true
  else if s.rdP (tfAlign l) = alSync then
    let b := s.boundary l short same long
    s.surokSync i (((s.framer l).pLtn + 1) % 2 ^ 32) b.1 b.2.1
  else s

/-- The means of a superframe's samples (R332); fewer than 16 keep the old values. -/
def State.linkMeans (s : State) : State :=
  let l := s.twin.samples
  let s := { s with twin := { s.twin with samples := [] } }
  if l.length < 16 then s.wr F.TWN_LINK_DLY_VALID 0 0
  else
    let dly := roundDiv (l.map (·.1)).sum l.length
    let ofs := roundDiv (l.map (·.2)).sum l.length
    ((s.wr F.TWN_LINK_DLY_VALID 0 1).wr F.TWN_LINK_DLY_DLY 0 (clampInt 0 (2 ^ 31 - 1) dly).toNat).wr F.TWN_PEG_OFS 0
      (codeInt 32 (satInt 32 ofs))

/-! ### Declarations (R336) -/

/-- The codes of TWN_STAT.PARTNER. -/
def ptUp : Nat := 0
def ptFailed : Nat := 1
def ptLinkLost : Nat := 2
def ptUnheard : Nat := 3

def State.partner (s : State) : Nat := s.rd F.TWN_STAT_PARTNER 0

/-- Whether a TWIN_ALIVE input is present. -/
def State.aliveAny (s : State) : Bool := s.on F.TWN_STAT_ALIVE0 0 || s.on F.TWN_STAT_ALIVE1 0

/-- The handovers under way abandoned. -/
def State.dropHands (s : State) : State :=
  s.twin.hands.foldl (fun s e => match e.2 with
    | none => s
    | some h => (s.setHand e.1 none).switchResult h.req swRefused) s

/-- A pair that is to become ACTIVE or STANDBY at the next boundary (R341, R349). -/
def State.askSwitch (s : State) (c : Nat) (toActive : Bool) (req : Nat) : State :=
  { s with twin := { s.twin with switches := s.twin.switches.filter (fun x => x.1 != c) ++ [(c, toActive, req)] } }

/-- What a declaration does to the pairs while AUTO is 1. -/
def State.declareActs (s : State) (p : Nat) : State :=
  let toActive := p == ptFailed || s.strap == 1
  (List.range 64).foldl (fun s c =>
    if !s.pairValid c then s
    else if !toActive then s.pairRetire c
    else if s.pairActive c then s else s.askSwitch c true 19) s

/-- A declaration (R336): the entry, event 9/0, the octants with STANDBY members woken (R391), the copy at rest. -/
def State.declare (s : State) (p : Nat) : State :=
  if s.partner = p then s
  else
    let s := ((s.wr F.TWN_STAT_PARTNER 0 p).log 0x0B02 engineReq 0 [p]).raise 9 0
    let s := if s.strap = 2 then s.wr F.TWN_STAT_RULE_MASTER 0 1 else s
    let s := { s with twin := { s.twin with buf := [], whole := [], resync := none, resyncDue := false, gap := true, good := 0 } }.dropHands
    let s := (List.range 8).foldl (fun s o =>
      if (List.range 8).any (fun i => s.pairValid (8 * o + i) && !s.pairActive (8 * o + i)) then s.wakeOct o wkPartner else s) s
    if s.on F.TWN_CFG_AUTO 0 then s.declareActs p else s

/-- The declaration that the inputs call for. -/
def State.declareLost (s : State) : State := s.declare (if s.aliveAny then ptLinkLost else ptFailed)

/-- HEARTBEAT_LOST (R333): three boundaries in a row without a heartbeat. -/
def heartbeatLost (s : State) : State :=
  if !s.paired || s.twin.miss < 3 || !s.on F.TWN_STAT_HB_OK 0 then s
  else
    let s := s.wr F.TWN_STAT_HB_OK 0 0
    if s.partner = ptUp then s.declareLost else s

/-- The register bit of a TWIN_ALIVE input. -/
def aliveFld (i : Nat) : Fld := if i = 0 then F.TWN_STAT_ALIVE0 else F.TWN_STAT_ALIVE1

def State.aliveIn (s : State) (i : Nat) : Alive := tget (fun _ => Alive.reset) s.twin.alive i

/-- An edge of a TWIN_ALIVE input that acts (R335): four of them 16 µs ± 1 µs apart restore the input. -/
def State.aliveEdge (s : State) (i : Nat) : State :=
  let x := s.aliveIn i
  let run := match x.last with
    | none => 1
    | some c => if c + 30000 ≤ s.pegs.cyc ∧ s.pegs.cyc ≤ c + 34000 then min 4 (x.run + 1) else 1
  let s := { s with twin := { s.twin with alive := tput (fun _ => Alive.reset) s.twin.alive i { last := some s.pegs.cyc, run } } }
  if run = 4 && !s.on (F.FLT_IN_STAT_CHATTER (18 + i)) 0 then s.wr (aliveFld i) 0 1 else s

/-- TWIN_ALIVE_EDGE (R335): an accepted edge that its input lets act (R419, R420). -/
def twinAliveEdge (i : Nat) (s : State) : State := if s.edgeWaits (18 + i) then (s.edgeTaken (18 + i)).aliveEdge i else s

/-- TWIN_ALIVE_INPUT_LOST (R335): no rising edge for 24 µs, or chattering. -/
def twinAliveInputLost (i : Nat) (s : State) : State :=
  let x := s.aliveIn i
  let due := match x.last with | none => 0 | some c => c + 48000
  let chatter := s.on (F.FLT_IN_STAT_CHATTER (18 + i)) 0
  if !s.on (aliveFld i) 0 || (!chatter && s.pegs.cyc + s.cyclesTo s.eng.nextB < due) then s
  else
    let s := if chatter then s else s.runCycles (due - s.pegs.cyc)
    let s := { s with twin := { s.twin with alive := tput (fun _ => Alive.reset) s.twin.alive i { x with run := 0 } } }
    let s := ((s.wr (aliveFld i) 0 0).inc F.TWN_ALIVE_LOSS 0).log 0x0B03 engineReq i []
    if s.aliveAny then s else s.declare ptFailed

/-- DECLARATION_END (R336): the copy restarts with a resync, pair states stay. -/
def declarationEnd (s : State) : State :=
  if !s.declared || s.twin.good < 64 || !s.aliveAny then s
  else
    let s := (s.wr F.TWN_STAT_PARTNER 0 ptUp).wr F.TWN_STAT_RULE_MASTER 0 0
    { s with twin := { s.twin with resyncDue := true } }

/-- FIRST_HEARTBEAT_TIMEOUT (R339). -/
def firstHeartbeatTimeout (s : State) : State :=
  match s.twin.since with
  | none => s
  | some t =>
    if !s.paired || s.partner != ptUnheard || s.eng.tick < t + 64 * max 1 (s.rd F.TWN_CFG_WAIT_SF 0) then s else s.declareLost

/-- TWIN_ALIVE_PULSE_END (R334): low for the rest of the tick. -/
def twinAlivePulseEnd (s : State) : State := if s.paired then s.driveAlive false else s

/-! ### The twin agent at a boundary -/

/-- The heartbeat of the boundary (R333). -/
def State.beatBoundary (s : State) : State :=
  let x := s.twin
  if x.seen then
    { s with twin := { x with seen := false, miss := 0, good := if x.hear then x.good + 1 else 0 } }.wr
      F.TWN_STAT_HB_OK 0 1
  else { s with twin := { x with miss := x.miss + 1, good := 0 } }.inc F.TWN_HB_MISS 0

/-- The pairs that neither engine reports ACTIVE go to the engine that PREF names (R339). -/
def State.decidePairs (s : State) : State :=
  let s := s.twin.fresh.foldl (fun s e =>
    let c := e.1
    let mine := s.rd (F.TWN_PAIR_PREF c) 0 + 1 == s.strap
    if s.pairValid c && !s.pairActive c && !bit s.twin.pairAct (s.rd (F.TWN_PAIR_PCH c) 0) && mine then s.pairActivate c else s) s
  { s with twin := { s.twin with fresh := [] } }

/-- Engine B gives way on a pair that both engines report ACTIVE (R339). -/
def State.dualActive (s : State) : State :=
  if s.strap != 2 then s
  else (List.range 64).foldl (fun s c =>
    if s.pairValid c && s.pairActive c && bit s.twin.pairAct (s.rd (F.TWN_PAIR_PCH c) 0) then
      (s.pairRetire c).inc F.TWN_DUAL_ACT 0
    else s) s

/-- The switches decided; one for an octant that does not run waits (R391), and a self-fenced engine refuses to become ACTIVE (R334;
RESULT is a DESIGN CHOICE, log entry 91). -/
def State.runSwitches (s : State) : State :=
  let now := s.twin.switches.filter (fun x => s.octRuns (octOf x.1))
  let s := { s with twin := { s.twin with switches := s.twin.switches.filter (fun x => !s.octRuns (octOf x.1)) } }
  now.foldl (fun s x => (s.pairSwitch x.1 x.2.1).switchResult x.2.2 (if s.twin.fence && x.2.1 then swRefused else swDone)) s

/-- A copied epoch committed by the twin agent (R344). -/
def State.commitEpoch (s : State) : State :=
  match s.twin.epoch with
  | none => s
  | some e =>
    let s := { s with twin := { s.twin with epoch := none } }.wrBoth F.CLS_EPOCH_CUR 0 e
    s.epochCommit.foldKey 18 (rkey 0 epochOff)

/-- What the twin agent does at a core-tick boundary. -/
def State.twinBoundary (s : State) : State :=
  if !s.paired || s.twin.since.isNone then s
  else
    let present := s.twin.seen
    let hear := s.twin.hear
    let s := s.beatBoundary
    let s := if present && s.partner = ptUnheard then
        { s with twin := { s.twin with resyncDue := true } }.wr F.TWN_STAT_PARTNER 0 ptUp
      else s
    let s := if present then s.dualActive else s
    let s := if present && s.partner = ptUp then (if hear then s.decidePairs else s.decidePairs.declareLost) else s
    let s := s.runSwitches.commitEpoch
    let s := if (s.twin.resyncDue || s.copyStalled) && s.partner = ptUp then s.startResync else s
    if s.holdLow then s else s.driveAlive true

/-! ### The protection agent's tables (R340) -/

/-- The switching request that an engine's pair member sends: REQ, the engine active on the tree, and the one it asks for, each 1
for A and 2 for B. -/
def srqCode (req act want : Nat) : Nat := (req % 16 * 16 + act % 4) * 256 + want % 4

/-- REQ of an accepted request; codes without a name act as NR, as SRQ_INCONSISTENT does. -/
def State.farReq (s : State) (c t : Nat) : Nat :=
  let r := s.rd (F.CH_SRQ_RX_SRQ1 t) c / 16
  if s.on (F.CH_SRQ_RX_INCONS t) c || !s.on (F.CH_SRQ_RX_VALID t) c then 0
  else if [rqDNR, rqWTR, rqSD, rqSF, rqFS, rqLO].contains r then r else 0

/-- The engine that the far end asks for: WANT of the first accepted request with a REQ of SF or more that names one. -/
def State.farWant (s : State) (c : Nat) : Option Nat :=
  ((List.range 32).find? (fun t => decide (rqSF ≤ s.farReq c t) && [1, 2].contains (s.rd (F.CH_SRQ_RX_SRQ2 t) c % 4))).map
    (fun t => s.rd (F.CH_SRQ_RX_SRQ2 t) c % 4)

/-- The partner's local request for a channel, from its REQ record. -/
def State.partnerReq (s : State) (c : Nat) : Nat :=
  let p := s.rd (F.TWN_PAIR_PCH c) 0
  byteAt s.twin.preq (p / 2) / (if p % 2 = 0 then 16 else 1) % 16

/-- The first row of Table: Protection decision that applies to the requests of members A and B and the far end's WANT: the member
that is to be active, none where it stays unchanged. -/
def protectionDecision (a b : Nat) (want : Option Nat) : Option Nat :=
  let one (p : Nat → Bool) (q : Nat → Bool) : Option Nat := if p a && !q b then some 1 else if p b && !q a then some 2 else none
  let other (m : Option Nat) : Option Nat := m.map (3 - ·)
  (other (one (· == rqLO) (· == rqLO))).orElse (fun _ => (one (· == rqFS) (· == rqFS)).orElse (fun _ => want.orElse (fun _ =>
    (other (one (· == rqSF) (· == rqSF))).orElse (fun _ => other (one (· == rqSD) (fun r => r == rqSD || r == rqSF))))))

/-- The engine that is to be active on a channel's tree, from this engine's strap, 1 for A: what the agent asks for by TWN_SWITCH. -/
def State.protectionWants (s : State) (c : Nat) : Option Nat :=
  let mine := s.localReq c
  let theirs := s.partnerReq c
  if s.strap = 1 then protectionDecision mine theirs (s.farWant c) else protectionDecision theirs mine (s.farWant c)

/-! ### TWN_SWITCH (R341) -/

/-- A handover asked of the partner by a HAND record; the engine that is to become STANDBY asks too, with TO 0 (DESIGN CHOICE, log
entry 92). -/
def State.askHand (s : State) (req c : Nat) (toActive : Bool) : State :=
  let gap := max 1 (min 80 (s.rd (F.TWN_PAIR_GAP c) 0))
  let t := (s.rd F.CH_LTICK_NUM c + 3 + gap) % 2 ^ 32
  let n := s.rd F.TWN_COPY_SEQ 0
  let s := s.copyRec rcHand (recIndex c 0) (toBytes (bytesBE 4 t ++ bytesBE 4 gap ++ bytesBE 4 (if toActive then 1 else 0)))
  if s.rd F.TWN_COPY_SEQ 0 = n then s.switchResult req swRefused
  else (s.setHand c (some { t, gap, toActive, seq := s.rd F.TWN_COPY_SEQ 0, req })).switchResult req swPending

/-- TWN_SWITCH with GO. -/
def twnSwitch (req c : Nat) (toActive force : Bool) (s : State) : State :=
  if !s.pairValid c || s.pairActive c == toActive then s.switchResult req swRefused
  else if force || s.partner != ptUp then (s.askSwitch c toActive req).switchResult req swPending
  else s.askHand req c toActive

/-- A write of TWN_LANES (R330): a lane in service again ends what ISOLATE did to it (R404). -/
def twnLanesWrite (out : Nat) (s : State) : State :=
  let t := s.lanesOut out
  (List.range 8).foldl (fun t i => if bit (t.rd F.TWN_LANES_OUT 0) i then t else t.endEffect [fsSurok] i) t

/-! ### The commands -/

/-- BRIDGE_LAUNCH: of a head end, or of a Surok lane. -/
def execBridgeLaunch (l : Fin 72) (s : State) : Outcome State Fault Refusal :=
  done s (if l.val < 64 then treeBridgeLaunch l s else surokLaunch (l.val - 64) s)
/-- SUROK_FRAME_RECEIVED. -/
def execSurokFrameReceived (lane : Fin 8) (rx : TreeRx) (at_ : FrameAt) (s : State) : Outcome State Fault Refusal :=
  done s (surokFrameReceived lane rx at_.block.toNat at_.spoilt at_.ago s)
/-- SUROK_BRIDGE_RECEIVED. -/
def execSurokBridgeReceived (lane : Fin 8) (short same long : BridgeView) (s : State) : Outcome State Fault Refusal :=
  done s (surokBridgeReceived lane short same long s)
/-- HEARTBEAT_LOST. -/
def execHeartbeatLost (s : State) : Outcome State Fault Refusal := done s (heartbeatLost s)
/-- TWIN_ALIVE_EDGE. -/
def execTwinAliveEdge (i : Fin 2) (s : State) : Outcome State Fault Refusal := done s (twinAliveEdge i s)
/-- TWIN_ALIVE_INPUT_LOST. -/
def execTwinAliveInputLost (i : Fin 2) (s : State) : Outcome State Fault Refusal := done s (twinAliveInputLost i s)
/-- DECLARATION_END. -/
def execDeclarationEnd (s : State) : Outcome State Fault Refusal := done s (declarationEnd s)
/-- FIRST_HEARTBEAT_TIMEOUT. -/
def execFirstHeartbeatTimeout (s : State) : Outcome State Fault Refusal := done s (firstHeartbeatTimeout s)
/-- TWIN_ALIVE_PULSE_END. -/
def execTwinAlivePulseEnd (s : State) : Outcome State Fault Refusal := done s (twinAlivePulseEnd s)
/-- TWN_SWITCH. -/
def execTwnSwitch (req : Fin 19) (c : Fin 64) (toActive force : Bool) (s : State) : Outcome State Fault Refusal :=
  doneWrite req s (twnSwitch req c toActive force s)
/-- TWN_LANES_WRITE. -/
def execTwnLanesWrite (req : Fin 19) (out : Byte) (s : State) : Outcome State Fault Refusal :=
  doneWrite req s (s.ordered req F.TWN_LANES_OUT.off [0] (fun t => (twnLanesWrite out.toNat t).foldWrites req F.TWN_LANES_OUT.off
    (if popCount 8 out.toNat ≤ 2 then [0] else [])))

end Sys2Proof.Machine
end

