-- ==== Sys2Proof/Machine/Img.lean ====
section
/-!
DEFINITION. Image, start, attestation and payload keys (14_image_security): what a reset leaves (R428), the start phases
up to APPLY (R356 to R359), slot checks, the flash and the fuses (R358, R372), reports (R364), and the key slots of
CH_PP (R366, R369).
-/

namespace Sys2Proof.Machine
open Host (Outcome)

/-! ### What survives a reset -/

/-- The codes of IMG_STAT.PHASE (Table: Start phases). -/
def phReset : Nat := 0
def phHeader : Nat := 1
def phSections : Nat := 2
def phApply : Nat := 3
def phRun : Nat := 4
def phNoImage : Nat := 5
def phMemFail : Nat := 6

def State.phase (s : State) : Nat := s.rd F.IMG_STAT_PHASE 0

/-- The registers that keep their value through a reset: the wake patterns (R396), the feeds, and, where the capo domain
is kept (R357), the power accounting (R392, R399). -/
def keptReg (capo : Bool) (k : Nat) : Bool :=
  let off := k % 0x100000
  (decide (0x41A00 ≤ off) && decide (off < 0x41E80)) || off == 0x20000 || off == 0x20004 ||
    (capo && decide (0x20400 ≤ off) && decide (off < 0x20580))

/-- The machine after a reset (R428): as State.reset, but for the straps, the fuses, the serial, the kept registers and
the log's summary (R411); with `capo`, also PCI Express (R357). What the engine has sent or answered stays. -/
def State.afterReset (s : State) (capo : Bool) : State :=
  let s := s.driveAlive false
  let r := State.reset
  let t : State := { r with
    eff := s.eff.filter (fun e => keptReg capo e.1)
    shd := s.shd.filter (fun e => keptReg capo e.1)
    host := if capo then { r.host with link := s.host.link, bme := s.host.bme, flr := s.host.flr, width := s.host.width, rate := s.host.rate,
                                       payload := s.host.payload, request := s.host.request,
                                       msixTab := s.host.msixTab, msixPend := s.host.msixPend } else r.host
    img := { r.img with serial := s.img.serial }
    pwr := { r.pwr with off := s.pwr.off, tripped := s.pwr.tripped, input := s.pwr.input }
    flt := { r.flt with capo := s.flt.capo, sevs := s.flt.sevs, capoNext := s.flt.capoNext, lastGasp := s.flt.lastGasp }
    out := s.out
    rdata := s.rdata
    free := s.free
    pending := s.pending }
  (t.wr F.IMG_STAT_FUSE_SVN 0 (s.rd F.IMG_STAT_FUSE_SVN 0)).wr F.TWN_STAT_STRAP 0 (s.rd F.TWN_STAT_STRAP 0)

/-! ### Feeds in use -/

/-- Whether a feed is healthy (R373): 0 A, 1 B. -/
def State.feedOk (s : State) (f : Nat) : Bool := if f = 0 then s.on F.PWR_FEED_STAT_A_OK 0 else s.on F.PWR_FEED_STAT_B_OK 0

def State.feedMain (s : State) : Nat := s.rd F.PWR_FEED_STAT_MAIN 0

/-- The feed that the engine starts from: the main, or the other where that alone is healthy (R376). -/
def State.startFeed (s : State) : State :=
  let m := s.feedMain
  s.wr F.PWR_FEED_STAT_USE 0 (if !s.feedOk m && s.feedOk (1 - m) then 1 - m else m)

/-- The straps read (R326, R374). -/
def State.withStraps (s : State) (pairId : Nat) (feedMain : Bool) : State :=
  ((s.wr F.TWN_STAT_STRAP 0 pairId).wrB F.PWR_FEED_STAT_MAIN 0 feedMain).startFeed

/-- RESET_INPUT (R422): the engine is reset, and held while the input is active. -/
def resetInput (s : State) : State :=
  let s := s.afterReset false
  { s with pwr := { s.pwr with input := true } }

/-- RESET_RELEASE (R359, R376): the straps are read, and the start begins once nothing else holds the engine. -/
def resetRelease (pairId : Nat) (feedMain : Bool) (s : State) : State :=
  let s := s.afterReset false
  { s with pwr := { s.pwr with input := false } }.withStraps pairId feedMain

/-- IMG_CTL.RESTART with KEY = 0xA5 (R357). -/
def State.restart (s : State) (key : Nat) : State := if key = 0xA5 then (s.afterReset true).startFeed else s

/-! ### Bytes in registers -/

/-- Bytes written into consecutive registers from an offset, byte 4 k in bits 7 to 0 of register k (R364). -/
def State.putBytes (s : State) (inst off : Nat) (bs : List Byte) : State :=
  (List.range (ceilDiv bs.length 4)).foldl (fun s k =>
    s.setReg inst (off + 4 * k) (BitVec.ofNat 32 (fieldLE bs (4 * k) 4))) s

/-- n bytes of consecutive registers from an offset. -/
def State.getBytes (s : State) (inst off n : Nat) : List Byte :=
  ((List.range (ceilDiv n 4)).flatMap (fun k => toBytes (bytesLE 4 (s.reg inst (off + 4 * k)).toNat))).take n

/-! ### The start phases (R356 to R359) -/

/-- RESET_PHASE_DONE: the first slot's header is read. -/
def resetPhaseDone (s : State) : State := if s.phase = phReset then s.wr F.IMG_STAT_PHASE 0 phHeader else s

/-- The cause of a slot. -/
def imgCause (slot : Nat) : Fld := if slot = 0 then F.IMG_CAUSE_CAUSE_A else F.IMG_CAUSE_CAUSE_B

/-- A slot fails (R356, R357): its cause is recorded, nothing of it stays, and the other slot is tried unless it was;
then NO_IMAGE. -/
def State.slotFails (s : State) (cause : Nat) : State :=
  let slot := s.rd F.IMG_STAT_SLOT 0
  let s := s.wr (imgCause slot) 0 cause
  let s := if slot = 0 then s.wr F.IMG_STAT_FALLBACK 0 1 else s
  let s := (s.wr F.IMG_STAT_SVN 0 0).wr F.IMG_BUILD 0 0
  let s := (s.putBytes 0 (F.IMG_MDIG_W 0).off (List.replicate 64 0))
  let s := { s with img := { s.img with m := [], manifest := [], ownerHash := [], sections := [] } }
  if s.rd (imgCause (1 - slot)) 0 = 9 then (s.wr F.IMG_STAT_SLOT 0 (1 - slot)).wr F.IMG_STAT_PHASE 0 phHeader
  else s.wr F.IMG_STAT_PHASE 0 phNoImage

/-- What checks 1 to 6 leave of a slot that passes: M (check 6), the digest of the owner's key, header and manifest. -/
def State.holdSlot (s : State) (z : SlotImage) : State :=
  let m := sha512 z.signed
  let s := { s with img := { s.img with m, ownerHash := sha512 z.ownerPk, manifest := z.signed } }
  ((s.wr F.IMG_STAT_SVN 0 z.svn).wr F.IMG_BUILD 0 z.build).putBytes 0 (F.IMG_MDIG_W 0).off m

/-- HEADER_CHECKED (R356). -/
def headerChecked (z : SlotImage) (s : State) : State :=
  if s.phase != phHeader then s
  else if s.slotCause z = 0 then (s.holdSlot z).wr F.IMG_STAT_PHASE 0 phSections
  else s.slotFails (s.slotCause z)

/-- APPLY begins once the sections are checked and training has ended (R359). -/
def State.mayApply (s : State) : State :=
  if s.phase = phSections && s.img.checked && s.img.trained then s.wr F.IMG_STAT_PHASE 0 phApply else s

/-- SECTIONS_CHECKED (R356, check 7): the copies are held until APPLY. -/
def sectionsChecked (readable digestsOk : Bool) (sections : List (List Byte)) (s : State) : State :=
  if s.phase != phSections || s.img.checked then s
  else if !readable then s.slotFails 1
  else if !digestsOk then s.slotFails 8
  else
    ({ s with img := { s.img with checked := true, sections := heldSections (s.img.manifest.drop 256) sections } }.wr
      (imgCause (s.rd F.IMG_STAT_SLOT 0)) 0 0).mayApply

/-- A device mapped out without evacuation (R297). -/
def State.bootMapOut (s : State) (d : Nat) : State :=
  let s := (((s.wr F.MEM_MAPOUT_STATE 0 moOut).wr F.MEM_MAPOUT_DEV 0 d).useDevice d useOut).wr F.MEM_STAT 0 60
  { s with mem := { s.mem with mdev := d } }

/-- MEM_TRAINING_DONE (R297): which channels failed, and the temperature of each device. -/
def memTrainingDone (failed : Nat) (temps : List (BitVec 8)) (s : State) : State :=
  if s.img.trained || (s.phase != phHeader && s.phase != phSections) then s
  else
    let s := (List.range 64).foldl (fun s m =>
      let t := (temps.getD (m / 4) 0).toNat
      (s.chTemp m t).wr F.MEM_CH_TEMP_T_TRAIN m t) s
    let s := { s with img := { s.img with trained := true } }
    match (List.range 16).filter (fun d => failed / 2 ^ (4 * d) % 16 != 0) with
    | [] => s.mayApply
    | [d] => (s.bootMapOut d).mayApply
    | _ => s.wr F.IMG_STAT_PHASE 0 phMemFail

/-! ### Slot checks, flash, fuses (R358, R372) -/

/-- IMG_VERIFY.GO (R372), ignored while a check runs. -/
def State.imgVerify (s : State) : State :=
  if s.on F.IMG_VERIFY_BUSY 0 then s
  else { s with img := { s.img with verify := some (s.rd F.IMG_VERIFY_SLOT 0) } }.wr F.IMG_VERIFY_BUSY 0 1

/-- IMG_VERIFY_DONE (R372). A pass of the slot not started counts for R358. -/
def imgVerifyDone (z : SlotImage) (s : State) : State :=
  match s.img.verify with
  | none => s
  | some slot =>
    let cause := s.verifyCause z
    let s := (((s.wr F.IMG_VERIFY_BUSY 0 0).wrB F.IMG_VERIFY_PASS 0 (cause == 0)).wr F.IMG_VERIFY_SVN 0 z.svn).wr
      F.IMG_VERIFY_CAUSE 0 cause
    let other := if cause == 0 && slot != s.rd F.IMG_STAT_SLOT 0 then some (max z.svn (s.img.otherSvn.getD 0))
      else s.img.otherSvn
    { s with img := { s.img with verify := none, otherSvn := other } }

/-- Whether the start reads the flash. -/
def State.startReads (s : State) : Bool := s.phase == phHeader || (s.phase == phSections && !s.img.checked)

/-- A flash command (R372): ignored while one runs; program and erase are refused while the start reads the flash. -/
def State.flashGo (s : State) (op : Nat) : State :=
  if s.on F.IMG_FL_CTL_BUSY 0 then s
  else if op != 0 && s.startReads then s.wr F.IMG_FL_CTL_ERR 0 1
  else
    let n := s.rd F.IMG_FL_CTL_LEN 0 + 1
    let addr := s.rd F.IMG_FL_ADDR 0
    let bytes := if op = 1 then s.getBytes 0 (F.IMG_FL_BUF 0).off n else []
    let s := (s.wr F.IMG_FL_CTL_BUSY 0 1).wr F.IMG_FL_CTL_ERR 0 0
    { s with img := { s.img with flash := some { op, addr, bytes } } }.emit (.flash op addr bytes)

def State.flashRead (s : State) : State := (s.wr F.IMG_FL_CTL_OP 0 0).flashGo 0
def State.flashProgram (s : State) : State := (s.wr F.IMG_FL_CTL_OP 0 1).flashGo 1
def State.flashErase (s : State) : State := (s.wr F.IMG_FL_CTL_OP 0 2).flashGo 2

/-- Bytes read put over the first bytes of IMG_FL_BUF. -/
def State.fillBuf (s : State) (bs : List Byte) : State :=
  let off := (F.IMG_FL_BUF 0).off
  s.putBytes 0 off (bs ++ (s.getBytes 0 off 256).drop bs.length)

/-- FLASH_COMMAND_DONE (R372): a read shows LEN + 1 bytes in IMG_FL_BUF. -/
def flashCommandDone (ok : Bool) (data : List Byte) (s : State) : State :=
  match s.img.flash with
  | none => s
  | some f =>
    let s := { s with img := { s.img with flash := none } }
    let s := (s.wr F.IMG_FL_CTL_BUSY 0 0).wrB F.IMG_FL_CTL_ERR 0 (!ok)
    if ok && f.op = 0 then s.fillBuf (exactly (s.rd F.IMG_FL_CTL_LEN 0 + 1) data) else s

/-- IMG_FUSE_CTL.ADVANCE (R358), ignored while fuses are being blown. -/
def State.advance (s : State) : State :=
  let svn := s.rd F.IMG_STAT_SVN 0
  let fuse := s.rd F.IMG_STAT_FUSE_SVN 0
  let other := match s.img.otherSvn with
    | none => false
    | some v => decide (svn ≤ v)
  if s.on F.IMG_FUSE_CTL_BUSY 0 then s
  else if s.phase != phRun || svn ≤ fuse || !other then s.wr F.IMG_FUSE_CTL_REFUSED 0 1
  else ((s.wr F.IMG_FUSE_CTL_REFUSED 0 0).wr F.IMG_FUSE_CTL_BUSY 0 1).emit (.fuses (svn - fuse))

/-- FUSE_ADVANCE_DONE (R358). -/
def fuseAdvanceDone (s : State) : State :=
  if s.on F.IMG_FUSE_CTL_BUSY 0 then (s.wr F.IMG_FUSE_CTL_BUSY 0 0).wr F.IMG_STAT_FUSE_SVN 0 (s.rd F.IMG_STAT_SVN 0) else s

/-! ### Attestation (R362, R364) -/

/-- A requester put into its ascending place behind the one being served (R364). -/
def queueReq (r : Nat) : List Nat → List Nat
  | [] => [r]
  | h :: t => h :: (t.filter (· < r) ++ r :: t.filter (r < ·))

/-- The vendor's identity certificate (Table: Identity certificate), as IMG_IDC_BUF shows it. -/
def State.identity (s : State) : List Byte :=
  exactly 7 s.img.serial ++ toBytes ([0] ++ bytesBE 2 (s.rd F.DEV_ID_PART 0) ++ List.replicate 6 0) ++
    exactly 2592 Config.identityPk ++ exactly 4627 Config.identitySig

/-- IMG_ATT_CTL.GO (R364), ignored while the requester's request is served. -/
def State.attRequest (s : State) (req : Nat) : State :=
  if s.on F.IMG_ATT_CTL_BUSY req then s
  else
    let s := (s.wr F.IMG_ATT_CTL_BUSY req 1).wr F.IMG_ATT_CTL_DONE req 0
    { s with img := { s.img with attQ := queueReq req s.img.attQ } }

/-- Bytes 0 to 327 of a report for a register request (Table: Attestation report). -/
def State.reportBody (s : State) (req : Nat) : List Byte :=
  let flags := s.rd F.IMG_STAT_FALLBACK 0 + 2 * s.rd F.IMG_STAT_DEGRADED 0 + (if s.paired then 4 else 0)
  toBytes ([1, flags] ++ bytesBE 2 328) ++ exactly 7 s.img.serial ++
    toBytes ([0xFF] ++ bytesBE 2 (s.rd F.DEV_ID_PART 0) ++ [s.rd F.DEV_STEP 0, s.rd F.IMG_STAT_FUSE_SVN 0] ++
      bytesBE 4 (s.rd F.IMG_STAT_SVN 0) ++ bytesBE 6 s.eng.tick ++ List.replicate 6 0) ++
    s.getBytes req (F.IMG_ATT_NONCE_W 0).off 32 ++ exactly 64 s.img.m ++ exactly 64 s.img.d ++
    exactly 64 s.img.ownerHash ++ s.getBytes req (F.IMG_ATT_BIND_W 0).off 64 ++ toBytes (bytesBE 8 s.img.folds)

/-- REPORT_READY (R364): the report of the request being served. -/
def reportReady (s : State) : State :=
  match s.img.attQ with
  | [] => s
  | req :: rest =>
    if unheard ≤ req then { s with img := { s.img with attQ := rest } }
    else
    let body := s.reportBody req
    let s := s.putBytes req (F.IMG_ATT_BUF 0).off (exactly 4955 (body ++ exactly 4627 (Config.mlDsaSign body)))
    let s := (s.wr F.IMG_ATT_CTL_BUSY req 0).wr F.IMG_ATT_CTL_DONE req 1
    { s with img := { s.img with attQ := rest } }

/-- A read of IMG_RDIG_W0 (R362): D and the folds latched for the requester, and the word read. -/
def State.rdigLatch (s : State) (req : Nat) : State :=
  let d := exactly 64 s.img.d
  let s := s.putBytes req (F.IMG_RDIG_W 0).off d
  ((s.wr F.IMG_RDIG_CNT_LO req s.img.folds).wr F.IMG_RDIG_CNT_HI req (s.img.folds / 2 ^ 32)).answer req (d.take 4)

/-! ### Key slots (R366, R369) -/

/-- The instance of a requester's copy of CH_PP_CTL and CH_PP_KEY for a channel (R426). -/
def ppInst (req c : Nat) : Nat := 64 * req + c

/-- Whether a slot holds both keys. -/
def State.slotFull (s : State) (c t k : Nat) : Bool := s.payKey c t k 0 != [] && s.payKey c t k 1 != []

/-- INSTALLED and CUR_VALID of a terminal as its slots stand. -/
def State.showSlots (s : State) (c t : Nat) : State :=
  let m := (List.range 4).foldl (fun v k => if s.slotFull c t k then v + 2 ^ k else v) 0
  (s.wr (F.CH_PP_INSTALLED t) c m).wrB (F.CH_PP_CUR_VALID t) c (bit m (s.rd (F.CH_PP_CUR t) c))

def State.setKey (s : State) (c t k dir : Nat) (key : List Byte) : State :=
  { s with img := { s.img with keys := tput (fun _ => []) s.img.keys (keyIx c t k dir) key } }

/-- Every key of a terminal erased. -/
def State.eraseTerm (s : State) (c t : Nat) : State :=
  ((List.range 4).foldl (fun s k => (s.setKey c t k 0 []).setKey c t k 1 []) s).showSlots c t

/-- The terminal that a CH_PP_CTL operation names: 0 in terminal role. -/
def State.ppTid (s : State) (req c : Nat) : Nat := if s.role c = roleTerm then 0 else s.rd F.CH_PP_CTL_TID (ppInst req c)

/-- The channels that a CH_PP_CTL operation of a requester acts on: a write-only bit acts on no octant in S2 or S3 (R429). -/
def State.ppChans (s : State) (req : Nat) : List Nat := (s.chSel req).filter (fun c => s.octServes (octOf c))

/-- The code of OP kept with an operation. -/
def State.ppOp (s : State) (req op : Nat) : State :=
  (s.ppChans req).foldl (fun s c => s.wr F.CH_PP_CTL_OP (ppInst req c) op) s

def State.writeSlot (s : State) (req c : Nat) : State :=
  let i := ppInst req c
  let t := s.ppTid req c
  let key := s.getBytes i (F.CH_PP_KEY_W 0).off 32
  (s.setKey c t (s.rd F.CH_PP_CTL_SLOT i) (s.rd F.CH_PP_CTL_DIR i) key).showSlots c t

def State.eraseSlot (s : State) (req c : Nat) : State :=
  let i := ppInst req c
  let t := s.ppTid req c
  let k := s.rd F.CH_PP_CTL_SLOT i
  ((s.setKey c t k 0 []).setKey c t k 1 []).showSlots c t

def State.eraseTid (s : State) (req c : Nat) : State := s.eraseTerm c (s.ppTid req c)

def State.eraseChannel (s : State) (c : Nat) : State := (List.range 32).foldl (fun s t => s.eraseTerm c t) s

/-- An operation on the selected channels. -/
def writeSlot (req : Nat) (s : State) : State := (s.ppChans req).foldl (fun s c => s.writeSlot req c) (s.ppOp req 0)
def eraseSlot (req : Nat) (s : State) : State := (s.ppChans req).foldl (fun s c => s.eraseSlot req c) (s.ppOp req 1)
def eraseTid (req : Nat) (s : State) : State := (s.ppChans req).foldl (fun s c => s.eraseTid req c) (s.ppOp req 2)
def eraseChannel (req : Nat) (s : State) : State := (s.ppChans req).foldl State.eraseChannel (s.ppOp req 3)

/-- A write of 1 to CH_PP_Tt.CHANGE (R369). -/
def change (req t : Nat) (s : State) : State :=
  (s.ppChans req).foldl (fun s c => s.wr (F.CH_PP_CHANGE t) c 1) s

/-! ### The commands -/

/-- RESET_INPUT. -/
def execResetInput (s : State) : Outcome State Fault Refusal := doneAlways s (resetInput s)
/-- RESET_RELEASE. -/
def execResetRelease (pairId : Fin 4) (feedMain : Bool) (s : State) : Outcome State Fault Refusal :=
  doneAlways s (resetRelease pairId.val feedMain s)
/-- RESTART. -/
def execRestart (_ : Fin 19) (key : Byte) (s : State) : Outcome State Fault Refusal := done s (s.restart key.toNat)
/-- RESET_PHASE_DONE. -/
def execResetPhaseDone (s : State) : Outcome State Fault Refusal := done s (resetPhaseDone s)
/-- HEADER_CHECKED. -/
def execHeaderChecked (slot : SlotImage) (s : State) : Outcome State Fault Refusal := done s (headerChecked slot s)
/-- SECTIONS_CHECKED. -/
def execSectionsChecked (readable digestsOk : Bool) (sections : List (List Byte)) (s : State) : Outcome State Fault Refusal :=
  done s (sectionsChecked readable digestsOk sections s)
/-- MEM_TRAINING_DONE. -/
def execMemTrainingDone (failed : BitVec 64) (temps : List (BitVec 8)) (s : State) : Outcome State Fault Refusal :=
  done s (memTrainingDone failed.toNat temps s)
/-- IMG_VERIFY. -/
def execImgVerify (req : Fin 19) (s : State) : Outcome State Fault Refusal :=
  done s (s.imgVerify.foldWrites req F.IMG_VERIFY.off [0])
/-- IMG_VERIFY_DONE. -/
def execImgVerifyDone (slot : SlotImage) (s : State) : Outcome State Fault Refusal := done s (imgVerifyDone slot s)
/-- FLASH_READ. -/
def execFlashRead (req : Fin 19) (s : State) : Outcome State Fault Refusal :=
  done s (s.flashRead.foldWrites req F.IMG_FL_CTL.off [0])
/-- FLASH_PROGRAM. -/
def execFlashProgram (req : Fin 19) (s : State) : Outcome State Fault Refusal :=
  done s (s.flashProgram.foldWrites req F.IMG_FL_CTL.off [0])
/-- FLASH_ERASE. -/
def execFlashErase (req : Fin 19) (s : State) : Outcome State Fault Refusal :=
  done s (s.flashErase.foldWrites req F.IMG_FL_CTL.off [0])
/-- FLASH_COMMAND_DONE. -/
def execFlashCommandDone (ok : Bool) (data : List Byte) (s : State) : Outcome State Fault Refusal :=
  done s (flashCommandDone ok data s)
/-- ADVANCE. -/
def execAdvance (_ : Fin 19) (s : State) : Outcome State Fault Refusal := done s s.advance
/-- FUSE_ADVANCE_DONE. -/
def execFuseAdvanceDone (s : State) : Outcome State Fault Refusal := done s (fuseAdvanceDone s)
/-- ATTESTATION_REQUEST. -/
def execAttestationRequest (req : Fin 19) (s : State) : Outcome State Fault Refusal := done s (s.attRequest req)
/-- REPORT_READY. -/
def execReportReady (s : State) : Outcome State Fault Refusal := done s (reportReady s)
/-- IMG_RDIG_LATCH. -/
def execImgRdigLatch (req : Fin 19) (s : State) : Outcome State Fault Refusal := done s (s.rdigLatch req)
/-- WRITE_SLOT. -/
def execWriteSlot (req : Fin 19) (s : State) : Outcome State Fault Refusal := doneWrite req s (writeSlot req s)
/-- ERASE_SLOT. -/
def execEraseSlot (req : Fin 19) (s : State) : Outcome State Fault Refusal := doneWrite req s (eraseSlot req s)
/-- ERASE_TID. -/
def execEraseTid (req : Fin 19) (s : State) : Outcome State Fault Refusal := doneWrite req s (eraseTid req s)
/-- ERASE_CHANNEL. -/
def execEraseChannel (req : Fin 19) (s : State) : Outcome State Fault Refusal := doneWrite req s (eraseChannel req s)
/-- CHANGE. -/
def execChange (req : Fin 19) (t : Fin 32) (s : State) : Outcome State Fault Refusal :=
  doneWrite req s ((change req t s).foldWrites req (F.CH_PP t).off (s.ppChans req))

end Sys2Proof.Machine
end

