-- ==== Sys2Proof/Machine/Pwr.lean ====
section
/-!
DEFINITION. Power (15_power): feeds and the hold-up store (R373 to R376), the thermal trip (R441), octant requests and
their refusals (R381 to R384), level changes (R380), entry into sleep and its reversal (R385 to R389), exit up to the
restore of an octant's banks (R388), doze and wake patterns (R395, R396), device standby (R397) and the accounts (R399).
-/

namespace Sys2Proof.Machine
open Host (Outcome)

/-! ### Accounts (R399) -/

/-- One more in a count of an accounted state. -/
def State.acct (s : State) (st k : Nat) : State := s.inc (F.PWR_ACCT st k) 0

def acLevel : Nat := 0
def acDs : Nat := 4
def acDoze : Nat := 5

/-- The accounted state of a target: PL0 to PL3 are changes of level, S1 to S3 themselves; RUN has none. -/
def acctOf (target : Nat) : Option Nat := if target ≤ 3 then some acLevel else if target ≤ 6 then some (target - 3) else none

/-- A count of a target's accounted state. -/
def State.acctTarget (s : State) (target k : Nat) : State :=
  match acctOf target with
  | none => s
  | some st => s.acct st k

/-- The refusers (Table: Refusals). -/
def rfBusy : Nat := 0
def rfTwin : Nat := 1
def rfVeto : Nat := 2
def rfBudget : Nat := 3
def rfTimer : Nat := 4

/-! ### Feeds (R373 to R376) -/

/-- What a switch of feeds records, where the engine is not held (R374). -/
def State.feedNote (s : State) (f : Nat) : State :=
  let s := s.inc F.PWR_FEED_SW 0
  if s.isHeld then s
  else (s.log 0x0201 engineReq f (bytesLE 2 (s.rd F.PWR_FEED_V_VA 0) ++ bytesLE 2 (s.rd F.PWR_FEED_V_VB 0))).raise 8 0

/-- The engine runs from a feed. -/
def State.useFeed (s : State) (f : Nat) : State := ((s.wr F.PWR_FEED_STAT_USE 0 f).wr F.PWR_FEED_STAT_HOLDUP 0 0).feedNote f

def State.feedUse (s : State) : Nat := s.rd F.PWR_FEED_STAT_USE 0

def State.setFeedV (s : State) (va vb : Nat) : State := (s.wr F.PWR_FEED_V_VA 0 va).wr F.PWR_FEED_V_VB 0 vb

def feedFld (f : Nat) : Fld := if f = 0 then F.PWR_FEED_STAT_A_OK else F.PWR_FEED_STAT_B_OK

/-- FEED_UNHEALTHY (R373 to R375): the other feed takes over, or the hold-up store. -/
def feedUnhealthy (f va vb : Nat) (s : State) : State :=
  let s0 := s.setFeedV va vb
  if !s0.feedOk f then s0
  else
    let s := s0.wr (feedFld f) 0 0
    let s := if s.isHeld then s else s.watch fsFeed f
    if f != s.feedUse then s
    else if s.feedOk (1 - f) then s.useFeed (1 - f)
    else s.wr F.PWR_FEED_STAT_HOLDUP 0 1

/-- FEED_HEALTHY (R373 to R375): it takes over from the hold-up store, until the last-gasp record is made. -/
def feedHealthy (f va vb : Nat) (s : State) : State :=
  let s0 := s.setFeedV va vb
  if s0.feedOk f then s0
  else
    let s := s0.wr (feedFld f) 0 1
    let s := if f = s.feedMain then { s with pwr := { s.pwr with mainSince := s.pegs.cyc } } else s
    if s.pwr.off then s
    else if s.on F.PWR_FEED_STAT_HOLDUP 0 then (if s.pwr.gasped then s else s.useFeed f)
    else if !s.feedOk s.feedUse then s.useFeed f
    else s

/-- Whole seconds for which the main has been healthy (PWR_FEED_STAT.MAIN_OK_S). -/
def State.mainOkS (s : State) : Nat :=
  if s.feedOk s.feedMain then min 0xFFFF ((s.pegs.cyc - s.pwr.mainSince) / 2000000000) else 0

/-- FEED_RETURN (R374). -/
def feedReturn (s : State) : State :=
  let m := s.feedMain
  if s.feedUse != m && s.feedOk m && !s.on F.PWR_FEED_STAT_HOLDUP 0 && decide (max 1 (s.rd F.PWR_FEED_CFG 0) ≤ s.mainOkS)
  then s.useFeed m else s

/-- The last-gasp record (R375, R411): entry and summary, TWIN_ALIVE low, the fault output asserted. -/
def State.gasp (s : State) : State :=
  let s := s.flushLog
  let s := (s.log 0x0202 engineReq 0 (bytesLE 2 (s.rd F.PWR_FEED_V_VA 0) ++ bytesLE 2 (s.rd F.PWR_FEED_V_VB 0))).flushLog
  let e := tget (fun _ => LogEnt.empty) s.flt.log (s.rd F.FLT_LOG_SEQ 0 % 8192)
  ({ s with flt := { s.flt with lastGasp := some e }, pwr := { s.pwr with gasped := true } }).driveAlive false

/-- LAST_GASP (R375). -/
def lastGasp (s : State) : State := if s.on F.PWR_FEED_STAT_HOLDUP 0 && !s.pwr.gasped then s.gasp else s

/-- Every rail shut down, the capo rail included: what stays is fused, strapped or outside, and what has left. -/
def State.powerLost (s : State) : State :=
  let s := s.driveAlive false
  let r := State.reset
  let t : State := { r with
    img := { r.img with serial := s.img.serial }
    pwr := { r.pwr with off := true, input := s.pwr.input }
    out := s.out
    rdata := s.rdata
    free := s.free
    pending := s.pending }
  let t := (t.setReg 0 F.PWR_FEED_STAT.off (s.reg 0 F.PWR_FEED_STAT.off)).setReg 0 F.PWR_FEED_V.off (s.reg 0 F.PWR_FEED_V.off)
  ((t.wr F.PWR_FEED_STAT_HOLDUP 0 0).wr F.IMG_STAT_FUSE_SVN 0 (s.rd F.IMG_STAT_FUSE_SVN 0)).wr F.TWN_STAT_STRAP 0
    (s.rd F.TWN_STAT_STRAP 0)

/-- HOLDUP_SHUTDOWN (R375). -/
def holdupShutdown (s : State) : State := if s.on F.PWR_FEED_STAT_HOLDUP 0 then s.powerLost else s

/-- POWER_ON_RELEASE (R376): one feed has been healthy for 50 ms. -/
def powerOnRelease (s : State) : State :=
  if s.pwr.off && (s.feedOk 0 || s.feedOk 1) then { s with pwr := { s.pwr with off := false } }.startFeed else s

/-- THERMAL_TRIP (R441): the last-gasp record, then reset. -/
def thermalTrip (s : State) : State :=
  if s.pwr.off || s.pwr.tripped then s
  else
    let s := s.gasp.afterReset false
    { s with pwr := { s.pwr with tripped := true, gasped := true } }

/-- THERMAL_RELEASE (R441). -/
def thermalRelease (s : State) : State :=
  if s.pwr.tripped then { s with pwr := { s.pwr with tripped := false, gasped := false } }.startFeed else s

/-! ### Refusals (R383) -/

/-- Whether a queue of a channel holds a frame. -/
def State.holdsFrame (s : State) (c : Nat) : Bool := s.store.queues.any (fun e => e.1 / 64 == c && e.2 != [])

/-- The channels of an octant. -/
def octChans (o : Nat) : List Nat := (List.range 8).map (8 * o + ·)

/-- The channels of an octant whose role in effect is not OFF (R30). -/
def State.activeChans (s : State) (o : Nat) : Nat := ((octChans o).filter (fun c => s.role c != roleOff)).length

/-- How many channels a level admits (Table: Performance levels). -/
def levelMax (pl : Nat) : Nat := 2 * pl + 2

def State.standbyMember (s : State) (c : Nat) : Bool := s.pairValid c && !s.pairActive c

/-- Whether a channel keeps its octant from a sleep state: from S3, and from S1, S2 and DS where it does not doze. -/
def State.busyFor (s : State) (target c : Nat) : Bool :=
  s.role c != roleOff && !s.standbyMember c && (target == stS3 || !s.on F.CH_PWR_STAT_DOZING c)

/-- The first condition of Table: Refusals that holds for a target of an octant. -/
def State.refuser (s : State) (o target req : Nat) : Option Nat :=
  let sleep := decide (stS1 ≤ target)
  if (match acctOf target with | some st => bit (s.rd F.PWR_VETO 0) st && req != 0 | none => false) then some rfVeto
  else if sleep && (octChans o).any (fun c => s.pairValid c && s.pairActive c) then some rfTwin
  else if sleep && ((octChans o).any (fun c => s.busyFor target c) || (octChans o).any s.holdsFrame) then some rfBusy
  else if !sleep && decide (target < 3) && decide (levelMax target < s.activeChans o) then some rfBudget
  else none

/-! ### Requests (R381, R382) -/

/-- The code of TARGET for RUN. -/
def tgRun : Nat := 7

def State.result (s : State) (o r : Nat) : State := s.wr F.OCT_PWR_STAT_RESULT o r
def rsDone : Nat := 0
def rsRefused : Nat := 1
def rsAborted : Nat := 2
def rsReplaced : Nat := 3
def rsMerged : Nat := 4
def rsDegraded : Nat := 5
def rsFailed : Nat := 6

/-- The pending slot as OCT_PWR_STAT shows it. -/
def State.showPend (s : State) (o : Nat) : State :=
  let p := (s.octPwr o).pend
  (s.wrB F.OCT_PWR_STAT_PEND_V o p.isSome).wr F.OCT_PWR_STAT_PEND o ((p.map (·.1)).getD 0)

/-- Whether a target is in effect. -/
def State.targetHolds (s : State) (o target : Nat) : Bool :=
  let st := s.octState o
  if target = tgRun then decide (st ≤ 3)
  else if target ≤ 3 then st == target
  else st == target

/-- A request put into the pending slot, the one there replaced (R382). -/
def State.pendReq (s : State) (o target req : Nat) : State :=
  let x := s.octPwr o
  let s := match x.pend with
    | none => s
    | some p => (s.acctTarget p.1 1).result o rsReplaced
  (s.setOctPwr o { x with pend := some (target, req) }).showPend o

/-- A request that starts at the next boundary, with none in progress (R381). -/
def State.queueTarget (s : State) (o target req : Nat) : State :=
  let x := s.octPwr o
  match x.queued with
  | some q =>
    if q.1 = target then (s.acctTarget target 2).result o rsMerged
    else ((s.acctTarget q.1 1).result o rsReplaced).setOctPwr o { x with queued := some (target, req) }
  | none => s.setOctPwr o { x with queued := some (target, req) }

/-- A request for an octant (R381, R382, R389). -/
def State.pwrRequest (s : State) (o target req : Nat) : State :=
  let x := s.octPwr o
  if tgRun < target then s
  else if x.step != .idle then
    if x.test then (if target = tgRun then s.wakeOct o wkRequest else s.pendReq o target req)
    else if x.target = target then (s.acctTarget target 2).result o rsMerged
    else s.pendReq o target req
  else if s.asleep o && target = tgRun then s.wakeOct o wkRequest
  else if s.asleep o && decide (target ≤ 3) then (s.wakeOct o wkRequest).pendReq o target req
  else if s.targetHolds o target && x.queued.isNone then s.result o rsDone
  else s.queueTarget o target req

/-- OCT_PWR_REQ (R381): the octant that the requester's OCTSEL names. Acts in every power state (R429). -/
def octPwrReq (req target : Nat) (s : State) : State := s.pwrRequest (s.rd F.OCTSEL req) target req

/-! ### The octant's transitions -/

/-- A transition begins. -/
def State.beginStep (s : State) (o : Nat) (step : PStep) (target req stat : Nat) : State :=
  let x := s.octPwr o
  let s := s.setOctPwr o { x with step, target, req, ticks := 0, queued := none, test := false,
                                  wake := if step = .exiting then x.wake else none }
  (s.wr F.OCT_PWR_STAT_STATE o stat).wr F.OCT_PWR_STAT_TARGET o target

/-- A transition ends; the octant reads a state. -/
def State.endStep (s : State) (o stat res : Nat) : State :=
  let s := s.modOctPwr o (fun x => { x with step := .idle, target := 0, req := 0, test := false, wake := none, ticks := 0 })
  ((s.wr F.OCT_PWR_STAT_STATE o stat).wr F.OCT_PWR_STAT_TARGET o 0).result o res

/-- A change of level begins (R380): raising waits for the voltage, lowering switches the clock now. -/
def State.startLevel (s : State) (o target req : Nat) : State :=
  let x := s.octPwr o
  if x.level < target then s.beginStep o .raising target req stLevel
  else
    let s := s.setOctPwr o { x with level := target, prior := x.level }
    s.beginStep o .lowering target req stLevel

/-- An entry into a sleep state begins (R385, R386). -/
def State.startSleep (s : State) (o target req : Nat) : State :=
  let s := if s.asleep o then s else s.wr F.OCT_PWR_STAT_PL_SLEPT o (s.octPwr o).level
  s.beginStep o .quiesce target req stEntering

/-- A refused request (R383). -/
def State.refuse (s : State) (o target r : Nat) : State :=
  ((s.acctTarget target (3 + r)).wr F.OCT_PWR_STAT_REFUSER o r).result o rsRefused

/-- A request starts at a boundary (R383). -/
def State.startReq (s : State) (o target req : Nat) : State :=
  if s.targetHolds o target then s.result o rsDone
  else if s.asleep o && (target = tgRun || decide (target ≤ 3)) then (s.wakeOct o wkRequest).pendReq o target req
  else match s.refuser o target req with
    | some r => s.refuse o target r
    | none => if target ≤ 3 then s.startLevel o target req else s.startSleep o target req

/-- The refuser that a wake source stands for (Table: Wake sources). -/
def wakeRefuser (src : Nat) : Nat :=
  if src ≤ 2 then rfBusy else if src = wkTimer then rfTimer else if src = wkPartner then rfTwin else rfVeto

/-- The dozes ended of channels whose wake waited for their octant (R389). -/
def State.freeHeld (s : State) (o : Nat) : State :=
  let mine := s.pwr.wakeHeld.filter (fun c => octOf c == o)
  let s := { s with pwr := { s.pwr with wakeHeld := s.pwr.wakeHeld.filter (fun c => octOf c != o) } }
  mine.foldl State.wakeChannel s

/-- What ends with an in-service test (R415): its result and entry. -/
def State.bistDone (s : State) (res addr : Nat) : State :=
  match s.flt.bist with
  | none => s
  | some b =>
    let s := { s with flt := { s.flt with bist := none } }
    let s := ((s.wr F.FLT_BIST_STAT_BUSY 0 0).wr F.FLT_BIST_STAT_RESULT 0 res).wr F.FLT_BIST_ERR 0 addr
    s.log 0x0C06 engineReq b.2.1 ([b.1, res] ++ bytesLE 4 addr)

/-- An entry reversed at a boundary (R389): the octant runs again. -/
def State.reverseEntry (s : State) (o : Nat) : State :=
  let x := s.octPwr o
  let r := wakeRefuser (x.wake.getD 0)
  let s := (s.freeHeld o).acctTarget x.target (8 + r)
  (s.endStep o x.level rsAborted).wr F.OCT_PWR_STAT_REFUSER o r

/-- An in-service test goes to exit (R414): no rail to ramp. -/
def State.testExit (s : State) (o : Nat) : State :=
  (s.modOctPwr o (fun x => { x with step := .settled, wake := none })).wr F.OCT_PWR_STAT_STATE o stExiting

/-- An entry step of an octant at a boundary (R385 to R387, R389, R414): quiesce ends once the sequencer has no work left. -/
def State.entryStep (s : State) (o : Nat) : State :=
  let x := s.octPwr o
  let idle := (s.seqOf o).backlog == 0
  let go (st : PStep) : State := s.setOctPwr o { x with step := st }
  match x.step with
  | .quiesce =>
    if !idle then s
    else if x.wake.isSome then (if x.test then (s.bistDone 3 0).testExit o else s.reverseEntry o)
    else if x.target = stS1 then (s.endStep o stS1 rsDone).acctTarget stS1 0
    else go .save
  | .saved =>
    if x.wake.isSome then (if x.test then (s.bistDone 3 0).testExit o else s.reverseEntry o)
    else if x.test then
      match s.flt.bist with
      | none => s.testExit o
      | some b => ({ s with flt := { s.flt with bist := some (b.1, b.2.1, 2) } }.setOctPwr o { x with step := .testing }).emit
          (.bist b.1 b.2.1)
    else if x.target = stS3 then go .lanesDeep else go .stop
  | .lanesDeep => if x.wake.isSome then s.reverseEntry o else go .stop
  | .stop =>
    if x.wake.isSome then s.reverseEntry o
    else
      let s := (s.endStep o x.target rsDone).acctTarget x.target 0
      (octChans o).foldl State.applyLanePower s
  | .reversing => s.reverseEntry o
  | _ => s

/-- A sleeping octant that a wake reached begins its exit (R385, R388); in S3 its lanes leave DEEP. -/
def State.beginExit (s : State) (o : Nat) : State :=
  let s1 := s.octState o == stS1
  let s := s.beginStep o .exiting tgRun 0 stExiting
  let s := if s1 then s.modOctPwr o (fun x => { x with step := .settled, prior := stS1 }) else s.modOctPwr o (fun x => { x with prior := stS3 })
  (octChans o).foldl State.applyLanePower s

/-- Every shaper and meter of an octant at its cap, as it leaves S1, S2 or S3 (R219). -/
def State.fillOct (s : State) (o : Nat) : State := ((octChans o).foldl State.shpFillChannel s).mtrFillOct o

/-- What an octant finds empty after S2 or S3 (R386), and its shapers and meters full (R388). -/
def State.wakeEmpty (s : State) (o : Nat) : State :=
  let s := (octChans o).foldl (fun s c =>
    let s := s.modFramer c (fun f => { f with bmTx := [], bmRx := [] })
    let s := s.modTree c (fun t => { t with ring := [], meas := [] })
    (s.showMeas c).setStq c []) s
  s.fillOct o

/-- The end of an exit: the octant runs at the level at which it slept, its gates where the bound peg's time has them (R232). -/
def State.exitDone (s : State) (o res : Nat) : State :=
  let s := s.endStep o (s.octPwr o).level res
  (octChans o).foldl (fun s c => (gateListStart c s).showGate c) (s.freeHeld o)

/-- The step of an octant's power at a boundary that comes before commits: changes of clock, entry steps, exits (the exit
from S2 and S3 ends with its restore, in the engine's own boundary work). -/
def State.powerStep (s : State) (o : Nat) : State :=
  let s := s.modOctPwr o (fun x => { x with ticks := if x.step = .idle then 0 else x.ticks + 1 })
  let x := s.octPwr o
  match x.step with
  | .settled =>
    if s.octState o = stLevel then
      ((s.setOctPwr o { x with level := x.target }).endStep o x.target rsDone).acct acLevel 0
    else if x.prior = stS1 && !x.test then (s.fillOct o).exitDone o rsDone
    else s
  | .idle => if s.asleep o && x.wake.isSome then s.beginExit o else s
  | _ => s.entryStep o

/-- Whether an octant's banks are to be restored at this boundary (R388, R414). -/
def State.restoreDue (s : State) (o : Nat) : Bool :=
  let x := s.octPwr o
  s.octState o == stExiting && x.step == .settled && (x.test || x.prior != stS1)

/-- Whether an in-service test waits to start on an octant. -/
def State.testAsked (s : State) (o : Nat) : Bool :=
  match s.flt.bist with
  | none => false
  | some b => decide (b.1 ≤ 2) && b.2.1 == o && b.2.2 == 0

/-- An in-service test starts (R414): Quiesce and Save, as for S2. -/
def State.startTest (s : State) (o : Nat) : State :=
  let s := { s with flt := { s.flt with bist := s.flt.bist.map (fun (b : Nat × Nat × Nat) => (b.1, b.2.1, 1)) } }
  let s := (s.wr F.OCT_PWR_STAT_PL_SLEPT o (s.octPwr o).level).beginStep o .quiesce stS2 0 stEntering
  s.modOctPwr o (fun x => { x with test := true })

/-- The requests that start at a boundary (R381, R382), after its commits, an in-service test first. -/
def State.powerStart (s : State) (o : Nat) : State :=
  let x := s.octPwr o
  if x.step != .idle || (s.asleep o && x.wake.isSome) then s
  else if s.testAsked o then s.startTest o
  else match x.queued with
    | some q => (s.setOctPwr o { x with queued := none }).startReq o q.1 q.2
    | none => match x.pend with
      | none => s
      | some p => ((s.setOctPwr o { x with pend := none }).showPend o).startReq o p.1 p.2

/-- The core tick that ends counted for what the octants and channels spent it in (R399). -/
def State.acctTime (s : State) : State :=
  let s := (List.range 8).foldl (fun s o =>
    let st := s.octState o
    if st = stLevel then s.acct acLevel 13 else if stS1 ≤ st ∧ st ≤ stS3 then s.acct (st - 3) 13 else s) s
  s.addN (F.PWR_ACCT acDoze 13) 0 ((List.range 64).filter (fun c => s.on F.CH_PWR_STAT_DOZING c)).length

/-- VOLTAGE_SETTLED (R380, R388). -/
def voltageSettled (o : Nat) (s : State) : State :=
  let x := s.octPwr o
  if x.step = .raising || x.step = .exiting then s.setOctPwr o { x with step := .settled } else s

/-- VOLTAGE_RAMP_DOWN_DONE (R380). -/
def voltageRampDownDone (o : Nat) (s : State) : State :=
  let x := s.octPwr o
  if x.step = .lowering then (s.endStep o x.level rsDone).acct acLevel 0 else s

/-- LEVEL_CHANGE_ABORT (R380): after 12 ticks, back to the old voltage at the old clock. -/
def levelChangeAbort (o : Nat) (s : State) : State :=
  let x := s.octPwr o
  if (x.step = .raising || x.step = .lowering) && decide (12 ≤ x.ticks) then
    let old := if x.step = .lowering then x.prior else x.level
    let s := s.setOctPwr o { x with level := old }
    ((s.endStep o old rsAborted).wr F.OCT_PWR_STAT_REFUSER o rfTimer).acct acLevel (8 + rfTimer)
  else s

/-- SAVE_COMPLETE (R386): an entry that a wake has reached is reversed from here (R389). -/
def saveComplete (o : Nat) (s : State) : State :=
  let x := s.octPwr o
  if x.step != .save then s
  else if x.wake.isSome && !x.test then (s.setOctPwr o { x with step := .reversing }).freeHeld o
  else s.setOctPwr o { x with step := .saved }

/-! ### Doze and wakes (R389, R395, R396) -/

/-- A wake of a dozing channel: at once where its octant runs, else once it runs (R389). -/
def State.wakeDozer (s : State) (c : Nat) : State :=
  if !s.on F.CH_PWR_STAT_DOZING c then s
  else if s.octRuns (octOf c) then s.wakeChannel c
  else { s with pwr := { s.pwr with wakeHeld := c :: s.pwr.wakeHeld.filter (· != c) } }

/-- WAKE_EVENT (R389): signal on a dozing channel needs its WAKE_SIG; a pattern its WAKE_PAT. -/
def wakeEvent (o src c : Nat) (s : State) : State :=
  if src = wkSignal || src = wkPattern then
    let enabled := s.on (if src = wkSignal then F.CH_PWR_CTL_WAKE_SIG else F.CH_PWR_CTL_WAKE_PAT) c
    if octOf c = o && s.on F.CH_PWR_STAT_DOZING c && enabled then
      if s.octRuns o then s.wakeDozer c
      else if s.wakeEnabled o src then (s.wakeOct o src).wakeDozer c else s
    else s
  else s.wakeOct o src

/-- OCT_TIMER_WAKE (R389). -/
def octTimerWake (o : Nat) (s : State) : State :=
  if s.rd F.OCT_PWR_TIMER o = s.tick32 then s.wakeOct o wkTimer else s

/-- The bytes of a frame that a pattern selects, in order; none where one lies beyond the frame (R396). -/
def State.patBytes (s : State) (c p : Nat) (frame : List Byte) : Option (List Byte) :=
  let sel := (List.range 32).flatMap (fun k =>
    let w := s.rd ⟨0x41A00 + 144 * p + 4 * k, 31, 0⟩ c
    if w = 0 then [] else ((List.range 32).filter (bit w)).map (fun n => 32 * k + n))
  if sel.all (· < frame.length) then some (sel.map (fun n => frame.getD n 0)) else none

/-- Whether a frame matches a pattern of a channel (R396). -/
def State.patMatches (s : State) (c p : Nat) (frame : List Byte) (own : Bool) : Bool :=
  let off := 0x41A80 + 144 * p
  s.on ⟨off, 31, 31⟩ c &&
    ((s.on ⟨off, 30, 30⟩ c && own) ||
      (match s.patBytes c p frame with
       | none => false
       | some bs => crc16 bs == s.rd ⟨off, 15, 0⟩ c))

/-- Whether a wake detector takes a frame (R395). -/
def State.detects (s : State) (c : Nat) (frame : List Byte) (bc : Bool) : Bool :=
  if s.role c = roleClient then fcsOk frame
  else s.role c == roleTerm && bc && s.rd F.CH_TF_STAT_ALIGN c == alSync

/-- WAKE_PATTERN_MATCH (R396): the lowest pattern that the frame matches. -/
def wakePatternMatch (c : Nat) (frame : List Byte) (tid : Nat) (bc prot : Bool) (s : State) : State :=
  let own := s.role c == roleTerm && prot && s.on F.CH_TF_CFG_TID_VALID c && s.rd F.CH_TF_CFG_TID c == tid
  if !s.on F.CH_PWR_STAT_DOZING c || !(s.detects c frame bc || (own && s.rd F.CH_TF_STAT_ALIGN c == alSync)) then s
  else match (List.range 8).find? (fun p => s.patMatches c p frame own) with
    | none => s
    | some p =>
      let s := (s.inc F.CH_WAKE_HITS c).wr F.CH_PWR_STAT_PAT c p
      wakeEvent (octOf c) wkPattern c s

/-- The refuser of a doze (R395, in the order of Table: Refusals). -/
def State.dozeRefuser (s : State) (c req : Nat) : Option Nat :=
  let r := s.role c
  if bit (s.rd F.PWR_VETO 0) acDoze && req != 0 then some rfVeto
  else if s.pairValid c then some rfTwin
  else if (r != roleClient && r != roleTerm) || (r == roleTerm && decide (1 < s.rd F.CH_TERM_CTL_STATE c)) || s.holdsFrame c then
    some rfBusy
  else none

/-- A doze that takes effect, or is refused, at a boundary (R395). -/
def State.dozeStart (s : State) (c req : Nat) : State :=
  if s.on F.CH_PWR_STAT_DOZING c then s
  else match s.dozeRefuser c req with
    | some r => (s.wr F.CH_PWR_STAT_REFUSER c r).acct acDoze (3 + r)
    | none =>
      let s := { s with pwr := { s.pwr with waking := s.pwr.waking.filter (· != c) } }
      let s := if s.rd F.CH_LANE_STAT_PWR c = pwrOn then s.wr F.CH_LANE_STAT_PWR c pwrRxOnly else s
      (s.wr F.CH_PWR_STAT_DOZING c 1).acct acDoze 0

/-- The dozes asked for start. -/
def State.dozes (s : State) : State :=
  let l := s.pwr.dozeReq.reverse
  l.foldl (fun s e => s.dozeStart e.1 e.2) { s with pwr := { s.pwr with dozeReq := [] } }

/-- DOZE (R395): the selected channels, at the next boundary. -/
def doze (req : Nat) (s : State) : State :=
  (s.ppChans req).foldl (fun s c =>
    { s with pwr := { s.pwr with dozeReq := (c, req) :: s.pwr.dozeReq.filter (·.1 != c) } }) s

/-- UNDOZE of one channel. -/
def State.undozeChan (s : State) (c : Nat) : State :=
  let s := { s with pwr := { s.pwr with dozeReq := s.pwr.dozeReq.filter (·.1 != c) } }
  if s.on F.CH_PWR_STAT_DOZING c then
    { s with pwr := { s.pwr with waking := c :: s.pwr.waking.filter (· != c) } }.wr F.CH_PWR_STAT_DOZING c 0
  else s

/-- UNDOZE (R395). -/
def undoze (req : Nat) (s : State) : State := (s.ppChans req).foldl State.undozeChan s

/-- DOZE_TX_READY (R395). -/
def dozeTxReady (c : Nat) (s : State) : State :=
  if !s.pwr.waking.contains c then s
  else
    let s := { s with pwr := { s.pwr with waking := s.pwr.waking.filter (· != c) } }
    if s.rd F.CH_LANE_STAT_PWR c = pwrRxOnly then s.wr F.CH_LANE_STAT_PWR c pwrOn else s

/-! ### Device standby (R397, R398) -/

/-- The refuser of device standby: the conditions of S2 for every octant, since dozing channels keep their lanes. -/
def State.dsRefuser (s : State) (req : Nat) : Option Nat :=
  if bit (s.rd F.PWR_VETO 0) acDs && req != 0 then some rfVeto
  else if (List.range 64).any (fun c => s.pairValid c && s.pairActive c) then some rfTwin
  else if (List.range 64).any (fun c => s.busyFor stS2 c) || (List.range 64).any s.holdsFrame then some rfBusy
  else none

/-- PWR_DS_CTL.GO (R397): what the capo banks keep is saved, and the engine stands by. -/
def dsRequest (req : Nat) (s : State) : State :=
  match s.dsRefuser req with
  | some r => ((s.wr F.PWR_DS_CTL_REFUSER 0 r).wr F.PWR_DS_CTL_RESULT 0 2).acct acDs (3 + r)
  | none =>
    let s := (s.acct acDs 0).flushLog.driveAlive false
    let p := { s.pwr with standby := true, capoEff := s.eff, capoShd := s.shd, capoGates := s.egress.gates,
                          capoTrec := s.twin.trec, capoTerm := s.twin.term, capoSofs := s.twin.sofs, dsBad := 0, dsRestore := true }
    { s with pwr := p }

/-- What a doze keeps through device standby (R395): CH_PWR_STAT, and the lane, which stays in RXONLY until its transmitter is
ready. -/
def State.keepDoze (old s : State) (c : Nat) : State :=
  let s := s.setReg c F.CH_PWR_STAT.off (old.reg c F.CH_PWR_STAT.off)
  if old.on F.CH_PWR_STAT_DOZING c || old.pwr.waking.contains c then s.wr F.CH_LANE_STAT_PWR c pwrRxOnly else s

/-- DS_EXIT (R398): the start sequence from the slot last started, with what the banks hold to be restored after APPLY. -/
def dsExit (bad : Nat) (s : State) : State :=
  if !s.pwr.standby || s.pwr.off || s.pwr.tripped || s.pwr.input then s
  else
    let slot := s.rd F.IMG_STAT_SLOT 0
    let p := s.pwr
    let s := (List.range 64).foldl (s.keepDoze) (s.afterReset true)
    let s := (s.wr F.IMG_STAT_SLOT 0 slot).wr F.PWR_DS_CTL_RESULT 0 1
    { s with pwr := { s.pwr with capoEff := p.capoEff, capoShd := p.capoShd, capoGates := p.capoGates, capoTrec := p.capoTrec,
                                 capoTerm := p.capoTerm, capoSofs := p.capoSofs, dsBad := bad, dsRestore := true, waking := p.waking } }

/-! ### The commands -/

/-- FEED_UNHEALTHY. -/
def execFeedUnhealthy (f : Fin 2) (va vb : BitVec 16) (s : State) : Outcome State Fault Refusal :=
  doneAlways s (feedUnhealthy f.val va.toNat vb.toNat s)
/-- FEED_HEALTHY. -/
def execFeedHealthy (f : Fin 2) (va vb : BitVec 16) (s : State) : Outcome State Fault Refusal :=
  doneAlways s (feedHealthy f.val va.toNat vb.toNat s)
/-- FEED_RETURN. -/
def execFeedReturn (s : State) : Outcome State Fault Refusal := done s (feedReturn s)
/-- LAST_GASP. -/
def execLastGasp (s : State) : Outcome State Fault Refusal := done s (lastGasp s)
/-- HOLDUP_SHUTDOWN. -/
def execHoldupShutdown (s : State) : Outcome State Fault Refusal := doneAlways s (holdupShutdown s)
/-- POWER_ON_RELEASE. -/
def execPowerOnRelease (s : State) : Outcome State Fault Refusal := doneAlways s (powerOnRelease s)
/-- THERMAL_TRIP. -/
def execThermalTrip (s : State) : Outcome State Fault Refusal := doneAlways s (thermalTrip s)
/-- THERMAL_RELEASE. -/
def execThermalRelease (s : State) : Outcome State Fault Refusal := doneAlways s (thermalRelease s)
/-- OCT_PWR_REQ. -/
def execOctPwrReq (req : Fin 19) (target : Fin 16) (s : State) : Outcome State Fault Refusal :=
  doneWrite req s (octPwrReq req target.val s)
/-- VOLTAGE_SETTLED. -/
def execVoltageSettled (o : Fin 8) (s : State) : Outcome State Fault Refusal := done s (voltageSettled o s)
/-- VOLTAGE_RAMP_DOWN_DONE. -/
def execVoltageRampDownDone (o : Fin 8) (s : State) : Outcome State Fault Refusal := done s (voltageRampDownDone o s)
/-- LEVEL_CHANGE_ABORT. -/
def execLevelChangeAbort (o : Fin 8) (s : State) : Outcome State Fault Refusal := done s (levelChangeAbort o s)
/-- SAVE_COMPLETE. -/
def execSaveComplete (o : Fin 8) (s : State) : Outcome State Fault Refusal := done s (saveComplete o s)
/-- WAKE_EVENT. -/
def execWakeEvent (o : Fin 8) (src : Fin 7) (c : Fin 64) (s : State) : Outcome State Fault Refusal :=
  done s (wakeEvent o src c s)
/-- Device standby alone holds the engine: its wake detectors run on (R378, R395). -/
def State.inStandby (s : State) : Bool := s.pwr.standby && !s.pwr.off && !s.pwr.tripped && !s.pwr.input

/-- WAKE_PATTERN_MATCH: also in device standby, where it ends the doze; the exit from DS is DS_EXIT's. -/
def execWakePatternMatch (c : Fin 64) (frame : List Byte) (tid : Fin 32) (bc prot : Bool) (s : State) :
    Outcome State Fault Refusal :=
  let t := wakePatternMatch c frame tid bc prot s
  if s.inStandby then doneAlways s t else done s t
/-- OCT_TIMER_WAKE. -/
def execOctTimerWake (o : Fin 8) (s : State) : Outcome State Fault Refusal := done s (octTimerWake o s)
/-- DOZE. -/
def execDoze (req : Fin 19) (s : State) : Outcome State Fault Refusal :=
  doneWrite req s ((doze req s).foldWrites req F.CH_PWR_CTL.off (s.ppChans req))
/-- UNDOZE. -/
def execUndoze (req : Fin 19) (s : State) : Outcome State Fault Refusal :=
  doneWrite req s ((undoze req s).foldWrites req F.CH_PWR_CTL.off (s.ppChans req))
/-- DOZE_TX_READY. -/
def execDozeTxReady (c : Fin 64) (s : State) : Outcome State Fault Refusal := done s (dozeTxReady c s)
/-- DS_REQUEST. -/
def execDsRequest (req : Fin 19) (s : State) : Outcome State Fault Refusal := doneWrite req s (dsRequest req s)
/-- DS_EXIT. -/
def execDsExit (badBanks : BitVec 32) (s : State) : Outcome State Fault Refusal := doneAlways s (dsExit badBanks.toNat s)

end Sys2Proof.Machine
end

