-- ==== Sys2Proof/Machine/Flt.lean ====
section
/-!
DEFINITION. The commands on faults, tests and inputs (16_faults_test): the end of a lasting state (R402), CLEAR and UNDO
(R403, R404), in-service test (R414, R415) and the external inputs (R418 to R421).
-/

namespace Sys2Proof.Machine
open Host (Outcome)

/-! ### Lasting faults -/

/-- LASTING_END (R402): none of the instance's events lies within the last W ticks. -/
def lastingEnd (src inst : Nat) (s : State) : State :=
  if (s.watchOf src inst).ticks.any (s.within src) then s else s.lastingEnd engineReq src inst

/-- CLEAR (R403): the source and instance that the requester selects. -/
def clear (req : Nat) (s : State) : State :=
  let src := s.rd F.FLT_SRC_SEL_SRC req
  if src < 16 then s.clearInst req src (s.rd F.FLT_SRC_SEL_INST req) else s

/-- UNDO (R404): the ISOLATE of a channel by the selected source. -/
def undo (req : Nat) (s : State) : State :=
  let src := s.rd F.FLT_SRC_SEL_SRC req
  if src = fsLockLoss || src = fsSfSet then s.endEffect [src] (s.rd F.FLT_SRC_SEL_INST req) else s

/-! ### In-service test (R414, R415) -/

/-- A refused test. -/
def State.bistRefuse (s : State) (r : Nat) : State := (s.wr F.FLT_BIST_STAT_REFUSED 0 1).wr F.FLT_BIST_STAT_REFUSER 0 r

/-- The refuser of a test: of an octant as for S3, and CHANNEL_BUSY where the octant is in transition or asleep; of a
device that is not OUT and a core that has not yielded, CHANNEL_BUSY. -/
def State.bistRefuser (s : State) (req kind idx : Nat) : Option Nat :=
  if kind ≤ 2 then
    if 8 ≤ idx then some rfBusy
    else match s.refuser idx stS3 req with
      | some r => some r
      | none => if (s.octPwr idx).step != .idle || s.asleep idx then some rfBusy else none
  else if kind = 3 then
    if s.rd F.MEM_MAPOUT_STATE 0 = moOut && s.mem.mdev = idx then none else some rfBusy
  else if kind = 4 then
    if !s.coreOnline idx && !s.on (F.TDS_CORE_STAT_RUN idx) 0 then none else some rfBusy
  else some rfBusy

/-- A test accepted: of an octant from the next boundary on, of a device or core at once. -/
def State.bistStart (s : State) (kind idx : Nat) : State :=
  let s := ((s.wr F.FLT_BIST_STAT_BUSY 0 1).wr F.FLT_BIST_STAT_REFUSED 0 0).wr F.FLT_BIST_STAT_RESULT 0 0
  let s := { s with flt := { s.flt with bist := some (kind, idx, if kind ≤ 2 then 0 else 2) } }
  if kind ≤ 2 then s
  else (if kind = 3 then s.useDevice idx useTest else s).emit (.bist kind idx)

/-- FLT_BIST_CTL.GO: ignored while a test runs, but for REFUSED. -/
def bistRequest (req kind idx : Nat) (s : State) : State :=
  let s := (s.wr F.FLT_BIST_CTL_KIND 0 kind).wr F.FLT_BIST_CTL_IDX 0 idx
  if s.on F.FLT_BIST_STAT_BUSY 0 then s.wr F.FLT_BIST_STAT_REFUSED 0 1
  else
    match s.bistRefuser req kind idx with
    | some r => s.bistRefuse r
    | none => s.bistStart kind idx

/-- TEST_FINISHED (R414, R415): ABORTED where a wake or the partner's declaration ended it. -/
def testFinished (pass : Bool) (addr : Nat) (s : State) : State :=
  match s.flt.bist with
  | none => s
  | some b =>
    let res := if pass then 1 else 2
    let addr := if pass then 0 else addr
    if b.2.2 != 2 then s
    else if b.1 ≤ 2 then
      (s.bistDone (if (s.octPwr b.2.1).wake.isSome then 3 else res) addr).testExit b.2.1
    else
      let s := s.bistDone res addr
      if b.1 = 3 then s.useDevice b.2.1 useOut else s

/-! ### External inputs (R418 to R422) -/

/-- The pin's level for an active or inactive input: FLT_IN_CFG.POL, of a 1PPS input PEG_PPSIN_CFG.POL (R257). -/
def State.pinLevel (s : State) (i : Nat) (active : Bool) : Bool :=
  active != (if i = 16 || i = 17 then s.on (F.PEG_PPSIN_CFG_POL (i - 16)) 0 else s.on (F.FLT_IN_CFG_POL i) (inputInst i))

/-- What an input that acts does: a GPIO wakes the octants that name it (R389), and an entry where LOG is 1. -/
def State.inputActs (s : State) (i : Nat) : State :=
  let s := if i < 16 then (List.range 8).foldl (fun s o =>
      if s.rd F.OCT_PWR_WAKE_GPIO_IDX o = i then s.wakeOct o wkGpio else s) s
    else s
  if s.on (F.FLT_IN_CFG_LOG i) (inputInst i) then s.log 0x0C05 engineReq i [if s.pinLevel i true then 1 else 0] else s

/-- An edge coalesced (R419); the 256th of a superframe declares the input chattering (R420). -/
def State.suppress (s : State) (i : Nat) : State :=
  let x := s.inputOf i
  let s := (s.setInput i { x with suppr := x.suppr + 1 }).inc (F.FLT_IN_SUPPR i) 0
  if x.suppr + 1 = 256 && !s.on (F.FLT_IN_STAT_CHATTER i) (inputInst i) then
    ((s.wr (F.FLT_IN_STAT_CHATTER i) (inputInst i) 1).log 0x0C03 engineReq i [1]).watch fsInput i
  else s

/-- An accepted active transition of an input in use. An edge of a 1PPS or TWIN_ALIVE input that is not coalesced, of an input that is
not chattering, is then to act (PPS_EDGE, TWIN_ALIVE_EDGE). -/
def State.inputActive (s : State) (i : Nat) : State :=
  let x := s.inputOf i
  let quiet := s.on (F.FLT_IN_STAT_CHATTER i) (inputInst i)
  if s.on (F.FLT_IN_CFG_LEVEL i) (inputInst i) then
    let s := (s.setInput i { x with since := s.eng.tick }).wr (F.FLT_IN_STAT_HELD i) (inputInst i) 1
    if quiet then s else s.inputActs i
  else if x.edges < max 1 (s.rd (F.FLT_IN_CFG_MAX_EDGES i) (inputInst i)) then
    let s := s.setInput i { x with edges := x.edges + 1, acts := if i < 16 || quiet then x.acts else x.acts + 1 }
    if quiet then s else s.inputActs i
  else s.suppress i

/-- The level of an input accepted, in use or not: ACTIVE and FLT_GPIO_IN. -/
def State.inputLevel (s : State) (i : Nat) (active : Bool) : State :=
  let s := s.setInput i { s.inputOf i with level := active, quiet := 0 }
  let s := s.wrB (F.FLT_IN_STAT_ACTIVE i) (inputInst i) active
  if i < 16 then s.wr F.FLT_GPIO_IN 0 (putBit (s.rd F.FLT_GPIO_IN 0) i (s.pinLevel i active)) else s

/-- INPUT_TRANSITION (R418 to R421). -/
def inputTransition (i : Nat) (active held : Bool) (s : State) : State :=
  let used := s.on (F.FLT_IN_CFG_EN i) (inputInst i)
  if (s.inputOf i).level = active then s
  else if !held then (if used then s.inc (F.FLT_IN_GLITCH i) 0 else s)
  else
    let s := s.inputLevel i active
    if !used then s
    else if active then s.inputActive i
    else (s.wr (F.FLT_IN_STAT_HELD i) (inputInst i) 0).wr (F.FLT_IN_STAT_STUCK i) (inputInst i) 0

/-- CHATTER_END (R420): a whole superframe has passed without an accepted transition. -/
def chatterEnd (i : Nat) (s : State) : State :=
  if s.on (F.FLT_IN_STAT_CHATTER i) (inputInst i) && (s.inputOf i).quiet == 2 then
    (s.wr (F.FLT_IN_STAT_CHATTER i) (inputInst i) 0).log 0x0C03 engineReq i [0]
  else s

/-- INPUT_STUCK (R421). -/
def inputStuck (i : Nat) (s : State) : State :=
  let x := s.inputOf i
  if s.on (F.FLT_IN_CFG_EN i) (inputInst i) && s.on (F.FLT_IN_CFG_LEVEL i) (inputInst i) && x.level && !s.on (F.FLT_IN_STAT_STUCK i) (inputInst i) &&
      decide (x.since + 16 * max 1 (s.rd (F.FLT_IN_CFG_STUCK_TICKS i) (inputInst i)) ≤ s.eng.tick) then
    ((s.wr (F.FLT_IN_STAT_STUCK i) (inputInst i) 1).log 0x0C04 engineReq i []).watch fsInput i
  else s

/-- What a boundary does to the inputs: the edges of the tick, and at a superframe's end those suppressed (R419, R420). -/
def State.inputsTick (s : State) : State :=
  let sf := s.eng.tick % 64 == 0
  (s.flt.ins.map (·.1)).foldl (fun s i =>
    let x := s.inputOf i
    s.setInput i { x with edges := 0, suppr := if sf then 0 else x.suppr, quiet := if sf then min 2 (x.quiet + 1) else x.quiet }) s

/-! ### The commands -/

/-- LASTING_END. -/
def execLastingEnd (src : Fin 16) (inst : Fin 256) (s : State) : Outcome State Fault Refusal := done s (lastingEnd src inst s)
/-- CLEAR. -/
def execClear (req : Fin 19) (s : State) : Outcome State Fault Refusal := doneWrite req s (clear req s)
/-- UNDO. -/
def execUndo (req : Fin 19) (s : State) : Outcome State Fault Refusal := doneWrite req s (undo req s)
/-- BIST_REQUEST. -/
def execBistRequest (req : Fin 19) (kind : Fin 8) (idx : Fin 16) (s : State) : Outcome State Fault Refusal :=
  doneWrite req s ((bistRequest req kind idx s).foldWrites req F.FLT_BIST_CTL.off [0])
/-- TEST_FINISHED. -/
def execTestFinished (pass : Bool) (addr : Word) (s : State) : Outcome State Fault Refusal :=
  done s (testFinished pass addr.toNat s)
/-- INPUT_TRANSITION. -/
def execInputTransition (i : Fin 20) (active held : Bool) (s : State) : Outcome State Fault Refusal :=
  done s (inputTransition i active held s)
/-- CHATTER_END. -/
def execChatterEnd (i : Fin 20) (s : State) : Outcome State Fault Refusal := done s (chatterEnd i s)
/-- INPUT_STUCK. -/
def execInputStuck (i : Fin 20) (s : State) : Outcome State Fault Refusal := done s (inputStuck i s)

end Sys2Proof.Machine
end

