-- ==== Sys2Proof/Machine/Services.lean ====
section
/-!
DEFINITION. Service cores and the task dispatcher (12_services): the task records and commands (R311, R312), dispatch
and the end of a run (R314, R315), late preemption (R316), wakes (R317), mailboxes (R321), frames for and from cores (R309,
R310), and taking a core out of dispatch (R325).
-/

namespace Sys2Proof.Machine
open Host (Outcome)

/-! ### Records and commands (R311, R312) -/

/-- The record that a requester has selected. -/
def State.taskSel (s : State) (req : Nat) : Nat := s.rd F.TDS_TASK_SEL req

/-- A write or command of a requester ignored, or accepted (TDS_TASK_CMD.REFUSED). -/
def State.refuseTask (s : State) (req : Nat) : State := s.wr F.TDS_TASK_CMD_REFUSED req 1
def State.acceptTask (s : State) (req : Nat) : State := s.wr F.TDS_TASK_CMD_REFUSED req 0

/-- The bits of a record's word that a write leaves as they are: STATE and the bits that read 0. -/
def taskWordMask (k : Nat) : Nat :=
  if k = 4 then 0x001FFFFF else if k = 5 then 0xFF070FFF else if k = 7 then 0x0000FFFF else 0xFFFFFFFF

/-- Whether the selected record's words take a write (R311). -/
def State.taskOpen (s : State) (req : Nat) : Bool :=
  s.rd T.state (s.taskSel req) == tsFree || s.rd T.state (s.taskSel req) == tsSuspended

/-- TDS_TASK_W_WRITE (R311): accepted only while STATE is FREE or SUSPENDED. STATE itself changes only by commands. -/
def State.writeTask (s : State) (req k : Nat) (w : Word) : State :=
  let t := s.taskSel req
  let st := s.rd T.state t
  if st = tsFree || st = tsSuspended then
    let m := taskWordMask k
    let keep := if k = 4 then st * 2 ^ 24 else 0
    (s.setReg t (0x90010 + 4 * k) (BitVec.ofNat 32 ((w.toNat &&& m) + keep))).acceptTask req
  else s.refuseTask req

/-- A task of a service extension with no core left to run on cannot be armed (R324). -/
def State.armable (s : State) (t : Nat) : Bool := s.rd T.state t == tsFree && !(isExt t && s.taskAff t == 0)

def State.armTask (s : State) (req : Nat) : State :=
  let t := s.taskSel req
  if s.armable t then (s.wr T.state t tsIdle).acceptTask req else s.refuseTask req

def State.kickTask (s : State) (req : Nat) : State :=
  let t := s.taskSel req
  let st := s.rd T.state t
  if st = tsIdle || st = tsDelayed then ((s.inc T.evpend t).makeReady t).acceptTask req else s.refuseTask req

/-- A task suspended now, or when it ends if it runs. -/
def State.suspendTask (s : State) (req : Nat) : State :=
  let t := s.taskSel req
  let st := s.rd T.state t
  if st = tsIdle || st = tsReady || st = tsDelayed then ((s.unready t).wr T.state t tsSuspended).acceptTask req
  else if st = tsRunning then
    { s with tds := { s.tds with suspend := t :: s.tds.suspend.filter (· != t) } }.acceptTask req
  else s.refuseTask req

def State.resumeTask (s : State) (req : Nat) : State :=
  let t := s.taskSel req
  if s.rd T.state t = tsSuspended then
    (if s.rd T.evpend t = 0 then s.wr T.state t tsIdle else s.makeReady t).acceptTask req
  else s.refuseTask req

/-- A task delayed by a number of ticks, 0 acting as 1. -/
def State.delayFor (s : State) (t ticks : Nat) : State :=
  (s.wr T.state t tsDelayed).wr T.wake t ((s.tick32 + max 1 ticks) % 2 ^ 32)

def State.delayTask (s : State) (req ticks : Nat) : State :=
  let t := s.taskSel req
  if s.rd T.state t = tsIdle then (s.delayFor t ticks).acceptTask req else s.refuseTask req

/-- The bindings of events to a task removed. -/
def State.unbind (s : State) (t : Nat) : State :=
  ((s.eff.filter (fun e => e.1 % 0x100000 == 0x90054)).map (fun e => e.1 / 0x100000)).foldl (fun s ev =>
    let s := if s.rd F.TDS_EV_BIND_TASK0 ev = t then s.wr F.TDS_EV_BIND_EN0 ev 0 else s
    if s.rd F.TDS_EV_BIND_TASK1 ev = t then s.wr F.TDS_EV_BIND_EN1 ev 0 else s) s

def State.freeTask (s : State) (req : Nat) : State :=
  let t := s.taskSel req
  if s.rd T.state t = tsSuspended then (((s.wr T.state t tsFree).wr T.evpend t 0).unbind t).acceptTask req
  else s.refuseTask req

/-! ### Dispatch (R314) -/

/-- The core that a requester is (R36), where it is one. -/
def coreOf (req : Nat) : Option Nat := if 1 ≤ req ∧ req ≤ 16 then some (req - 1) else none

/-- The first task of the highest non-empty level that may run on a core. -/
def State.nextTask (s : State) (k : Nat) : Option Nat :=
  ((List.range 32).reverse.flatMap s.readyList).find? (fun t => (s.taskCores t).contains k)

/-- A task set to RUNNING on a core. -/
def State.dispatch (s : State) (k t : Nat) : State :=
  let s := ((s.unready t).wr T.state t tsRunning).wr T.core t k
  let s := (s.wr T.evpend t 0).wr (F.TDS_CORE_STAT_RUN k) 0 1
  (s.wr (F.TDS_CORE_STAT_TASK k) 0 t).wr (F.TDS_CORE_STAT_PRIO k) 0 (s.taskPrio t)

/-- TDS_NEXT_READ (R314): a claim on the core ends (R316), and it counts as running its own task again. -/
def State.readNext (s : State) (req : Nat) : State :=
  match coreOf req with
  | none => s.answer req (toBytes (bytesLE 4 0))
  | some k =>
    let s := s.wr (F.TDS_CORE_STAT_PREEMPT k) 0 0
    match s.nextTask k with
    | some t =>
      let ev := s.rd T.evpend t
      let w := 2 ^ 31 + ev * 2 ^ 16 + t
      ((s.dispatch k t).wr F.TDS_NEXT req w).answer req (toBytes (bytesLE 4 w))
    | none =>
      let s := s.wr (F.TDS_CORE_STAT_PRIO k) 0
        (if s.on (F.TDS_CORE_STAT_RUN k) 0 then s.taskPrio (s.rd (F.TDS_CORE_STAT_TASK k) 0) else 0)
      (s.wr F.TDS_NEXT req 0).answer req (toBytes (bytesLE 4 0))

/-! ### The end of a run (R315, R317) -/

/-- WAKE of a periodic task moved on: by PERIOD until it lies after the current tick; and the periods skipped. -/
def nextWake (wake period now : Nat) : Nat × Nat :=
  let p := max 1 period
  let w := (wake + p) % 2 ^ 32
  let behind := (now + 2 ^ 32 - w) % 2 ^ 32
  if behind < 2 ^ 31 then let n := behind / p + 1; ((w + n * p) % 2 ^ 32, n) else (w, 0)

/-- The effect of END on a task. -/
def State.taskEnd (s : State) (t : Nat) : State :=
  if s.rd T.evpend t ≠ 0 then s.makeReady t
  else if s.on T.periodic t then
    let n := nextWake (s.rd T.wake t) (s.rd T.period t) s.tick32
    ((s.wr T.wake t n.1).wr T.state t tsDelayed).addN F.TDS_PERIOD_SKIP 0 n.2
  else s.wr T.state t tsIdle

/-- The effect of YIELD: the tail of its list, or the head where its preemption was requested (R313). -/
def State.taskYield (s : State) (t : Nat) (preempted : Bool) : State :=
  if preempted then
    let p := s.taskPrio t
    let s := s.wr T.state t tsReady
    (s.setReady p (t :: s.readyList p)).examine t
  else s.makeReady t

/-- How a run ends. -/
inductive RunEnd where
  | finish
  | yield
  | sleep (ticks : Nat)
  deriving DecidableEq, Repr

/-- A running task leaves RUNNING (R315): a SUSPEND received while it ran takes effect first; a core that is out of
dispatch is reset once it has yielded (R325). -/
def State.leaveRun (s : State) (req : Nat) (how : RunEnd) : State :=
  match coreOf req with
  | none => s
  | some k =>
    if !s.on (F.TDS_CORE_STAT_RUN k) 0 then s
    else
      let t := s.rd (F.TDS_CORE_STAT_TASK k) 0
      let pre := s.on (F.TDS_CORE_STAT_PREEMPT k) 0
      let s := s.wr (F.TDS_CORE_STAT_RUN k) 0 0
      let s := if pre then s else s.wr (F.TDS_CORE_STAT_PRIO k) 0 0
      let s := if s.tds.suspend.contains t then
          { s with tds := { s.tds with suspend := s.tds.suspend.filter (· != t) } }.wr T.state t tsSuspended
        else match how with
          | .finish => s.taskEnd t
          | .yield => s.taskYield t pre
          | .sleep n => s.delayFor t n
      if s.coreOnline k then s else s.coreReset k

/-- PREEMPT_TIMEOUT (R316). -/
def preemptTimeout (k : Nat) (s : State) : State :=
  if !s.on (F.TDS_CORE_STAT_PREEMPT k) 0 then s
  else ((s.inc F.TDS_PREEMPT_LATE 0).log 0x0902 engineReq k (bytesLE 2 (s.rd (F.TDS_CORE_STAT_TASK k) 0))).watch fsPreemptLate k

/-! ### Wakes (R317) -/

/-- A task put into its place in an order, before its equals. -/
def insertTask (before : Nat → Nat → Bool) (t : Nat) : List Nat → List Nat
  | [] => [t]
  | x :: xs => if before x t then x :: insertTask before t xs else t :: x :: xs

/-- The DELAYED tasks whose WAKE is at or before the current tick, in ascending WAKE and record index. -/
def State.dueTasks (s : State) : List Nat :=
  let late (t : Nat) : Nat := (s.tick32 + 2 ^ 32 - s.rd T.wake t) % 2 ^ 32
  let ts := ((s.eff.filter (fun e => e.1 % 0x100000 == 0x90020)).map (fun e => e.1 / 0x100000)).filter (fun t =>
    s.rd T.state t == tsDelayed && decide (late t < 2 ^ 31))
  ts.foldr (insertTask (fun a b => decide (late b < late a) || (late a == late b && decide (a < b)))) []

/-- TASK_WAKE (R317): in the device-level work of a core tick. -/
def taskWake (s : State) : State :=
  let due := s.dueTasks
  let n := 32 * max 1 (s.rd F.TDS_CFG_WAKE_MAX 0)
  ((due.take n).foldl State.makeReady s).addN F.TDS_WAKE_LATE 0 (due.length - n)

/-! ### Mailboxes (R321) -/

/-- The message that a requester has composed. -/
def State.mboxMsg (s : State) (req : Nat) : List Word := (List.range 4).map (fun k => s.reg req (F.TDS_MBOX_W k).off)

def State.postIn (s : State) (req : Nat) : State :=
  if 64 ≤ s.tds.mboxIn.length then s.inc F.TDS_MBOX_FULL_IN 0
  else { s with tds := { s.tds with mboxIn := s.tds.mboxIn ++ [s.mboxMsg req] } }.raise 6 0

def State.postOut (s : State) (req : Nat) : State :=
  if 64 ≤ s.tds.mboxOut.length then s.inc F.TDS_MBOX_FULL_OUT 0
  else
    let s := { s with tds := { s.tds with mboxOut := s.tds.mboxOut ++ [s.mboxMsg req] } }
    if s.on F.HDMA_VEC_MISC_MBOX_EN 0 then s.msix (s.rd F.HDMA_VEC_MISC_MBOX 0) else s

def State.popIn (s : State) : State := { s with tds := { s.tds with mboxIn := s.tds.mboxIn.drop 1 } }
def State.popOut (s : State) : State := { s with tds := { s.tds with mboxOut := s.tds.mboxOut.drop 1 } }

/-! ### Frames for a core and from it (R309, R310) -/

/-- STATUS of a frame for a core: DONE, SOF and EOF (R309). -/
def coreStatus : Nat := 7

/-- CORE_DELIVERY (R309): the frame at the head of a core's queue copied into the slot at HEAD, where one is free. -/
def coreDelivery (k : Nat) (rd : FsRead) (s : State) : State :=
  let head := s.rd (F.TDS_IN_HEAD k) 0
  if (head + 1) % 512 = s.rd (F.TDS_IN_TAIL k) 0 then s
  else match s.deliverable (qCore k) with
    | none => s
    | some x =>
      let w := (s.takeDelivery (qCore k) x).readWords rd 0 x.slice
      if w.2 then w.1
      else
        let a := k * 2 ^ 26 + head * 2 ^ 15
        let s := w.1.putCoreBytes a (toBytes (bytesLE 8 0) ++ rxDesc x x.len coreStatus true)
        ((s.putCoreBytes (a + 64) x.bytes).wr (F.TDS_IN_HEAD k) 0 ((head + 1) % 512)).raise 5 k

/-- TDS_INJ_GO (R310): the address and the length are those of the requester's copy at GO. -/
def State.injectGo (s : State) (req : Nat) : State :=
  match coreOf req with
  | none => s
  | some k =>
    if s.on F.TDS_INJ_CTL_BUSY req then s.inc F.TDS_INJ_REFUSED 0
    else { s with tds := { s.tds with
      inj := tput (fun _ => none) s.tds.inj k (some (s.rd F.TDS_INJ_ADDR req, s.rd F.TDS_INJ_LEN req)) } }.wr F.TDS_INJ_CTL_BUSY req 1

/-- Free bytes: what a read gives of which the spec states nothing. -/
def State.freeBytes (s : State) (n : Nat) : List Byte × State :=
  ((List.range n).map (fun i => BitVec.ofNat 8 (Config.freeValue (s.free + i))), { s with free := s.free + n })

/-- The bytes of a frame that a core injects (R310): of its local SRAM or of service-core memory; elsewhere no frame lies, and the
spec states no bytes (free values, log entry 135). -/
def State.injBytes (s : State) (k a n : Nat) : List Byte × State :=
  match corePlace a with
  | .sram p => (s.sramBytes k p n, s)
  | .mem p => (s.coreBytes p n, s)
  | _ => s.freeBytes n

/-- INJECTION_READ_DONE (R310): the frame has been read; one with a granule that could not be read, or that is poisoned, is not
injected (DESIGN CHOICE, log entry 135). -/
def injectionReadDone (k : Nat) (failed : Bool) (s : State) : State :=
  match tget (fun _ => none) s.tds.inj k with
  | none => s
  | some (a, n) =>
    let n := min n 16379
    let s := { s with tds := { s.tds with inj := tput (fun _ => none) s.tds.inj k none } }.wr F.TDS_INJ_CTL_BUSY (k + 1) 0
    let bad := failed || (match corePlace a with | .mem p => s.corePoisoned p n | _ => false)
    let b := s.injBytes k a n
    if bad then s else b.2.inject 2 k b.1

/-! ### The commands -/

/-- TDS_TASK_W_WRITE. -/
def execTdsTaskWWrite (req : Fin 19) (k : Fin 8) (value : Word) (s : State) : Outcome State Fault Refusal :=
  doneWrite req s (s.ordered req (0x90010 + 4 * k) [s.taskSel req] (fun t =>
    (t.writeTask req k value).foldWrites req (0x90010 + 4 * k) (if t.taskOpen req then [t.taskSel req] else [])))
/-- ARM. -/
def execArm (req : Fin 19) (s : State) : Outcome State Fault Refusal := doneWrite req s (s.armTask req)
/-- KICK. -/
def execKick (req : Fin 19) (s : State) : Outcome State Fault Refusal := doneWrite req s (s.kickTask req)
/-- SUSPEND. -/
def execSuspend (req : Fin 19) (s : State) : Outcome State Fault Refusal := doneWrite req s (s.suspendTask req)
/-- RESUME. -/
def execResume (req : Fin 19) (s : State) : Outcome State Fault Refusal := doneWrite req s (s.resumeTask req)
/-- DELAY. -/
def execDelay (req : Fin 19) (ticks : BitVec 16) (s : State) : Outcome State Fault Refusal :=
  doneWrite req s (s.delayTask req ticks.toNat)
/-- FREE. -/
def execFree (req : Fin 19) (s : State) : Outcome State Fault Refusal := doneWrite req s (s.freeTask req)
/-- TDS_NEXT_READ. -/
def execTdsNextRead (req : Fin 19) (s : State) : Outcome State Fault Refusal := done s (s.readNext req)
/-- END. -/
def execEndRun (req : Fin 19) (s : State) : Outcome State Fault Refusal := doneWrite req s (s.leaveRun req .finish)
/-- YIELD. -/
def execYield (req : Fin 19) (s : State) : Outcome State Fault Refusal := doneWrite req s (s.leaveRun req .yield)
/-- SLEEP. -/
def execSleep (req : Fin 19) (ticks : BitVec 16) (s : State) : Outcome State Fault Refusal :=
  doneWrite req s (s.leaveRun req (.sleep ticks.toNat))
/-- PREEMPT_TIMEOUT. -/
def execPreemptTimeout (core : Fin 16) (s : State) : Outcome State Fault Refusal := done s (preemptTimeout core s)
/-- TASK_WAKE. -/
def execTaskWake (s : State) : Outcome State Fault Refusal := done s (taskWake s)
/-- TDS_EV_RAISE (R319): software event 14/idx. -/
def execTdsEvRaise (req : Fin 19) (idx : Fin 64) (s : State) : Outcome State Fault Refusal := doneWrite req s (s.raise 14 idx)
/-- POST_IN. -/
def execPostIn (req : Fin 19) (s : State) : Outcome State Fault Refusal := doneWrite req s (s.postIn req)
/-- POST_OUT. -/
def execPostOut (req : Fin 19) (s : State) : Outcome State Fault Refusal := doneWrite req s (s.postOut req)
/-- POP_IN. -/
def execPopIn (req : Fin 19) (s : State) : Outcome State Fault Refusal := doneWrite req s s.popIn
/-- POP_OUT. -/
def execPopOut (req : Fin 19) (s : State) : Outcome State Fault Refusal := doneWrite req s s.popOut
/-- OFFLINE (R325). -/
def execOffline (req : Fin 19) (core : Fin 16) (s : State) : Outcome State Fault Refusal :=
  doneWrite req s ((s.offlineCore core).foldWrites req (F.TDS_CORE_CTL core).off [0])
/-- CORE_DELIVERY. -/
def execCoreDelivery (core : Fin 16) (rd : FsRead) (s : State) : Outcome State Fault Refusal :=
  done s (coreDelivery core rd s)
/-- TDS_INJ_GO. -/
def execTdsInjGo (req : Fin 19) (s : State) : Outcome State Fault Refusal := doneWrite req s (s.injectGo req)
/-- INJECTION_READ_DONE. -/
def execInjectionReadDone (core : Fin 16) (failed : Bool) (s : State) : Outcome State Fault Refusal :=
  done s (injectionReadDone core failed s)

end Sys2Proof.Machine
end

