-- ==== Sys2Proof/Machine/RegRead.lean ====
section
/-!
DEFINITION. Reads of the register map (R5 to R7, R38, R424 to R429, R444): the registers that show another part of the
state, the value of a register as read, the fields that a read clears, and the commands READ_CLEAR and DEV_TICK_LO_READ.
-/

namespace Sys2Proof.Machine
open Host (Outcome)

/-! ### Instances (R424, R426) -/

/-- The instances that a requester's write to a register reaches (R38 for a broadcast). -/
def State.writeInsts (s : State) (req : Nat) (r : RegRow) : List Nat :=
  match r.bank with
  | .dev => [0]
  | .req => [req]
  | .chan => s.chSel req
  | .oct => [s.rd F.OCTSEL req]
  | .queue => [s.rd F.QSEL req]
  | .peg => [s.rd F.PEGSEL req]
  | .memch => [s.rd F.MEMSEL req]
  | .ring => [s.rd F.RINGSEL req % 256]
  | .meter => [2048 * s.rd F.OCTSEL req + s.rd F.OCT_MTR_SEL req]
  | .lane => s.tstLanes req
  | .reqChan => (s.chSel req).map (ppInst req)
  | .fltSrc => if s.rd F.FLT_SRC_SEL_SRC req < 16 then [s.rd F.FLT_SRC_SEL_SRC req] else []
  | .fltInst => if s.rd F.FLT_SRC_SEL_SRC req < 16 then [256 * s.rd F.FLT_SRC_SEL_SRC req + s.rd F.FLT_SRC_SEL_INST req] else []
  | .event => [s.rd F.TDS_EV_SEL req]
  | .task => [s.rd F.TDS_TASK_SEL req]
  | .logEntry => [s.rd F.FLT_LOG_IDX req]

/-- The instance that a requester's read of a register reaches: CHSEL.CH, whatever BCAST (R38). -/
def State.readInst (s : State) (req : Nat) (r : RegRow) : Option Nat :=
  match r.bank with
  | .chan => some (s.rd F.CHSEL_CH req)
  | .lane => some (s.tstLane req)
  | .reqChan => some (ppInst req (s.rd F.CHSEL_CH req))
  | _ => (s.writeInsts req r).head?

/-! ### Registers that show another part of the state -/

/-- Word k of some bytes, least significant byte first. -/
def wordOf (bs : List Byte) (k : Nat) : Word := BitVec.ofNat 32 (fieldLE bs (4 * k) 4)

/-- A level shown in two's complement. -/
def wordOfInt (v : Int) : Nat := codeInt 32 v

/-- FLT_INST_STAT of an instance (R401, R402, R404, R405). -/
def State.instStat (s : State) (i : Nat) : State :=
  let src := i / 256
  let w := s.watchOf src (i % 256)
  let s := ((s.wrB F.FLT_INST_STAT_LASTING i w.lasting).wrB F.FLT_INST_STAT_EFFECT i w.effect).wrB F.FLT_INST_STAT_NOEFFECT i
    w.noeffect
  ((s.wr F.FLT_INST_STAT_ROW i w.row).wrB F.FLT_INST_STAT_TRACKED i w.tracked).wr F.FLT_INST_STAT_WCOUNT i
    (s.wcount src (i % 256))

/-- Registers of the DEV, PWR, CLS and MEM regions brought up to date for a read. -/
def State.showDevice (s : State) (req off i : Nat) : State :=
  if off = 0x8 then s.wr F.DEV_WHOAMI i req
  else if off = 0x10 then s.wr F.DEV_TICK_LO i s.eng.tick
  else if 0x13000 ≤ off && decide (off < 0x14C44) then s.setReg i off (wordOf s.identity ((off - 0x13000) / 4))
  else if off = 0x20000 then s.wr F.PWR_FEED_STAT_MAIN_OK_S i s.mainOkS
  else if off = 0x50210 then s.wr F.OCT_PAT_LEVEL i (s.holdOf i).length
  else if off = 0x50314 then s.wr F.OCT_DESC_USE i (s.descUsed i)
  else if off = 0x60018 then (s.wr F.CLS_EPOCH_FLT0_HI i (s.inEpoch 1)).wr F.CLS_EPOCH_FLT0_LO i (s.inEpoch 0)
  else if off = 0x6001C then (s.wr F.CLS_EPOCH_FLT1_HI i (s.inEpoch 3)).wr F.CLS_EPOCH_FLT1_LO i (s.inEpoch 2)
  else if off = 0x60024 then s.setReg i off (wordOf (s.tblBytes (s.rd F.CLS_IND_ADDR_ADDR req / 4 * 4) 4) 0)
  else if off = 0x80100 then s.wrB F.MEM_CH_STAT_PANIC i s.memPanic
  else if off = 0x80E14 then s.wr F.MEM_EVAC_LEFT i s.evacLeft
  else if off = 0x80E18 then s.wr F.MEM_POISON_USE i (min 256 s.mem.poison.length)
  else if off = 0x80E1C then s.wr F.MEM_DEEP_LOST i s.mem.lost
  else if off = 0x80E24 then s.wr F.MEM_DEEP_FRAMES i s.deepFrames
  else if off = 0x80F08 then s.wr F.MEM_DEEP_STAT i (s.store.tokens / (128 * 1024))
  else if off = 0x80F0C then s.wr F.MEM_DEEP_FREE i s.deepFree
  else s

/-- Registers of the TDS, HDMA, TWN and FLT regions brought up to date for a read. -/
def State.showAgents (s : State) (off i : Nat) : State :=
  if off = 0x90060 then (s.wr F.TDS_MBOX_CTL_IN_LEVEL i s.tds.mboxIn.length).wr F.TDS_MBOX_CTL_OUT_LEVEL i s.tds.mboxOut.length
  else if 0x90074 ≤ off && decide (off < 0x90084) then s.setReg i off ((s.tds.mboxIn.headD []).getD ((off - 0x90074) / 4) 0)
  else if 0x90084 ≤ off && decide (off < 0x90094) then s.setReg i off ((s.tds.mboxOut.headD []).getD ((off - 0x90084) / 4) 0)
  else if off = 0x90420 then s.wr F.TDS_READY i s.readyCount
  else if off = 0xA0124 then s.wr F.HDMA_RING_STAT_QLEVEL i (if i < 128 then min 65535 (s.qCount (qRing i)) else 0)
  else if off = 0xB0004 then
    let tx := (List.range 8).foldl (fun v k => if s.laneTx k then v + 2 ^ k else v) 0
    let rx := (List.range 8).foldl (fun v k => if s.laneRx k then v + 2 ^ k else v) 0
    ((s.wr F.TWN_STAT_COPY i s.copyState).wr F.TWN_STAT_LANES_TX i tx).wr F.TWN_STAT_LANES_RX i rx
  else if 0xB0100 ≤ off && decide (off < 0xB0200) then
    let c := (off - 0xB0100) / 4
    s.wrB (F.TWN_PAIR_STATE c) i (s.pairActive c)
  else if off = 0xC0010 then s.instStat i
  else if off = 0xC0020 then
    s.wr F.FLT_LASTING i ((List.range 16).foldl (fun v src => if s.srcLasting src then v + 2 ^ src else v) 0)
  else if off = 0xC0024 then (s.wrB F.FLT_FOUT_STATE i s.fout).wr F.FLT_FOUT_CAUSE i s.foutCause
  else if 0xC0108 ≤ off && decide (off < 0xC0128) then
    s.setReg i off (wordOf (toBytes (tget (fun _ => LogEnt.empty) s.flt.log i).bytes) ((off - 0xC0108) / 4))
  else s

/-- Registers of the channel and queue windows and of the chords brought up to date for a read. -/
def State.showChannel (s : State) (off i : Nat) : State :=
  if off = 0x40340 then
    (s.wr F.CH_BM_CTL_TX_LEVEL i (s.framer i).bmTx.length).wr F.CH_BM_CTL_RX_LEVEL i (s.framer i).bmRx.length
  else if 0x403C0 ≤ off && decide (off < 0x40400) then
    s.setReg i off (wordOf ((s.framer i).bmRx.headD []) ((off - 0x403C0) / 4))
  else if 0x41200 ≤ off && decide (off < 0x41300) && off % 32 == 16 then
    s.setReg i off (BitVec.ofNat 32 (wordOfInt (s.shpShown (shpGroup i ((off - 0x41200) / 32)))))
  else if off = 0x4130C then s.setReg i off (BitVec.ofNat 32 (wordOfInt (s.shpShown (shpChan i))))
  else if off = 0x41620 then s.wr F.CH_STQ_CTL_LEVEL i (s.stqOf i).length
  else if 0x41640 ≤ off && decide (off < 0x41660) then s.setReg i off (wordOf ((s.stqOf i).headD []) ((off - 0x41640) / 4))
  else if off = 0x41718 then s.wr F.CH_MAC_STAT_QUANTA i (s.quantaLeft i)
  else if 0x42800 ≤ off && decide (off < 0x43000) then
    let g := s.gateOper i ((off - 0x42800) / 8)
    s.setReg i off (BitVec.ofNat 32 (if off % 8 = 0 then g.1 % 256 else g.2))
  else if off = 0x7011C then s.setReg i off (BitVec.ofNat 32 (wordOfInt (s.shpShown (shpQueue i))))
  else if off = 0x70140 then s.setReg i off (BitVec.ofNat 32 (s.qBytes i / 64))
  else if off = 0x70144 then s.wr F.QSH_Q_FRAMES i (s.qCount i)
  else if 0x78000 ≤ off && decide (off < 0x78800) && (off - 0x78000) % 64 == 0x28 then
    let ch := (off - 0x78000) / 64
    (s.wr (F.QSH_CHORD_STAT_TX_UP ch) i (s.txUpMask ch)).wr (F.QSH_CHORD_STAT_RX_UP ch) i (s.rxUpMask ch)
  else s

/-- The value in effect of a register instance, with what it shows of other parts of the state. -/
def State.shown (s : State) (req off i : Nat) : Word :=
  let reg := off / 0x10000
  let t := if reg = 4 || reg = 7 then s.showChannel off i
    else if 9 ≤ reg then s.showAgents off i else s.showDevice req off i
  t.reg i off

/-! ### Reading (R5 to R7, R429) -/

/-- The word that a read of a register instance returns: RWT fields from the shadow, WO fields 0; of a sleeping octant
what its saved copy holds (R429). -/
def State.readWord (s : State) (req off i : Nat) (r : RegRow) : Word :=
  let sleeps := s.keySleeps (rkey i off)
  let e := accMask r.flds (fun a => if sleeps then a == .rw || a == .rc else a != .wo && a != .rwt)
  let h := accMask r.flds (· == .rwt)
  (s.shown req off i &&& BitVec.ofNat 32 e) ||| (s.shadow i off &&& BitVec.ofNat 32 h)

/-- Whether bytes lo to hi of a word hold a field whole. -/
def coversField (lo hi : Nat) (f : Nat × Nat × Acc) : Bool := decide (8 * lo ≤ f.2.1) && decide (f.1 < 8 * hi + 8)

/-- The RC fields that a read of bytes lo to hi of a register clears (R5). -/
def rcCleared (r : RegRow) (lo hi : Nat) : Nat := accMask (r.flds.filter (coversField lo hi)) (· == .rc)

/-- What a read does beside returning its bytes: a latch, a pop, a dispatch, the next word of the aperture. -/
def State.readEffect (s : State) (req off : Nat) : State :=
  if off = 0x10 then s.wr F.DEV_TICK_HI req (s.eng.tick / 2 ^ 32)
  else if off = 0x10080 then s.rdigLatch req
  else if off = 0x40494 then s.measPop req
  else if off = 0x60024 && s.on F.CLS_IND_ADDR_AUTO req then s.wr F.CLS_IND_ADDR_ADDR req (s.rd F.CLS_IND_ADDR_ADDR req + 4)
  else if off = 0x90040 then s.readNext req
  else s

/-- Registers whose read latches or dispatches first and then returns the new value (R314, R362). -/
def readsAfter (off : Nat) : Bool := off == 0x10080 || off == 0x90040

/-- A read of bytes lo to hi of the register at an aligned offset: the bytes, and the state after it. -/
def State.readRegister (s : State) (req off lo hi : Nat) : List Byte × State :=
  match findRow off with
  | none => ([], s)
  | some r => match s.readInst req r with
    | none => ([], s)
    | some i =>
      let t := s.readEffect req off
      let w := if readsAfter off then t.readWord req off i r else s.readWord req off i r
      let m := rcCleared r lo hi
      (toBytes (bytesLE 4 w.toNat), if m = 0 then t else t.setReg i off (t.reg i off &&& ~~~(BitVec.ofNat 32 m)))

/-- A word of region 0xE, served to the host (R425): the table, or the pending bits. -/
def State.readMsix (s : State) (off : Nat) : List Byte :=
  let k := off % 0x10000 / 4
  if k < 1024 then toBytes (bytesLE 4 (tget msixDefault s.host.msixTab k).toNat)
  else if k < 1032 then
    toBytes (bytesLE 4 ((List.range 32).foldl (fun v i => if s.host.msixPend.contains (32 * (k - 1024) + i) then v + 2 ^ i else v) 0))
  else []

/-- A read of n bytes from an offset, register by register in ascending offset (R444): the bytes and the state. -/
def State.readBytes (s : State) (req off n : Nat) : List Byte × State :=
  (List.range ((off % 4 + n + 3) / 4)).foldl (fun (p : List Byte × State) k =>
    let a := off / 4 * 4 + 4 * k
    let lo := if k = 0 then off % 4 else 0
    let hi := min 3 (off % 4 + n - 1 - 4 * k)
    let r := if a / 0x10000 = 0xE then (if req = 0 then p.2.readMsix a else [], p.2) else p.2.readRegister req a lo hi
    (p.1 ++ slice (exactly 4 r.1) lo (hi + 1 - lo), r.2)) ([], s)

/-- A read of the register space or of the aperture, whose reads return the master (R173). -/
def State.readSpace (s : State) (req : Nat) (a : Addr) (n : Nat) : List Byte × State :=
  match a with
  | .reg off => s.readBytes req off.toNat n
  | .table ofs => (s.tblBytes ofs.toNat n, s)
  | _ => ([], s)

/-- A read of n bytes at an address; a core's own addresses serve that core alone. What service-core memory holds comes when its
memory channels have completed the access (R307). -/
def State.readAt (s : State) (req : Nat) (a : Addr) (n : Nat) : List Byte × State :=
  match a with
  | .core x =>
    if req = 0 || 16 < req then ([], s)
    else match corePlace x.toNat with
      | .sram p => (s.sramBytes (req - 1) p n, s)
      | .place b => s.readSpace req b n
      | .mem p => ([], s.coreAccess (req - 1) p (.read n))
      | .none => ([], s)
  | .atomic .. => ([], s)
  | a => s.readSpace req a n

/-- A read of a requester answered. -/
def State.readFor (s : State) (req : Nat) (a : Addr) (n : Nat) : State :=
  let r := s.readAt req a n
  r.2.answer req r.1

/-- The outcome of a read: an engine that is held answers ones (R397). -/
def doneRead (req n : Nat) (s t : State) : Outcome State Fault Refusal :=
  .next (if s.isHeld then s.answer req (List.replicate n 0xFF) else s.after t)

/-- READ_CLEAR (R5, R444; R173 for the aperture; R307 for a core's own address space). -/
def execReadClear (req : Fin 19) (at_ : Addr) (len : Fin 4097) (s : State) : Outcome State Fault Refusal :=
  doneRead req len s (s.readFor req at_ len)

/-- DEV_TICK_LO_READ (R17): the latch of DEV_TICK_HI goes with it. -/
def execDevTickLoRead (req : Fin 19) (s : State) : Outcome State Fault Refusal :=
  doneRead req 4 s ((s.readEffect req F.DEV_TICK_LO.off).answer req (toBytes (bytesLE 4 s.eng.tick)))

end Sys2Proof.Machine
end

