-- ==== Sys2Proof/Machine/RegWrite.lean ====
section
/-!
DEFINITION. Writes of the register map (R5 to R7, R24, R36, R38, R360, R424 to R429, R444): the bytes enabled, the fields
that take them, the registers with a rule of their own, what a write starts, its fold (R32), and the commands
REGISTER_WRITE, TICK_COMMIT, PEG_SRV_FWOFS_HI_WRITE and TST_ENABLE_WRITE.
-/

namespace Sys2Proof.Machine
open Host (Outcome)

/-! ### The bytes of a write -/

/-- The bits that the enabled bytes of a word cover. -/
def byteMask : List (Option Byte) → Nat
  | [] => 0
  | b :: bs => (if b.isSome then 255 else 0) + 256 * byteMask bs

/-- The value that the enabled bytes give, others 0. -/
def byteValue : List (Option Byte) → Nat
  | [] => 0
  | b :: bs => (b.getD 0).toNat + 256 * byteValue bs

/-- A word with some bits taken from another. -/
def mixWord (old new : Word) (m : Nat) : Word := (old &&& ~~~(BitVec.ofNat 32 m)) ||| (new &&& BitVec.ofNat 32 m)

/-- Whether a write enables every byte of a register (R5). -/
def fullWord (d : List (Option Byte)) : Bool := byteMask d == 0xFFFFFFFF

/-! ### Fields that a write may change (R7) -/

/-- The bits of a register that are open to a write of a requester: all, but for PWR_VETO (R384), CLS_EPOCH under R344,
the LEAD of a terminal outside T-IDLE, T-LISTEN and T-DISCOVER, a ring's layout while it is enabled (R272), the address
map of the deep store once it is in use (R287), and the fixed inputs' fields but LOG (R422). -/
def State.openBits (s : State) (req off i : Nat) : Nat :=
  if off = 0x20024 then (if req = 0 then 0xFFFFFFFF else 0)
  else if off = 0x60004 then (if s.ruleRefused req then 0 else 0xFFFFFFFF)
  else if off = 0x404A0 then (if s.rd F.CH_TERM_CTL_STATE i ≤ 2 then 0xFFFFFFFF else 0xFF80FFFF)
  else if [0xA0100, 0xA0104, 0xA0114, 0xA0118].contains off then (if s.on F.HDMA_RING_CFG_EN i then 0 else 0xFFFFFFFF)
  else if off = 0xA0108 then (if s.on F.HDMA_RING_CFG_EN i then 0x80000000 else 0xFFFFFFFF)
  else if off = 0x80E00 then (if s.mem.initDone then 0xFFFFFFFC else 0xFFFFFFFF)
  else if 0xC0510 ≤ off && decide (off < 0xC0540) && off % 16 == 0 then 2 ^ (F.FLT_IN_CFG_LOG 0).lo
  else 0xFFFFFFFF

/-- A register's RW fields after a write of some bytes. -/
def State.merged (s : State) (off i : Nat) (r : RegRow) (d : List (Option Byte)) : Word :=
  mixWord (s.reg i off) (BitVec.ofNat 32 (byteValue d)) (accMask r.flds (· == .rw) &&& byteMask d)

/-- RW fields written, for registers that only hold them. -/
def State.writeRw (s : State) (req off i : Nat) (r : RegRow) (d : List (Option Byte)) : State :=
  s.setReg i off (mixWord (s.reg i off) (s.merged off i r d) (s.openBits req off i))

/-- The other fields of a whole-word write: W1C cleared, W1S set, RWT into the shadow (R7). -/
def State.writeRest (s : State) (req off i : Nat) (r : RegRow) (v : Word) : State :=
  let m (p : Acc → Bool) : Word := BitVec.ofNat 32 (accMask r.flds p &&& s.openBits req off i)
  let w := (s.reg i off &&& ~~~(v &&& m (· == .w1c))) ||| (v &&& m (· == .w1s))
  let s := if w = s.reg i off then s else s.setReg i off w
  let h := m (· == .rwt)
  if h = 0 then s else s.setShadow i off ((s.shadow i off &&& ~~~h) ||| (v &&& h))

/-! ### Registers whose RW fields have a rule of their own -/

/-- CLS_IND_DATA (R173): a write of the aperture word that CLS_IND_ADDR names, which then moves on under AUTO. -/
def State.writeInd (s : State) (req : Nat) (d : List (Option Byte)) : State :=
  let a := s.rd F.CLS_IND_ADDR_ADDR req / 4 * 4
  let s := tableWrite req a d s
  if s.on F.CLS_IND_ADDR_AUTO req then s.wr F.CLS_IND_ADDR_ADDR req (a + 4) else s

/-- TDS_CORE_CTL of a core (R325); an end of OFFLINE ends what ISOLATE did to the core (R404). -/
def State.writeCoreCtl (s : State) (k : Nat) (w : Word) : State :=
  if getF w (F.TDS_CORE_CTL k) != 0 then s.offlineCore k else (s.onlineCore k).endEffect [fsCoreFault, fsPreemptLate] k

/-- HDMA_RING_CFG (R272): EN from 0 to 1 enables the ring, 0 disables it. -/
def State.writeRingCfg (s : State) (req i : Nat) (r : RegRow) (d : List (Option Byte)) : State :=
  let w := s.merged 0xA0108 i r d
  let was := s.rd F.HDMA_RING_CFG_EN i
  let s := (s.writeRw req 0xA0108 i r d).wr F.HDMA_RING_CFG_EN i was
  if getF w F.HDMA_RING_CFG_EN != 0 then s.enableRing i else s.wr F.HDMA_RING_CFG_EN i 0

/-- TST_INJ on one lane: CONT from 0 to 1 begins a continuous injection anew, with the next codeword that the lane sends (R65). -/
def State.writeInj (s : State) (req i : Nat) (r : RegRow) (d : List (Option Byte)) : State :=
  let was := s.on F.TST_INJ_CONT i
  let s := s.writeRw req 0xD010C i r d
  if s.on F.TST_INJ_CONT i && !was then s.modLane i (fun x => { x with tx := { x.tx with last := none } }) else s

/-- What a write gives the RW fields of a register; EYE_SCAN.START counts only in a whole-word write (R5). -/
def State.newFields (s : State) (off i : Nat) (r : RegRow) (d : List (Option Byte)) : Word :=
  let w := s.merged off i r d
  if off = 0xD0114 then setF w F.TST_EYE_SCAN_START (if fullWord d then byteValue d / 2 ^ 31 else 0) else w

/-- The RW fields of a register written. -/
def State.writeFields (s : State) (req off i : Nat) (r : RegRow) (d : List (Option Byte)) : State :=
  let w := s.newFields off i r d
  if s.keySleeps (rkey i off) then s.writeRw req off i r d
  else if off = 0x404A4 then s.armEqd i w
  else if 0x40500 ≤ off && decide (off < 0x40900) && off % 32 == 0 then s.trecWrite i ((off - 0x40500) / 32) w (byteMask d)
  else if off = 0x60024 then s.writeInd req d
  else if 0x90010 ≤ off && decide (off < 0x90030) then s.writeTask req ((off - 0x90010) / 4) w
  else if 0x90100 ≤ off && decide (off < 0x90200) && off % 16 == 4 then s.writeCoreCtl ((off - 0x90100) / 16) w
  else if off = 0xA0108 then s.writeRingCfg req i r d
  else if off = 0xA010C then s.writeTail i (getF w F.HDMA_RING_TAIL)
  else if off = 0xB0008 then twnLanesWrite (getF w F.TWN_LANES_OUT) s
  else if [0xD0100, 0xD0110, 0xD0114].contains off then s.tstWrite i off w (byteMask d)
  else if off = 0xD010C then s.writeInj req i r d
  else s.writeRw req off i r d

/-- Whether the RW fields of a register take the value that a write gives them: not a record's words outside FREE and
SUSPENDED (R311), three lanes out of service (R330), a TAIL at or above 2^SIZE (R272), a test that is refused (R62). A write
that is ignored is no change and is not folded (R362, log entry 14). -/
def State.takesFields (s : State) (req off i : Nat) (w : Word) (m : Nat) : Bool :=
  if 0x90010 ≤ off && decide (off < 0x90030) then s.taskOpen req
  else if off = 0xB0008 then decide (popCount 8 (getF w F.TWN_LANES_OUT) ≤ 2)
  else if off = 0xA010C then decide (getF w F.HDMA_RING_TAIL < s.ringSize i)
  else if [0xD0100, 0xD0110, 0xD0114].contains off then !s.tstRefused i off w m
  else true

/-- Whether a write is a GO_OUT that is not accepted: it is ignored (R305). -/
def State.goOutRefused (s : State) (off : Nat) (d : List (Option Byte)) : Bool :=
  off == F.MEM_MAPOUT_GO_OUT.off && fullWord d && bit (byteValue d) 31 && s.rd F.MEM_MAPOUT_STATE 0 != moIn

/-- What follows a write of some registers: the records copied to the partner (Table: Copy records), a firmware sample
(R244), the two low address bits that CLS_IND_ADDR holds at 0, a refused CLS_EPOCH counted (R344). -/
def State.afterWrite (s : State) (req off i : Nat) (full : Bool) : State :=
  if s.keySleeps (rkey i off) then s
  else if off = 0x404A0 || off == 0x40300 || off == 0x404A8 then s.copyTerm i
  else if 0x40500 ≤ off && decide (off < 0x40900) && [4, 12, 16].contains (off % 32) then s.copyTrec i ((off - 0x40500) / 32)
  else if off = 0x30150 then s.fwSample i
  else if off = 0x60020 then s.wr F.CLS_IND_ADDR_ADDR i (s.rd F.CLS_IND_ADDR_ADDR i / 4 * 4)
  else if off = 0x60004 && full && s.ruleRefused req then s.inc F.TWN_RULE_REFUSED 0
  else s

/-! ### What a whole-word write starts (WO fields) -/

/-- TICK_COMMIT (R26, R27, R29): the scope captured, due at the next boundary, or after the cutoff at the one after. -/
def State.tickCommit (s : State) (req : Nat) (w : Word) : State :=
  let byMask := getF w F.TICK_COMMIT_CH_BY_MASK != 0
  let byOct := getF w F.TICK_COMMIT_CH_BY_OCT != 0
  let octs := getF w F.TICK_COMMIT_OCT_MASK
  let dev := getF w F.TICK_COMMIT_DEV != 0
  if !byMask && !byOct && octs == 0 && !dev then s
  else
    let m : Nat := if byMask then s.rd F.TICK_COMMIT_CHM1 req * 2 ^ 32 + s.rd F.TICK_COMMIT_CHM0 req else 0
    let chs := (List.range 64).foldl (fun v c => if bit m c || (byOct && bit octs (c / 8)) then v + 2 ^ c else v) 0
    let wait := if s.eng.past then 2 else 1
    let s := { s with eng := { s.eng with commits := s.eng.commits ++ [({ req, wait, dev, octs, chs } : Commit)] } }
    ((s.wr F.TICK_COMMIT_STAT_PENDING req 1).wrB F.TICK_COMMIT_STAT_LATE req s.eng.past).wr F.TICK_COMMIT_TICK req
      (s.eng.tick + wait)

/-- A task command (R312): 6 and 7 name none. -/
def State.taskCommand (s : State) (req : Nat) (v : Word) : State :=
  match getF v F.TDS_TASK_CMD_CMD with
  | 0 => s.armTask req
  | 1 => s.kickTask req
  | 2 => s.suspendTask req
  | 3 => s.resumeTask req
  | 4 => s.delayTask req (getF v F.TDS_TASK_CMD_TICKS)
  | 5 => s.freeTask req
  | _ => s.refuseTask req

/-- A payload key operation (R366) by its code. -/
def State.ppCommand (s : State) (req op : Nat) : State :=
  match op with
  | 0 => Sys2Proof.Machine.writeSlot req s
  | 1 => Sys2Proof.Machine.eraseSlot req s
  | 2 => Sys2Proof.Machine.eraseTid req s
  | _ => Sys2Proof.Machine.eraseChannel req s

/-- A mailbox operation (R321) by its code. -/
def State.mboxCommand (s : State) (req op : Nat) : State :=
  match op with
  | 0 => s.postIn req
  | 1 => s.postOut req
  | 2 => s.popIn
  | _ => s.popOut

/-- Bit i of a word. -/
def wbit (v : Word) (i : Nat) : Bool := bit v.toNat i

/-- What a write of WO fields starts, in the device-level regions. -/
def State.startDevice (s : State) (req off : Nat) (v : Word) : State :=
  let go := wbit v 31
  if off = 0x100 then s.tickCommit req v
  else if off = 0x1000C then (if go then s.advance else s)
  else if off = 0x10010 then (if go then s.imgVerify else s)
  else if off = 0x10014 then (if go then s.restart (getF v F.IMG_CTL_KEY) else s)
  else if off = 0x10100 then (if go then s.flashGo (getF v F.IMG_FL_CTL_OP % 3) else s)
  else if off = 0x10300 then (if go then s.attRequest req else s)
  else if off = 0x20020 then (if go then dsRequest req s else s)
  else if off = 0x30100 then s.pegCtl req go (wbit v 30) (wbit v 29)
  else if off = 0x50500 then (if go then octPwrReq req (getF v F.OCT_PWR_REQ_TARGET) s else s)
  else if off = 0x60140 then (if go then s.emStart req (getF v F.CLS_EM_CTL_OP) else s)
  else if off = 0x80E0C then
    let s := if go then s.mapOut (s.rd F.MEM_MAPOUT_DEV 0) else s
    if wbit v 30 then s.goIn else s
  else s

/-- What a write of WO fields starts, in the TDS, TWN and FLT regions. -/
def State.startAgents (s : State) (req off : Nat) (v : Word) : State :=
  let go := wbit v 31
  if off = 0x90030 then (if go then s.taskCommand req v else s)
  else if off = 0x90044 then
    let n := getF v F.TDS_DONE_TICKS
    (match getF v F.TDS_DONE_OP with
      | 1 => s.leaveRun req .yield
      | 2 => s.leaveRun req (.sleep n)
      | _ => s.leaveRun req .finish)
  else if off = 0x90058 then s.raise 14 (getF v F.TDS_EV_RAISE)
  else if off = 0x90060 then s.mboxCommand req (getF v F.TDS_MBOX_CTL_OP)
  else if off = 0x90308 then (if go then s.injectGo req else s)
  else if off = 0xB000C then
    (if go then twnSwitch req (getF v F.TWN_SWITCH_CH) (wbit v 29) (wbit v 30) s else s)
  else if off = 0xC0018 then
    let s := if go then clear req s else s
    if wbit v 30 then undo req s else s
  else if off = 0xC0300 then (if go then bistRequest req (getF v F.FLT_BIST_CTL_KIND) (getF v F.FLT_BIST_CTL_IDX) s else s)
  else s

/-- What a write of WO fields starts on the selected channels or lanes; nothing on those of an octant in S2 or S3. -/
def State.startChannels (s : State) (req off : Nat) (v : Word) : State :=
  let go := wbit v 31
  if off = 0x40340 then
    let s := if go then (s.ppChans req).foldl State.txPost s else s
    if wbit v 30 then (s.ppChans req).foldl State.rxPop s else s
  else if off = 0x41620 then (if go then (s.ppChans req).foldl State.stqPop s else s)
  else if off = 0x41800 then (if go then s.ppCommand req (getF v F.CH_PP_CTL_OP) else s)
  else if 0x41804 ≤ off && decide (off < 0x41824) then
    (s.ppChans req).foldl (fun s c => s.setReg (ppInst req c) off v) s
  else if off = 0x41900 then
    let s := if go then doze req s else s
    if wbit v 30 then undoze req s else s
  else if off = 0xD010C then
    (if go then ((s.tstLanes req).filter (fun l => !s.keySleeps (rkey l off))).foldl State.fire s else s)
  else s

/-- What a whole-word write starts. -/
def State.start (s : State) (req off : Nat) (v : Word) : State :=
  let reg := off / 0x10000
  if reg = 4 || reg = 13 then s.startChannels req off v
  else if 9 ≤ reg then s.startAgents req off v
  else s.startDevice req off v

/-! ### One write -/

/-- The bytes of a write that no requester above has written in the same cycle (R37). -/
def unclaimed (claim : Nat) (d : List (Option Byte)) : List (Option Byte) :=
  d.zipIdx.map (fun x => if claim / 2 ^ (8 * x.2) % 256 = 0 then x.1 else none)

/-- A write of one register instance. -/
def State.writeInst (s : State) (req off i : Nat) (r : RegRow) (d0 : List (Option Byte)) : State :=
  let claim := s.claimed req (rkey i off)
  let s := s.noteWrite req (rkey i off) (byteMask d0)
  let d := unclaimed claim d0
  let touched := accMask r.flds (· == .rw) &&& byteMask d &&& s.openBits req off i != 0 && !s.goOutRefused off d
  let lost := claim == 0xFFFFFFFF && accMask r.flds (· == .rw) &&& byteMask d0 &&& s.openBits req off i != 0 && !s.keySleeps (rkey i off)
  let takes := touched && (s.keySleeps (rkey i off) || s.takesFields req off i (s.newFields off i r d) (byteMask d))
  let s := if touched then s.writeFields req off i r d else s
  let d := if claim = 0xFFFFFFFF then d else d0
  let s := if fullWord d then (if s.keySleeps (rkey i off) then
      (if accMask r.flds (· == .rwt) = 0 then s else s.writeRest req off i { r with flds := r.flds.filter (·.2.2 == .rwt) }
        (BitVec.ofNat 32 (byteValue d)))
    else s.writeRest req off i r (BitVec.ofNat 32 (byteValue d))) else s
  let s := s.afterWrite req off i (fullWord d)
  if takes || (s.keySleeps (rkey i off) && accMask r.flds (· == .rwt) != 0 && fullWord d) then s.foldWrite req (rkey i off)
  else if lost then s.foldValue req (rkey i off) ((s.writeFields req off i r d0).foldData (rkey i off)) else s

/-- Whether the engine takes a requester's write to an offset now (R360). -/
def State.takesWrite (s : State) (req off : Nat) : Bool :=
  req == 17 || s.rd F.IMG_STAT_PHASE 0 == 4 || off / 0x10000 == 1

/-- A write of some bytes of the register at an aligned offset (R5, R424): every instance selected, then what it starts. -/
def State.writeRegister (s : State) (req off : Nat) (d : List (Option Byte)) : State :=
  if !s.takesWrite req off then s
  else if off / 0x10000 = 0xE then
    let k := off % 0x10000 / 4
    if req = 0 && k < 1024 then
      s.writeMsix k (mixWord (tget msixDefault s.host.msixTab k) (BitVec.ofNat 32 (byteValue d)) (byteMask d))
    else s
  else match findRow off with
    | none => s
    | some r =>
      let s := (s.writeInsts req r).foldl (fun s i => s.writeInst req off i r d) s
      if fullWord d then s.start req off (BitVec.ofNat 32 (byteValue d)) else s

/-- A write, register by register in ascending offset (R444). -/
def State.writeBytes (s : State) (req off : Nat) (data : List (Option Byte)) : State :=
  let d := List.replicate (off % 4) none ++ data
  (List.range ((d.length + 3) / 4)).foldl (fun s k =>
    s.writeRegister req (off / 4 * 4 + 4 * k) ((((d.drop (4 * k)).take 4) ++ List.replicate 4 none).take 4)) (s.newAccess req)

/-- Bytes stored into the local SRAM of a core (R307). -/
def State.sramPut (s : State) (core a : Nat) (d : List (Option Byte)) : State :=
  { s with tds := { s.tds with sram := d.zipIdx.foldl (fun t x => match x.1 with
      | none => t
      | some b => tput (fun _ => 0) t (core * 2 ^ 18 + (a + x.2) % 2 ^ 18) b) s.tds.sram } }

/-- A write of the register space or of the aperture, which a requester other than the loader reaches in RUN alone (R360). -/
def State.writeSpace (s : State) (req : Nat) (a : Addr) (d : List (Option Byte)) : State :=
  match a with
  | .reg off => s.writeBytes req off.toNat d
  | .table ofs => if s.takesWrite req 0x60000 then tableWrite req ofs.toNat d s else s
  | _ => s

/-- A write at an address; a core's own addresses serve that core alone, and an atomic operation acts on service-core memory
(R307). -/
def State.writeAt (s : State) (req : Nat) (a : Addr) (d : List (Option Byte)) : State :=
  match a with
  | .core x =>
    if req = 0 || 16 < req then s
    else match corePlace x.toNat with
      | .sram p => s.sramPut (req - 1) p d
      | .place b => s.writeSpace req b d
      | .mem p => s.coreAccess (req - 1) p (.write d)
      | .none => s
  | .atomic op wide x =>
    if req = 0 || 16 < req then s
    else match corePlace x.toNat with
      | .mem p => s.coreAccess (req - 1) (p / amoSize wide * amoSize wide) (.amo op wide (d.map (·.getD 0)))
      | _ => s
  | a => s.writeSpace req a d

/-- The enabled bytes of a whole word. -/
def wholeWord (w : Word) : List (Option Byte) := (toBytes (bytesLE 4 w.toNat)).map some

/-! ### The commands -/

/-- REGISTER_WRITE (R5, R37, R444). -/
def execRegisterWrite (req : Fin 19) (at_ : Addr) (data : List (Option Byte)) (s : State) :
    Outcome State Fault Refusal := done s (s.writeAt req at_ data)

/-- TICK_COMMIT (R26). -/
def execTickCommit (req : Fin 19) (value : Word) (s : State) : Outcome State Fault Refusal :=
  doneWrite req s (s.tickCommit req value)

/-- PEG_SRV_FWOFS_HI_WRITE (R244): the peg that the requester selects. -/
def execPegSrvFwofsHiWrite (req : Fin 19) (value : Word) (s : State) : Outcome State Fault Refusal :=
  let p := s.rd F.PEGSEL req
  doneWrite req s (s.ordered req F.PEG_SRV_FWOFS_HI.off [p] (fun t =>
    ((t.setReg p F.PEG_SRV_FWOFS_HI.off value).fwSample p).foldWrite req (rkey p F.PEG_SRV_FWOFS_HI.off)))

/-- The registers of TST_ENABLE_WRITE: TST_PRBS_CFG, TST_LOOP, TST_EYE_SCAN. -/
def tstEnableOff (reg : Nat) : Nat := if reg = 0 then 0xD0100 else if reg = 1 then 0xD0110 else 0xD0114

/-- TST_ENABLE_WRITE (R62, R417): every lane that the requester selects. -/
def execTstEnableWrite (req : Fin 19) (reg : Fin 3) (value : Word) (s : State) : Outcome State Fault Refusal :=
  doneWrite req s ((s.newAccess req).writeRegister req (tstEnableOff reg) (wholeWord value))

end Sys2Proof.Machine
end

