-- ==== Sys2Proof/Machine/Start.lean ====
section
/-!
DEFINITION. The loader at work (14_image_security): APPLY (R55, R355, R360), the start commit (R359), the restore of an
octant's REGS section (R363, R394), and the restore after device standby (R398).
-/

namespace Sys2Proof.Machine
open Host (Outcome)

/-- The loader's requester id. -/
def loaderReq : Nat := 17

/-! ### The steps of APPLY -/

/-- The registers that the loader skips in a register record (R355). -/
def recSkips (off : Nat) : Bool :=
  off == 0x100 || off == 0x104 || off == 0x108 || off / 0x10000 == 1 || off == 0x80E0C || off == 0xB000C || off == 0x30100 ||
    decide (0x100000 ≤ off)

/-- A register record written (R355). -/
def State.loadReg (s : State) (off : Nat) (value : Word) : State :=
  if recSkips (off / 4 * 4) then s.addN F.IMG_REC_SKIP 0 1 else s.writeBytes loaderReq off (wholeWord value)

/-- A shadow field written. -/
def State.putShadow (s : State) (f : Fld) (inst v : Nat) : State :=
  s.setShadow inst f.off (setF (s.shadow inst f.off) f v)

/-- A lane table entry written into the registers of its lane (R55). -/
def State.loadLane (s : State) (e : List Byte) : State :=
  let b := byteAt e
  let l := b 0
  let base := if l < 64 then 0x40200 else 0xB0400 + 64 * (l - 64)
  let i := if l < 64 then l else 0
  let f (ofs hi lo v : Nat) (s : State) : State := s.putShadow ⟨base + ofs, hi, lo⟩ i v
  if 72 ≤ l then s
  else
    let s := f 4 0 0 (b 1 % 2) (f 4 1 1 (b 1 / 2 % 2) s)
    let s := f 8 7 0 (b 2) (f 8 15 8 (b 3) (f 8 23 16 (b 4) (f 8 31 24 (b 5) s)))
    let s := f 0xC 4 0 (b 6) (f 0xC 11 8 (b 7) (f 0xC 21 16 (b 8) (f 0xC 31 24 (b 9) s)))
    let s := f 0x10 7 0 (b 10) (f 0x10 15 8 (b 11) (f 0x10 23 16 (b 12) (f 0x10 31 24 (b 13) s)))
    s.wr ⟨base + 0x18, 31, 24⟩ i (b 15)

/-- An exact entry inserted (R164, R360). -/
def State.loadExact (s : State) (prof : Nat) (wide : Bool) (epochs act : Nat) (key : List Byte) : State :=
  let ctl := (if wide then 2 ^ 24 else 0) + prof * 2 ^ 16
  let o : EmOp := { req := loaderReq, op := 0, ctl := BitVec.ofNat 32 ctl, actw := BitVec.ofNat 32 (epochs * 2 ^ 18 + act), key }
  let em := (emInsert s.cls.em o false).1
  { s with cls := { s.cls with em } }.wr F.CLS_EM_COUNT 0 (emUsed em)

/-- A channel's admin gate entries. -/
def State.loadGates (s : State) (c : Nat) (es : List (Nat × Nat)) : State :=
  ((es.take 256).foldl (fun (p : State × Nat) (e : Nat × Nat) =>
    ((p.1.wr (F.CH_GATE_EG p.2) c e.1).setReg c (F.CH_GATE_EI p.2).off (BitVec.ofNat 32 e.2), p.2 + 1)) (s, 0)).1

/-- A task record given its entry, priority and affinity, and armed (R312, R324). -/
def State.loadTask (s : State) (t entry prio aff owner : Nat) : State :=
  let s := (s.setReg t 0x90010 (BitVec.ofNat 32 entry)).setReg t 0x90014 (BitVec.ofNat 32 (entry / 2 ^ 32))
  let s := ((s.wr T.affinity t aff).wr T.prio t prio).wr ⟨0x90024, 31, 24⟩ t owner
  if s.armable t then s.wr T.state t tsIdle else s

/-- One step of APPLY (R360): firmware is armed as record 0, extension n as record 256 + n with its PMP limits. -/
def State.load (s : State) : Load → State
  | .lane e => s.loadLane e
  | .reg off value => s.loadReg off (BitVec.ofNat 32 value)
  | .aperture off data => tableWrite loaderReq off (data.map some) s
  | .exact prof wide epochs act key => s.loadExact prof wide epochs act key
  | .gates c es => s.loadGates c es
  | .firmware load entry code => (s.putCoreBytes load code).loadTask 0 entry 31 1 0
  | .extension n load entry pmp prio aff code =>
    let s := (s.putCoreBytes load code).loadTask (256 + n) entry prio aff 0x80
    { s with img := { s.img with pmp := tput (fun _ => []) s.img.pmp n pmp } }

/-- The start commit: DEV = 1, OCT_MASK = 0xFF, CH_BY_OCT = 1. -/
def startCommitWord : Word := BitVec.ofNat 32 (2 ^ 17 + 0xFF * 2 ^ 8 + 1)

/-- APPLY (R359, R360): every section in the order of Table: Start phases, then the start commit. The frame-store copies are given
up. -/
def apply (s : State) : State :=
  if s.phase = phApply && !s.eng.commits.any (·.req == loaderReq) then
    let s := (applyOrder s.img.sections).foldl State.load s
    let s := { s with img := { s.img with sections := [] } }
    { s with mem := { s.mem with initDone := true } }.tickCommit loaderReq startCommitWord
  else s

/-! ### Saved registers (R386, R393) -/

/-- The capo bank that saves a register instance: 0 device scope, 3 the power accounting, 4 + 3 o to 6 + 3 o octant o, 28 and 29
the wake patterns (Table: Capo banks); none for the copies banked per requester, the image region, and the task records, which
start anew with the firmware. -/
def bankOf (k : Nat) : Option Nat :=
  let off := k % 0x100000
  let i := k / 0x100000
  match findRow off with
  | none => none
  | some r => match r.bank with
    | .req | .task => none
    | .chan => some (if 0x41A00 ≤ off ∧ off < 0x42000 then 28 + i / 32 else 6 + 3 * (i / 8))
    | .reqChan => some (6 + 3 * (i % 64 / 8))
    | .lane => if i < 64 then some (6 + 3 * (i / 8)) else some 0
    | .oct => some (4 + 3 * i)
    | .queue => some (4 + 3 * (i / 512))
    | .meter => some ((if i % 2048 < 797 then 4 else 5) + 3 * (i / 2048))
    | _ => if off / 0x10000 = 1 then none else some (if 0x20400 ≤ off ∧ off < 0x20600 then 3 else 0)

/-- Whether a register instance is saved in one of some banks. -/
def inBanks (banks : List Nat) (k : Nat) : Bool := match bankOf k with | none => false | some b => banks.contains b

/-- The bits of a register of some access types. -/
def keyMask (p : Acc → Bool) (k : Nat) : Word :=
  match findRow (k % 0x100000) with
  | none => 0
  | some r => BitVec.ofNat 32 (accMask r.flds p)

def savedAcc (a : Acc) : Bool := a == .rw || a == .rc
def rwtAcc (a : Acc) : Bool := a == .rwt
def changeAcc (a : Acc) : Bool := a == .rw || a == .rwt

/-- Some bits of each of some registers taken from a table, into another. -/
def takeBits (p : Acc → Bool) (from_ into : Tab Word) (ks : List Nat) : Tab Word :=
  ks.foldl (fun t k =>
    let m := keyMask p k
    tput regReset t k ((tget regReset t k &&& ~~~m) ||| (tget regReset from_ k &&& m))) into

/-- The rank of a register's scope in the order of folds (R362). -/
def scopeRank (k : Nat) : Nat :=
  match findRow (k % 0x100000) with
  | none => 0
  | some r => match rowScope r (k / 0x100000) with
    | .dev => 0
    | .oct o => 1 + o
    | .chan c => 9 + c

/-- A key put in its place: scope, offset, instance. -/
def insertRank (k : Nat) : List Nat → List Nat
  | [] => [k]
  | x :: xs =>
    let a := (scopeRank k, k % 0x100000, k)
    let b := (scopeRank x, x % 0x100000, x)
    if a.1 < b.1 || (a.1 == b.1 && (a.2.1 < b.2.1 || (a.2.1 == b.2.1 && a.2.2 < b.2.2))) then k :: x :: xs
    else x :: insertRank k xs

/-- The registers whose RW or RWT fields differ from an earlier state, folded for a requester (R362, R398). -/
def State.foldChanged (s old : State) (req : Nat) : State :=
  let ks := (bothKeys s.eff old.eff).filter (fun k =>
    (tget regReset s.eff k ^^^ tget regReset old.eff k) &&& keyMask changeAcc k != 0)
  (ks.foldr insertRank []).foldl (fun s k => s.foldKey req k) s

/-- Registers of some banks taken from saved tables: RW fields and RC counters at once, RWT fields through a commit of the
scopes concerned, shadows last. Nothing is folded here. -/
def State.putSaved (s : State) (eff shd : Tab Word) (banks : List Nat) (dev : Bool) (octs : List Nat) : State :=
  let d := s.img.d
  let ks := (bothKeys (bothKeys s.eff eff |>.map (fun k => (k, 0))) (bothKeys s.shd shd |>.map (fun k => (k, 0)))).filter (inBanks banks)
  let s := { s with img := { s.img with d := [] }, eff := takeBits savedAcc eff s.eff ks }
  let snap := takeBits rwtAcc eff s.eff ks
  let parts : List Part := octs.map (fun o => { oct := o, octScope := true, chs := 2 ^ 64 - 1, snap })
  let s := { s with snap }
  let s := s.applyCommit loaderReq dev parts
  { s with img := { s.img with d }, shd := takeBits rwtAcc shd s.shd ks }

/-! ### Checks of capo banks (R394) -/

/-- Banks whose check word mismatches: shown and logged. -/
def State.noteBad (s : State) (banks : List Nat) : State :=
  banks.foldl (fun s b => (s.wr F.PWR_RET_FAIL 0 (putBit (s.rd F.PWR_RET_FAIL 0) b true)).log 0x0203 engineReq b []) s

/-- The manifest entry of an octant's REGS section (Table: Manifest), from the bytes kept since the start. -/
def State.regsEntry (s : State) (o : Nat) : Nat :=
  (manEntries (s.img.manifest.drop 256)).findIdx (fun e => e.type == 1 && e.param == o)

/-- The dynamic state of an octant's channels marked invalid (R394). -/
def State.dynamicLost (s : State) (o : Nat) : State :=
  let cs := octChans o
  let s := { s with twin := { s.twin with trec := s.twin.trec.filter (fun e => e.1 / 256 != o), term := s.twin.term.filter (fun e => e.1 / 8 != o),
                                          sofs := s.twin.sofs.filter (fun e => e.1 / 8 != o) } }
  let s := if cs.any (fun c => s.role c == roleHead) then s.copyGap else s
  cs.foldl (fun s c =>
    let s := if s.role c = roleTerm then s.wr F.CH_TERM_CTL_STATE c 0 else s
    if s.on F.CH_GATE_CFG_EN c then (s.gateSnapshot c).gateActivate c else s) s

/-- What a section restore leaves beside the values (R363, R410): a KIND 4 record folded, DEGRADED, and entry 0x0101 with the slot
that the matching copy came from. -/
def State.noteRestore (s : State) (o slot : Nat) : State :=
  ((s.fold foldRestore loaderReq 0 (s.regsEntry o) []).wr F.IMG_STAT_DEGRADED 0 1).log 0x0101 engineReq o [slot, s.regsEntry o]

/-- An octant's REGS section restored (R363): the registers of its failed banks as after power-up, then the section's
records, then what the other banks hold; the octant's scopes committed. -/
def State.sectionRestore (s : State) (o : Nat) (failed : List Nat) (slot : Nat) (section_ : List Byte) : State :=
  let old := s
  let d := s.img.d
  let good := [4 + 3 * o, 5 + 3 * o, 6 + 3 * o].filter (fun b => !failed.contains b)
  let ks := (bothKeys s.eff s.shd).filter (inBanks failed)
  let s := { s with img := { s.img with d := [] }, eff := takeBits savedAcc [] s.eff ks, shd := takeBits rwtAcc [] s.shd ks }
  let s := (regLoads section_).foldl State.load s
  let parts : List Part := [{ oct := o, octScope := true, chs := 2 ^ 64 - 1, snap := s.shd }]
  let s := ({ s with snap := s.shd }.applyCommit loaderReq false parts).putSaved old.eff old.shd good false [o]
  let s := if good.contains (6 + 3 * o) then (octChans o).foldl (fun s c => s.setGate c (old.gate c)) s else s
  { s with img := { s.img with d } }.noteRestore o slot

/-- The folds of what was written to a sleeping octant, at its exit (R429). -/
def State.flushSleepFolds (s : State) (o : Nat) : State :=
  let mine := s.pwr.sleepFolds.filter (fun e => keyOctant e.1 == some o)
  let s := { s with pwr := { s.pwr with sleepFolds := s.pwr.sleepFolds.filter (fun e => keyOctant e.1 != some o) } }
  ((mine.map (·.1)).foldr insertRank []).foldl (fun s k =>
    match mine.find? (·.1 == k) with | some e => s.foldKey e.2 k | none => s) s

/-- The end of an octant's exit from S2, S3 or a test (R388, R394, R414): its banks checked and restored, or the octant left
in S2 where no section can be read. -/
def State.restoreOctant (s : State) (o bad : Nat) (regs : Option (Fin 2 × List Byte)) : State :=
  let failed := [4 + 3 * o, 5 + 3 * o, 6 + 3 * o].filter (bit bad)
  let note := failed ++ (if failed != [] && bit bad 1 then [1] else [])
  let s := s.noteBad note
  let ready (s : State) (res : Nat) : State := (((s.flushSleepFolds o).wakeEmpty o).exitDone o res)
  if failed = [] then ready s rsDone
  else match regs with
    | none => ((s.endStep o stS2 rsFailed).log 0x0204 engineReq o []).watch fsRestore o
    | some loads =>
      let s := s.sectionRestore o failed loads.1 loads.2
      ready (if failed.contains (6 + 3 * o) then s.dynamicLost o else s) rsDegraded

/-! ### The start commit (R359) and the restore after device standby (R398) -/

/-- What the capo banks keep, restored after APPLY as requester 17, each changed value folded. -/
def State.dsRestore (s : State) : State :=
  if !s.pwr.dsRestore then s
  else
    let p := s.pwr
    let old := s
    let banks := [0] ++ (List.range 24).map (· + 4)
    let failed := banks.filter (bit p.dsBad)
    let good := banks.filter (fun b => !failed.contains b)
    let s := { s with pwr := { p with dsRestore := false, capoEff := [], capoShd := [], capoGates := [], capoTrec := [],
                                      capoTerm := [], capoSofs := [], dsBad := 0 } }
    let s := (s.noteBad failed).putSaved p.capoEff p.capoShd good true (List.range 8)
    let mine (c : Nat) : Bool := good.contains (6 + 3 * (c / 8))
    let gates := (p.capoGates.filter (fun e => mine e.1)).foldl
      (fun t (e : Nat × Gate) => tput (fun _ => Gate.reset) t e.1 e.2) s.egress.gates
    let s := { s with
      egress := { s.egress with gates }
      twin := { s.twin with trec := p.capoTrec.filter (fun e => mine (e.1 / 32)), term := p.capoTerm.filter (fun e => mine e.1),
                            sofs := p.capoSofs.filter (fun e => mine e.1) } }
    let s := ((List.range 64).filter mine).foldl State.showGate s
    let s := (List.range 16).foldl (fun s k => s.writeCoreCtl k (s.reg 0 (F.TDS_CORE_CTL k).off)) s
    let s := s.foldChanged old loaderReq
    (List.range 8).foldl (fun s o =>
      if [4 + 3 * o, 5 + 3 * o, 6 + 3 * o].any (fun b => failed.contains b) then
        s.noteRestore o (s.rd F.IMG_STAT_SLOT 0)
      else s) s

/-- The loader's commit boundary (R359, R362, R380): PHASE RUN, D starts, cores leave OFFLINE, lanes leave DEEP, octants
whose PL_INIT is below PL3 start to change, and the twin agent starts (R339). -/
def State.startRun (s : State) : State :=
  let s := { s with img := { s.img with d := sha512 s.img.m, folds := 0 },
                    twin := { s.twin with since := some s.eng.tick } }
  let s := s.wr F.IMG_STAT_PHASE 0 phRun
  let s := (List.range 16).foldl State.onlineCore s
  let s := (List.range 64).foldl State.applyLanePower s
  let s := if s.paired then (List.range 8).foldl (fun s i => s.wrP (lanePWR (64 + i)) pwrExiting) s else s
  let s := s.dsRestore
  (List.range 8).foldl (fun s o =>
    let pl := s.rd F.OCT_PWR_CFG o
    if pl < 3 then s.pwrRequest o pl loaderReq else s) s

/-- APPLY. -/
def execApply (s : State) : Outcome State Fault Refusal := done s (apply s)

end Sys2Proof.Machine
end

