-- ==== Sys2Proof/Machine/Engine.lean ====
section
/-!
DEFINITION. The core tick (01_engine): the cutoff (R28), the boundary with its device-level work (R17, R18, R21, R29 to R31,
R33, R34, and what other chapters do there), and the end of a statistics superframe (R226).
-/

namespace Sys2Proof.Machine
open Host (Outcome)

/-! ### The cutoff (R27, R28) -/

/-- The commits that take effect at the next boundary. -/
def State.dueNext (s : State) : List Commit := s.eng.commits.filter (fun x => decide (x.wait ≤ 1))

/-- COMMIT_CUTOFF: 1 µs before the end of the tick, the shadows and the admin gate entries of the commits pending. -/
def commitCutoff (s : State) : State :=
  if s.eng.past then s
  else
    let s := s.runTo (s.eng.nextB - 1000 * unitNs)
    let chs := s.dueNext.foldl (fun v x => v ||| x.chs) 0
    let s := { s with eng := { s.eng with past := true }, snap := s.shd }
    (bitsSet 64 chs).foldl State.gateSnapshot s

/-! ### Commits at a boundary (R29 to R31) -/

/-- Scope, requesters and shadows of what is to take effect in an octant: its held part, and the due commits over it. -/
def State.partFor (s : State) (due : List Commit) (o : Nat) : Held :=
  let mine := due.filter (fun x => bit x.octs o || decide (x.chs / 2 ^ (8 * o) % 256 ≠ 0))
  let octScope := mine.any (fun x => bit x.octs o)
  let chs := mine.foldl (fun v x => v ||| (x.chs / 2 ^ (8 * o) % 256 * 2 ^ (8 * o))) 0
  let h := tget (fun _ => Held.none) s.eng.held o
  let new : Part := { oct := o, octScope, chs, snap := [] }
  let all : Part := { oct := o, octScope := octScope || h.octScope, chs := chs ||| h.chs, snap := [] }
  let ks := (bothKeys h.snap s.snap).filter (fun k => match keyScope k with | none => false | some x => all.has x)
  let fresh (k : Nat) : Bool := match keyScope k with | none => false | some x => new.has x
  { reqs := (h.reqs ++ mine.map (·.req)).eraseDups, octScope := all.octScope, chs := all.chs
    snap := ks.foldl (fun t k => tput regReset t k (tget regReset (if fresh k then s.snap else h.snap) k)) [] }

/-- The channels of an octant whose ROLE would not be OFF (R30). -/
def State.rolesAfter (s : State) (o : Nat) (h : Held) : Nat :=
  ((octChans o).filter (fun c =>
    (if bit h.chs c then getF (tget regReset h.snap (rkey c F.CH_ROLE.off)) F.CH_ROLE_ROLE else s.rd F.CH_ROLE_ROLE c) != roleOff)).length

/-- Whether an octant takes its part of a commit now (R31). -/
def State.takesPart (s : State) (o : Nat) : Bool := (s.seqOf o).backlog == 0 && s.octRuns o

/-- What becomes of one octant's part. -/
inductive PartFate where
  | none
  | apply (h : Held)
  | hold (h : Held)
  | refuse (h : Held) (active max : Nat)
  deriving DecidableEq, Repr

def State.fate (s : State) (due : List Commit) (o : Nat) : PartFate :=
  let h := s.partFor due o
  if h.reqs = [] then .none
  else if !s.takesPart o then .hold h
  else
    let n := s.rolesAfter o h
    let m := levelMax (s.octPwr o).level
    if m < n then .refuse h n m else .apply h

/-- The lowest of some requesters, whose id the log entry and the folds of a merged commit carry. -/
def lowest (l : List Nat) : Nat := (l.map (· % unheard)).foldl min 255

/-- A refused part: shown to its requesters and logged (R30). -/
def State.refusePart (s : State) (o : Nat) (h : Held) (active max : Nat) : State :=
  let s := (h.reqs.filter (· < unheard)).foldl (fun s q =>
    s.wr F.TICK_COMMIT_STAT_REFUSED_OCT q (putBit (s.rd F.TICK_COMMIT_STAT_REFUSED_OCT q) o true)) s
  s.log 0x0001 (lowest h.reqs) o [lowest h.reqs, active, max]

/-- PENDING and DEFERRED_OCT of every requester as its commits now stand. -/
def State.showCommits (s : State) : State :=
  (List.range 19).foldl (fun s q =>
    let octs := (List.range 8).foldl (fun v o => if (tget (fun _ => Held.none) s.eng.held o).reqs.contains q then v + 2 ^ o else v) 0
    let s := s.wr F.TICK_COMMIT_STAT_DEFERRED_OCT q octs
    s.wrB F.TICK_COMMIT_STAT_PENDING q (octs != 0 || s.eng.commits.any (·.req == q))) s

/-- A commit one boundary later; none where the boundary was its own. -/
def Commit.next (x : Commit) : Option Commit := if x.wait ≤ 1 then none else some { x with wait := x.wait - 1 }

/-- The commits due at the boundary that has been reached. -/
def State.runCommits (s : State) : State :=
  let old := s
  let due := s.dueNext
  let reqs := (due.map (·.req)).eraseDups
  let s := { s with eng := { s.eng with commits := s.eng.commits.filterMap Commit.next } }
  let shown := reqs.filter (· < unheard)
  let s := shown.foldl (fun s q => s.wr F.TICK_COMMIT_STAT_REFUSED_OCT q 0) s
  let fates := (List.range 8).map (fun o => (o, s.fate due o))
  let held := fates.filterMap (fun (f : Nat × PartFate) => match f.2 with | .hold h => some (f.1, h) | _ => none)
  let parts := fates.filterMap (fun (f : Nat × PartFate) => match f.2 with
    | .apply h => some ({ oct := f.1, octScope := h.octScope, chs := h.chs, snap := h.snap } : Part)
    | _ => none)
  let applied := fates.flatMap (fun (f : Nat × PartFate) => match f.2 with | .apply h => h.reqs | _ => [])
  let s := { s with eng := { s.eng with held } }
  let s := fates.foldl (fun s (f : Nat × PartFate) => match f.2 with | .refuse h n m => s.refusePart f.1 h n m | _ => s) s
  let dev := due.any (·.dev)
  let s := if dev || parts != [] then (s.applyCommit (lowest (reqs ++ applied)) dev parts).copyCommit old else s
  let s := if reqs.contains loaderReq && s.phase == phApply then s.startRun else s
  let s := shown.foldl (fun s q => (s.incWrap F.TICK_COMMIT_STAT_SEQ q).raise 13 q) s
  s.showCommits

/-! ### Sequencers and line ticks (R21, R33, R34) -/

/-- The fixed work of an octant per core tick (Table: Sequencer cycles per octant per core tick). -/
def fixedCycles : Nat := 704

/-- Cycles of an octant's sequencer at a level in a core tick of so many device cycles: 8,000 × (PL + 1) in one of 16 µs, more
in one that R18 has lengthened (R33, R34). -/
def tickCycles (pl devCycles : Nat) : Nat := devCycles * (pl + 1) / 4

/-- The tick of an octant's sequencer that ends: its load, and an overrun where work is left (R34). -/
def State.sequencerTick (s : State) (o : Nat) : State :=
  let q := s.seqOf o
  if s.asleep o || s.octState o == stExiting then s.setSeq o { q with work := 0 }
  else
    let used := q.work + fixedCycles
    let cap := tickCycles (s.octPwr o).level (s.pegs.cyc - s.eng.lastCyc)
    let left := q.backlog + used - cap
    let u := min 65535 used
    let s := (s.wr F.OCT_TICK_USED o u).wr F.OCT_TICK_MAX o (max u (s.rd F.OCT_TICK_MAX o))
    let s := s.setSeq o { backlog := left, work := 0 }
    if left = 0 then s else ((s.inc F.OCT_OVERRUN o).log 0x0501 engineReq o (bytesLE 4 u)).watch fsTickOvr o

/-- The line ticks of a channel in the core tick that ends (R21). -/
def State.wrapTick (s : State) (c : Nat) : State :=
  let f := s.framer c
  let counts := s.octRuns (octOf c) && !f.noWrap && (s.role c == roleHead || (s.role c == roleTerm && s.rdP (tfAlign c) == alSync))
  let s := if counts && f.begins != 1 then s.inc F.CH_LTICK_WRAP c else s
  s.modFramer c (fun f => { f with begins := 0, noWrap := false })

/-- A channel without line ticks has its work to do in the core tick that begins (R21). -/
def State.tickWork (s : State) (c : Nat) : State :=
  if s.octRuns (octOf c) && (s.role c == roleClient || (s.role c == roleTerm && s.rdP (tfAlign c) != alSync)) then
    s.modFramer c (fun f => { f with due := f.due + 1 })
  else s

/-! ### Pegs at a boundary (R18, R232, R238, R240, R243) -/

/-- A pending step of a peg applied, and the gate lists bound to it recomputed (R232). -/
def State.boundaryStep (s : State) (p : Nat) : State :=
  let had := (s.servoOf p).req.isSome
  let s := s.applyStep p
  if had then (List.range 64).foldl (fun s c => if s.boundPeg c = p then (gateListStart c s).showGate c else s) s else s

/-- The next boundary after a step of peg 0: the first multiple of 16 µs at least 16 µs of elapsed time on, at the rate that
peg 0 now runs at (R18). -/
def State.placeNext (s : State) : State :=
  let next := ceilDiv (s.eng.lastB + 32000 * s.pegInc 0) unitTick * unitTick
  { s with eng := { s.eng with tick := (next / unitTick - 1) % 2 ^ 48, nextB := next } }

/-- The boundary reached: peg steps and the rates of the last servo runs, then the number of the tick that begins and the time of
the next boundary (R17, R18, R238). -/
def State.beginTick (s : State) : State :=
  let at_ := s.eng.nextB
  let d := s.stepSize 0
  let s := (List.range 16).foldl State.applyRate ((List.range 16).foldl State.boundaryStep (s.runTo at_).burstsRun)
  match d with
  | none => { s with eng := { s.eng with
      tick := ((at_ + unitTick) / unitTick - 1) % 2 ^ 48, lastB := at_, nextB := at_ + unitTick, past := false } }
  | some _ => { s with eng := { s.eng with lastB := s.pegTime 0, past := false } }.placeNext.inc F.DEV_TICK_STEPS 0

/-- The numbers after the commits of a boundary: a peg-0 rate that a commit has set acts from the boundary itself, so where
peg 0 has stepped the next boundary is placed with it (R18, R238); TICK_COMMIT_TICK of the commits that waited follows a number
that jumped. -/
def State.placeAgain (s : State) (stepped : Bool) (waited : List Commit) : State :=
  let s := { s with eng := { s.eng with lastCyc := s.pegs.cyc } }
  if !stepped then s
  else waited.foldl (fun t x => t.wr F.TICK_COMMIT_TICK x.req (t.eng.tick + (x.wait - 1))) s.placeNext

/-- The servos' runs (R243). -/
def State.servos (s : State) : State := (List.range 16).foldl State.servoRun s

/-! ### CORE_TICK_BOUNDARY -/

/-- What power does at a boundary before commits: the steps under way, and the ends of exits with the banks found bad and the
sections read for them. -/
def State.powerWork (s : State) (bad : Nat) (regs : List (Option (Fin 2 × List Byte))) : State :=
  let s := (List.range 8).foldl State.powerStep s
  (List.range 8).foldl (fun s o => if s.restoreDue o then s.restoreOctant o bad (regs.getD o none) else s) s

/-- The work of the deep store, the inputs, the Surok lanes and the twin agent at a boundary. -/
def State.agentWork (s : State) : State :=
  let s := s.memBoundary
  let s := if s.eng.tick % 64 = 0 then (List.range 64).foldl State.memWindowEnd s else s
  let s := s.inputsTick
  let s := if s.paired && s.phase == phRun then (List.range 8).foldl (fun s i =>
    if s.rdP (tfAlign (64 + i)) = alSync then s else s.evaluateLane (64 + i)) s else s
  s.twinBoundary

/-- CORE_TICK_BOUNDARY (R17). A peg-0 pending step moves the numbers; the cutoff, if it has not come, comes first. -/
def coreTickBoundary (bad : Nat) (regs : List (Option (Fin 2 × List Byte))) (s : State) : State :=
  let stepped := (s.servoOf 0).req.isSome
  let s := (commitCutoff s).beginTick.servos.acctTime
  let s := (List.range 64).foldl State.wrapTick ((List.range 8).foldl State.sequencerTick s)
  let s := (s.powerWork bad regs).runCommits.placeAgain stepped s.eng.commits
  let s := ((List.range 8).foldl State.powerStart s).dozes
  ((List.range 64).foldl State.tickWork s).agentWork

/-- PWR_INPUT at a superframe's end: the mean input power of the superframe, and its largest 1 ms average where that
exceeds the peak held. What the module draws is open: free values (log entry 3). -/
def State.measurePower (s : State) : State :=
  let mean := s.takeFree
  let peak := mean.2.takeFree
  (peak.2.wr F.PWR_INPUT_NOW_W 0 mean.1).wr F.PWR_INPUT_PEAK_W 0 (max (peak.2.rd F.PWR_INPUT_PEAK_W 0) (peak.1 % 65536))

/-- STATS_SUPERFRAME_END (R226, R193, R332; Table: PWR_INPUT), at a boundary whose number is a multiple of 64. -/
def statsSuperframeEnd (s : State) : State :=
  if s.eng.tick % 64 ≠ 0 then s
  else
    let s := (List.range 4096).foldl State.latchQueue s
    let s := { s with store := { s.store with drained := s.store.dequeued, dequeued := [] } }.measurePower
    if s.paired then s.linkMeans else s

/-! ### The commands -/

/-- COMMIT_CUTOFF. -/
def execCommitCutoff (s : State) : Outcome State Fault Refusal := done s (commitCutoff s)
/-- CORE_TICK_BOUNDARY. -/
def execCoreTickBoundary (bad : BitVec 32) (regs : List (Option (Fin 2 × List Byte))) (s : State) : Outcome State Fault Refusal :=
  done s (coreTickBoundary bad.toNat regs s)
/-- STATS_SUPERFRAME_END. -/
def execStatsSuperframeEnd (s : State) : Outcome State Fault Refusal := done s (statsSuperframeEnd s)

end Sys2Proof.Machine
end

