-- ==== Sys2Proof/Machine/Dispatch.lean ====
section
/-!
DEFINITION. The dispatch: one arm per command, each one direct call of its meaning.
-/

namespace Sys2Proof.Machine

def exec (i : Instr) (s : State) : Host.Outcome State Fault Refusal :=
  match i with
  | .registerWrite req at_ data => Sys2Proof.Machine.execRegisterWrite req at_ data s
  | .readClear req at_ len => Sys2Proof.Machine.execReadClear req at_ len s
  | .devTickLoRead req => Sys2Proof.Machine.execDevTickLoRead req s
  | .tickCommit req value => Sys2Proof.Machine.execTickCommit req value s
  | .commitCutoff => Sys2Proof.Machine.execCommitCutoff s
  | .coreTickBoundary bad regs => Sys2Proof.Machine.execCoreTickBoundary bad regs s
  | .holdoverTimeout p => Sys2Proof.Machine.execHoldoverTimeout p s
  | .lineTickWork c => Sys2Proof.Machine.execLineTickWork c s
  | .bridgeLaunch l => Sys2Proof.Machine.execBridgeLaunch l s
  | .codewordReceived l bits => Sys2Proof.Machine.execCodewordReceived l bits s
  | .signalDetect l => Sys2Proof.Machine.execSignalDetect l s
  | .lossOfSignal l => Sys2Proof.Machine.execLossOfSignal l s
  | .cdrLock l => Sys2Proof.Machine.execCdrLock l s
  | .cdrLockLoss l => Sys2Proof.Machine.execCdrLockLoss l s
  | .alignmentMarkerLock a => Sys2Proof.Machine.execAlignmentMarkerLock a s
  | .lanePllSettled l => Sys2Proof.Machine.execLanePllSettled l s
  | .bridgeReceived c short same long => Sys2Proof.Machine.execBridgeReceived c short same long s
  | .upstreamTickBegin c => Sys2Proof.Machine.execUpstreamTickBegin c s
  | .burstLaunch c rd => Sys2Proof.Machine.execBurstLaunch c rd s
  | .panicAssert c => Sys2Proof.Machine.execPanicAssert c s
  | .panicDeassert c => Sys2Proof.Machine.execPanicDeassert c s
  | .burstReceived c b => Sys2Proof.Machine.execBurstReceived c b s
  | .treeFrameReceived c rx ltn block mark => Sys2Proof.Machine.execTreeFrameReceived c rx ltn block mark s
  | .clientFrameReceived c frame mark => Sys2Proof.Machine.execClientFrameReceived c frame mark s
  | .pauseFrameReceived c quanta => Sys2Proof.Machine.execPauseFrameReceived c quanta s
  | .pauseTimerExpiry c => Sys2Proof.Machine.execPauseTimerExpiry c s
  | .surokFrameReceived lane rx at_ => Sys2Proof.Machine.execSurokFrameReceived lane rx at_ s
  | .surokBridgeReceived lane short same long => Sys2Proof.Machine.execSurokBridgeReceived lane short same long s
  | .parsePass at_ => Sys2Proof.Machine.execParsePass at_ s
  | .patternRelease pipe n => Sys2Proof.Machine.execPatternRelease pipe n s
  | .clsStale pipe => Sys2Proof.Machine.execClsStale pipe s
  | .epochRetired e => Sys2Proof.Machine.execEpochRetired e s
  | .reorderReleaseLoop chord group => Sys2Proof.Machine.execReorderReleaseLoop chord group s
  | .restageRead queue => Sys2Proof.Machine.execRestageRead queue s
  | .schedSelect port rd => Sys2Proof.Machine.execSchedSelect port rd s
  | .timedLaunchDue queue => Sys2Proof.Machine.execTimedLaunchDue queue s
  | .shaperRefill => Sys2Proof.Machine.execShaperRefill s
  | .slowPathRefill => Sys2Proof.Machine.execSlowPathRefill s
  | .deepBudgetRefill => Sys2Proof.Machine.execDeepBudgetRefill s
  | .hostCapRefill => Sys2Proof.Machine.execHostCapRefill s
  | .gateEntryChange c => Sys2Proof.Machine.execGateEntryChange c s
  | .gateListStart c => Sys2Proof.Machine.execGateListStart c s
  | .statsSuperframeEnd => Sys2Proof.Machine.execStatsSuperframeEnd s
  | .eyeMarginMeasure l v h => Sys2Proof.Machine.execEyeMarginMeasure l v h s
  | .stampTempRead o t => Sys2Proof.Machine.execStampTempRead o t s
  | .hostTxFetch descs => Sys2Proof.Machine.execHostTxFetch descs s
  | .ringDelivery ring bufs rd => Sys2Proof.Machine.execRingDelivery ring bufs rd s
  | .interruptTimer ring => Sys2Proof.Machine.execInterruptTimer ring s
  | .ringAccessError ring fault => Sys2Proof.Machine.execRingAccessError ring fault s
  | .coreDelivery core rd => Sys2Proof.Machine.execCoreDelivery core rd s
  | .pcieReset => Sys2Proof.Machine.execPcieReset s
  | .pcieLinkDown link => Sys2Proof.Machine.execPcieLinkDown link s
  | .memCommandSlot m ready => Sys2Proof.Machine.execMemCommandSlot m ready s
  | .refreshInterval m => Sys2Proof.Machine.execRefreshInterval m s
  | .refreshPayback m => Sys2Proof.Machine.execRefreshPayback m s
  | .memTempRead d t => Sys2Proof.Machine.execMemTempRead d t s
  | .retrainSlot m outOfReach => Sys2Proof.Machine.execRetrainSlot m outOfReach s
  | .deepAccessComplete m acc res => Sys2Proof.Machine.execDeepAccessComplete m acc res s
  | .evacuationRewrite => Sys2Proof.Machine.execEvacuationRewrite s
  | .drainDone => Sys2Proof.Machine.execDrainDone s
  | .copyDone => Sys2Proof.Machine.execCopyDone s
  | .mapoutTrainDone pass => Sys2Proof.Machine.execMapoutTrainDone pass s
  | .returnDone => Sys2Proof.Machine.execReturnDone s
  | .heartbeatLost => Sys2Proof.Machine.execHeartbeatLost s
  | .twinAliveEdge inp => Sys2Proof.Machine.execTwinAliveEdge inp s
  | .twinAliveInputLost inp => Sys2Proof.Machine.execTwinAliveInputLost inp s
  | .declarationEnd => Sys2Proof.Machine.execDeclarationEnd s
  | .firstHeartbeatTimeout => Sys2Proof.Machine.execFirstHeartbeatTimeout s
  | .ppsEdge inp back => Sys2Proof.Machine.execPpsEdge inp back s
  | .ppsLost inp => Sys2Proof.Machine.execPpsLost inp s
  | .ppsOutputEdge o => Sys2Proof.Machine.execPpsOutputEdge o s
  | .todOutSend => Sys2Proof.Machine.execTodOutSend s
  | .todMessageReceived m ago => Sys2Proof.Machine.execTodMessageReceived m ago s
  | .referenceSwitch a b r10 => Sys2Proof.Machine.execReferenceSwitch a b r10 s
  | .feedUnhealthy f va vb => Sys2Proof.Machine.execFeedUnhealthy f va vb s
  | .feedHealthy f va vb => Sys2Proof.Machine.execFeedHealthy f va vb s
  | .feedReturn => Sys2Proof.Machine.execFeedReturn s
  | .lastGasp => Sys2Proof.Machine.execLastGasp s
  | .holdupShutdown => Sys2Proof.Machine.execHoldupShutdown s
  | .powerOnRelease => Sys2Proof.Machine.execPowerOnRelease s
  | .thermalTrip => Sys2Proof.Machine.execThermalTrip s
  | .thermalRelease => Sys2Proof.Machine.execThermalRelease s
  | .voltageSettled o => Sys2Proof.Machine.execVoltageSettled o s
  | .levelChangeAbort o => Sys2Proof.Machine.execLevelChangeAbort o s
  | .saveComplete o => Sys2Proof.Machine.execSaveComplete o s
  | .wakeEvent o src c => Sys2Proof.Machine.execWakeEvent o src c s
  | .wakePatternMatch c frame tid bc prot => Sys2Proof.Machine.execWakePatternMatch c frame tid bc prot s
  | .octTimerWake o => Sys2Proof.Machine.execOctTimerWake o s
  | .dsExit badBanks => Sys2Proof.Machine.execDsExit badBanks s
  | .lastingEnd src inst => Sys2Proof.Machine.execLastingEnd src inst s
  | .inputTransition inp active held => Sys2Proof.Machine.execInputTransition inp active held s
  | .chatterEnd inp => Sys2Proof.Machine.execChatterEnd inp s
  | .inputStuck inp => Sys2Proof.Machine.execInputStuck inp s
  | .resetInput => Sys2Proof.Machine.execResetInput s
  | .resetRelease pairId feedMain => Sys2Proof.Machine.execResetRelease pairId feedMain s
  | .resetPhaseDone => Sys2Proof.Machine.execResetPhaseDone s
  | .headerChecked slot => Sys2Proof.Machine.execHeaderChecked slot s
  | .sectionsChecked readable digestsOk sections => Sys2Proof.Machine.execSectionsChecked readable digestsOk sections s
  | .memTrainingDone failed temps => Sys2Proof.Machine.execMemTrainingDone failed temps s
  | .apply => Sys2Proof.Machine.execApply s
  | .taskWake => Sys2Proof.Machine.execTaskWake s
  | .preemptTimeout core => Sys2Proof.Machine.execPreemptTimeout core s
  | .reportReady => Sys2Proof.Machine.execReportReady s
  | .txPost req => Sys2Proof.Machine.execTxPost req s
  | .rxPop req => Sys2Proof.Machine.execRxPop req s
  | .chTermEqdWrite req value => Sys2Proof.Machine.execChTermEqdWrite req value s
  | .chTrecStateWrite req t value => Sys2Proof.Machine.execChTrecStateWrite req t value s
  | .measPop req => Sys2Proof.Machine.execMeasPop req s
  | .pop req => Sys2Proof.Machine.execPop req s
  | .capture req => Sys2Proof.Machine.execCapture req s
  | .set req => Sys2Proof.Machine.execSet req s
  | .step req => Sys2Proof.Machine.execStep req s
  | .pegSrvFwofsHiWrite req value => Sys2Proof.Machine.execPegSrvFwofsHiWrite req value s
  | .tableWordWrite req ofs data => Sys2Proof.Machine.execTableWordWrite req ofs data s
  | .insert req => Sys2Proof.Machine.execInsert req s
  | .delete req => Sys2Proof.Machine.execDelete req s
  | .search req => Sys2Proof.Machine.execSearch req s
  | .update req => Sys2Proof.Machine.execUpdate req s
  | .tstEnableWrite req reg value => Sys2Proof.Machine.execTstEnableWrite req reg value s
  | .fire req => Sys2Proof.Machine.execFire req s
  | .eyeScanStart req => Sys2Proof.Machine.execEyeScanStart req s
  | .tdsTaskWWrite req k value => Sys2Proof.Machine.execTdsTaskWWrite req k value s
  | .arm req => Sys2Proof.Machine.execArm req s
  | .kick req => Sys2Proof.Machine.execKick req s
  | .suspend req => Sys2Proof.Machine.execSuspend req s
  | .resume req => Sys2Proof.Machine.execResume req s
  | .delay req ticks => Sys2Proof.Machine.execDelay req ticks s
  | .free req => Sys2Proof.Machine.execFree req s
  | .tdsNextRead req => Sys2Proof.Machine.execTdsNextRead req s
  | .endRun req => Sys2Proof.Machine.execEndRun req s
  | .yield req => Sys2Proof.Machine.execYield req s
  | .sleep req ticks => Sys2Proof.Machine.execSleep req ticks s
  | .tdsEvRaise req idx => Sys2Proof.Machine.execTdsEvRaise req idx s
  | .postIn req => Sys2Proof.Machine.execPostIn req s
  | .postOut req => Sys2Proof.Machine.execPostOut req s
  | .popIn req => Sys2Proof.Machine.execPopIn req s
  | .popOut req => Sys2Proof.Machine.execPopOut req s
  | .offline req core => Sys2Proof.Machine.execOffline req core s
  | .tdsInjGo req => Sys2Proof.Machine.execTdsInjGo req s
  | .twnSwitch req c toActive force => Sys2Proof.Machine.execTwnSwitch req c toActive force s
  | .twnLanesWrite req out => Sys2Proof.Machine.execTwnLanesWrite req out s
  | .imgVerify req => Sys2Proof.Machine.execImgVerify req s
  | .imgVerifyDone slot => Sys2Proof.Machine.execImgVerifyDone slot s
  | .flashRead req => Sys2Proof.Machine.execFlashRead req s
  | .flashProgram req => Sys2Proof.Machine.execFlashProgram req s
  | .flashErase req => Sys2Proof.Machine.execFlashErase req s
  | .flashCommandDone ok data => Sys2Proof.Machine.execFlashCommandDone ok data s
  | .advance req => Sys2Proof.Machine.execAdvance req s
  | .fuseAdvanceDone => Sys2Proof.Machine.execFuseAdvanceDone s
  | .restart req key => Sys2Proof.Machine.execRestart req key s
  | .attestationRequest req => Sys2Proof.Machine.execAttestationRequest req s
  | .writeSlot req => Sys2Proof.Machine.execWriteSlot req s
  | .eraseSlot req => Sys2Proof.Machine.execEraseSlot req s
  | .eraseTid req => Sys2Proof.Machine.execEraseTid req s
  | .eraseChannel req => Sys2Proof.Machine.execEraseChannel req s
  | .change req t => Sys2Proof.Machine.execChange req t s
  | .goOut req d => Sys2Proof.Machine.execGoOut req d s
  | .goIn req => Sys2Proof.Machine.execGoIn req s
  | .octPwrReq req target => Sys2Proof.Machine.execOctPwrReq req target s
  | .dsRequest req => Sys2Proof.Machine.execDsRequest req s
  | .doze req => Sys2Proof.Machine.execDoze req s
  | .undoze req => Sys2Proof.Machine.execUndoze req s
  | .clear req => Sys2Proof.Machine.execClear req s
  | .undo req => Sys2Proof.Machine.execUndo req s
  | .bistRequest req kind idx => Sys2Proof.Machine.execBistRequest req kind idx s
  | .testFinished pass addr => Sys2Proof.Machine.execTestFinished pass addr s
  | .tailWrite req tail => Sys2Proof.Machine.execTailWrite req tail s
  | .ringEnable req => Sys2Proof.Machine.execRingEnable req s
  | .imgRdigLatch req => Sys2Proof.Machine.execImgRdigLatch req s
  | .prbsCheckerLock l => Sys2Proof.Machine.execPrbsCheckerLock l s
  | .prbsCheckerLoss l errs => Sys2Proof.Machine.execPrbsCheckerLoss l errs s
  | .continuousInjection l => Sys2Proof.Machine.execContinuousInjection l s
  | .eyeScanDone l errs => Sys2Proof.Machine.execEyeScanDone l errs s
  | .alignmentMarkerLockLoss c => Sys2Proof.Machine.execAlignmentMarkerLockLoss c s
  | .emOperationDone noPlace => Sys2Proof.Machine.execEmOperationDone noPlace s
  | .injectionReadDone core failed => Sys2Proof.Machine.execInjectionReadDone core failed s
  | .voltageRampDownDone o => Sys2Proof.Machine.execVoltageRampDownDone o s
  | .dozeTxReady c => Sys2Proof.Machine.execDozeTxReady c s
  | .pcieLinkUp up => Sys2Proof.Machine.execPcieLinkUp up s
  | .ppsOutputPulseEnd o => Sys2Proof.Machine.execPpsOutputPulseEnd o s
  | .twinAlivePulseEnd => Sys2Proof.Machine.execTwinAlivePulseEnd s
  | .recirculationRefill pipe => Sys2Proof.Machine.execRecirculationRefill pipe s

end Sys2Proof.Machine
end

