-- ==== Sys2Proof/Machine/Capo.lean ====
section
/-!
DEFINITION. The bytes of the capo banks (15_power R392, R393, 16_faults_test R411): what the engine holds in capo memory,
laid out from the state, little-endian (R2), each bank with its check word. Where a table names a part's content and not the
order in it, registers lie in ascending offset (log entry 138).
-/

namespace Sys2Proof.Machine

/-- Some bytes in a part of a fixed length, zeros behind. -/
def fitPart (n : Nat) (l : List Nat) : List Nat := l.take n ++ List.replicate (n - l.length) 0

/-- The values in effect that capo memory holds: those at the entry into device standby while it lasts (R397), else those that
stand, which are what a sleeping octant saved (17_register_map, Reads). -/
def State.savedEff (s : State) : Tab Word := if s.pwr.dsRestore then s.pwr.capoEff else s.eff

/-- The shadows that capo memory holds. -/
def State.savedShd (s : State) : Tab Word := if s.pwr.dsRestore then s.pwr.capoShd else s.shd

/-- One register in a save: its RW, RC and RWT fields in effect, then its shadow where it has RWT fields, `n` bytes each; RO
fields are not saved. -/
def State.regSave (s : State) (n k : Nat) : List Nat :=
  let held (a : Acc) : Bool := savedAcc a || rwtAcc a
  let rwt := keyMask rwtAcc k
  bytesLE n (tget regReset s.savedEff k &&& keyMask held k).toNat ++
    (if rwt = 0 then [] else bytesLE n (tget regReset s.savedShd k &&& rwt).toNat)

/-- The offsets of the registers of a row. -/
def RegRow.offsets (r : RegRow) : List Nat :=
  (List.range r.n1).flatMap (fun i => (List.range r.n2).map (fun j => r.base + i * r.s1 + j * r.s2))

/-- An offset put in its place. -/
def insertOfs (x : Nat) : List Nat → List Nat
  | [] => [x]
  | y :: ys => if x < y then x :: y :: ys else y :: insertOfs x ys

/-- The offsets of the registers with saved fields of some rows, ascending. -/
def savedOffsets (p : RegRow → Bool) : List Nat :=
  (((List.range 14).flatMap (fun i => (regionRows i).filter p)).flatMap RegRow.offsets).filter
    (fun o => keyMask (fun a => savedAcc a || rwtAcc a) o != 0) |>.foldr insertOfs []

/-! ### Octant save (R393) -/

/-- One queue: 46 bytes. -/
def State.queueSave (s : State) (q : Nat) : List Nat :=
  [F.QSH_Q_CFG, F.QSH_Q_TL, F.QSH_SHP_CFG, F.QSH_SHP_RATE].flatMap (fun f => s.regSave 4 (rkey q f.off)) ++
    s.regSave 3 (rkey q F.QSH_SHP_BURST.off) ++ [F.QSH_Q_TX, F.QSH_Q_TL_LATE].flatMap (fun f => s.regSave 4 (rkey q f.off))

/-- One meter: 52 bytes. -/
def State.meterSave (s : State) (m : Nat) : List Nat :=
  [F.OCT_MTR_CFG, F.OCT_MTR_CIR, F.OCT_MTR_PIR].flatMap (fun f => s.regSave 4 (rkey m f.off)) ++
    [F.OCT_MTR_CBS, F.OCT_MTR_PBS].flatMap (fun f => s.regSave 3 (rkey m f.off)) ++
    [F.OCT_MTR_GREEN, F.OCT_MTR_YELLOW, F.OCT_MTR_RED, F.OCT_MTR_REDDROP].flatMap (fun f => s.regSave 4 (rkey m f.off))

/-- The registers of an octant's window. -/
def State.octRegSave (s : State) (o : Nat) : List Nat :=
  fitPart 512 ((savedOffsets (fun r => r.bank == .oct)).flatMap (fun k => s.regSave 4 (rkey o k)))

/-- One channel: the registers of its window and its TST registers, then the admin and the operational gate entries, 5 bytes
each (states, interval). -/
def State.chanSave (s : State) (c : Nat) : List Nat :=
  let regs := savedOffsets (fun r => (r.bank == .chan && !(decide (0x41A00 ≤ r.base) && decide (r.base < 0x43000))) || r.bank == .lane)
  let ent (g i : Nat → Fld) (k : Nat) : List Nat :=
    bytesLE 1 (getF (tget regReset s.savedEff (rkey c (g k).off)) (g k)) ++ bytesLE 4 (getF (tget regReset s.savedEff (rkey c (i k).off)) (i k))
  fitPart 6400 (regs.flatMap (fun k => s.regSave 4 (rkey c k)) ++ (List.range 256).flatMap (ent F.CH_GATE_EG F.CH_GATE_EI) ++
    (List.range 256).flatMap (ent F.CH_GATE_OG F.CH_GATE_OI))

/-- The dynamic state of one channel: the copied records of its 32 terminals, 48 bytes each; then the terminal state, 40 bytes,
TWN_SOFS, 8 bytes, and S and n of its gates, 16 bytes. -/
def State.dynSave (s : State) (c : Nat) : List Nat :=
  let sleep := s.pwr.dsRestore
  let trec := if sleep then s.pwr.capoTrec else s.twin.trec
  let term := if sleep then s.pwr.capoTerm else s.twin.term
  let sofs := if sleep then s.pwr.capoSofs else s.twin.sofs
  let word (f : Fld) : List Nat := bytesLE 4 (tget regReset s.savedEff (rkey c f.off)).toNat
  fitPart 1600 ((List.range 32).flatMap (fun t => fitPart 48 ((tget (fun _ => []) trec (c * 32 + t)).map BitVec.toNat)) ++
    fitPart 40 ((tget (fun _ => []) term c).map BitVec.toNat) ++ bytesLE 8 (codeInt 64 (tget (fun _ => 0) sofs c)) ++
    [F.CH_GATE_S_SL, F.CH_GATE_S_SH, F.CH_GATE_S_NS, F.CH_GATE_N].flatMap word)

/-! ### The other banks (R392) -/

/-- Bank 0: the device-scope registers. -/
def State.deviceSave (s : State) : List Nat :=
  (((bothKeys s.savedEff s.savedShd).filter (inBanks [0])).foldr insertRank []).flatMap (fun k => bytesLE 4 k ++ fitPart 8 (s.regSave 4 k))

/-- Bank 1: M, and the manifest kept since the start. -/
def State.imageSave (s : State) : List Nat := fitPart 64 (s.img.m.map BitVec.toNat) ++ s.img.manifest.map BitVec.toNat

/-- Bank 2 (R411): the circle of the last 256 entries of SEV 1 or more, the counts by SEV, the index of the circle's next entry,
and the last-gasp entry. -/
def State.logSave (s : State) : List Nat :=
  fitPart 16384 ((List.range 256).flatMap (fun i => match tfind s.flt.capo i with | none => List.replicate 32 0 | some e => e.bytes) ++
    (List.range 3).flatMap (fun v => bytesLE 4 (s.flt.sevs.getD v 0)) ++ bytesLE 4 s.flt.capoNext) ++
  (match s.flt.lastGasp with | none => [] | some e => e.bytes)

/-- Bank 3: the power accounting, and per octant the pending request and the latched wake (255: none). -/
def State.powerSave (s : State) : List Nat :=
  (List.range 128).flatMap (fun i => bytesLE 4 (s.reg 0 (0x20400 + 4 * i)).toNat) ++
    (List.range 8).flatMap (fun o =>
      let p := tget (fun _ => OctPwr.reset) s.pwr.octs o
      (match p.pend with | none => [255, 255] | some x => [x.1 % 256, x.2 % 256]) ++ [(p.wake.getD 255) % 256])

/-- The wake patterns of some channels: 32 mask words and the control word each (R396). -/
def State.wakeSave (s : State) (cs : List Nat) : List Nat :=
  cs.flatMap (fun c => (List.range 8).flatMap (fun p =>
    (List.range 33).flatMap (fun k => s.regSave 4 (rkey c (0x41A00 + 144 * p + 4 * k)))))

/-- What a bank holds ahead of its check word (Table: Capo banks). -/
def State.bankContent (s : State) (b : Nat) : List Nat :=
  let o := (b - 4) / 3
  if b = 0 then s.deviceSave
  else if b = 1 then s.imageSave
  else if b = 2 then s.logSave
  else if b = 3 then s.powerSave
  else if 28 ≤ b then (if b < 30 then s.wakeSave ((List.range 32).map (· + 32 * (b - 28))) else [])
  else if b % 3 = 1 then s.octRegSave o ++ (List.range 512).flatMap (fun q => s.queueSave (512 * o + q)) ++
    (List.range 797).flatMap (fun m => s.meterSave (2048 * o + m))
  else if b % 3 = 2 then (List.range 1251).flatMap (fun m => s.meterSave (2048 * o + 797 + m))
  else (octChans o).flatMap s.chanSave ++ (octChans o).flatMap s.dynSave

/-- The 65,536 bytes of a capo bank: its content, zeros, and the check word, a CRC-32C over bytes 0 to 65,531 (R392). -/
def State.capoBank (s : State) (b : Nat) : List Byte :=
  let body := toBytes (fitPart 65532 (s.bankContent b))
  body ++ toBytes (bytesLE 4 (crc32c body))

end Sys2Proof.Machine
end

