-- ==== Sys2Proof/Safety.lean ====
section
/-!
DEFINITION. What counts as a safe run, and the terms that the statements use: when the engine carries a command out, what a
command's own effect is, and what a change leaves alone.
-/

namespace Sys2Proof

/-- A step that answers a next state. -/
def steps (s t : Machine.State) : Prop := Machine.step s = .next t

/-- The first n steps from a state all answer a next state. -/
def safeFor : Nat → Machine.State → Prop
  | 0, _ => True
  | n + 1, s => ∃ t, steps s t ∧ safeFor n t

namespace Machine

/-- The engine is neither held in reset nor in device standby (R376, R397, R422, R441). -/
abbrev State.Runs (s : State) : Prop := s.isHeld = false

/-- The engine carries out the writes of a requester: it is not held, and PHASE is RUN or the requester is 17 (R360). -/
abbrev State.Takes (s : State) (req : Fin 19) : Prop := s.isHeld = false ∧ (req.val = 17 ∨ s.rd F.IMG_STAT_PHASE 0 = 4)

/-- No requester above this one has written in the device cycle under way (R37). -/
abbrev State.Alone (s : State) (req : Fin 19) : Prop := ∀ x ∈ s.same, x.cyc = s.pegs.cyc → x.req ≤ req.val

/-- A command answers a next state: its own effect `u`, then what ends every command (State.finish), and the queue as it
was. -/
def Finishes (i : Instr) (s u : State) : Prop := exec i s = .next (s.after u)

/-- Nothing but values in effect has changed, and of those only registers at the keys named; the record of the writes of the
device cycle (R37) may have. -/
def OnlyRegs (ks : List Nat) (s u : State) : Prop :=
  u = { s with eff := u.eff, same := u.same } ∧ ∀ k, k ∉ ks → tget regReset u.eff k = tget regReset s.eff k

/-- The commands that also act on an engine that is held: resets and releases, feeds, hold-up, the thermal trip, in device
standby the exit from it and the patterns of the wake detectors, and the PCI Express events (log entries 13 and 141). -/
def actsHeld : Instr → Bool
  | .resetInput => true
  | .resetRelease _ _ => true
  | .feedUnhealthy _ _ _ => true
  | .feedHealthy _ _ _ => true
  | .holdupShutdown => true
  | .powerOnRelease => true
  | .thermalTrip => true
  | .thermalRelease => true
  | .dsExit _ => true
  | .wakePatternMatch _ _ _ _ _ => true
  | .pcieReset => true
  | .pcieLinkDown _ => true
  | .pcieLinkUp _ => true
  | _ => false

/-- The commands that are reads of registers, which a held engine answers with ones (R397). -/
def isRead : Instr → Bool
  | .readClear _ _ _ => true
  | .devTickLoRead _ => true
  | _ => false

/-- The requester of a command that writes a register with a row of its own in the table, outside the IMG region (R360). -/
def writerOf : Instr → Option (Fin 19)
  | .tickCommit req _ => some req
  | .txPost req => some req
  | .rxPop req => some req
  | .chTermEqdWrite req _ => some req
  | .chTrecStateWrite req _ _ => some req
  | .pop req => some req
  | .capture req => some req
  | .set req => some req
  | .step req => some req
  | .pegSrvFwofsHiWrite req _ => some req
  | .tableWordWrite req _ _ => some req
  | .insert req => some req
  | .delete req => some req
  | .search req => some req
  | .update req => some req
  | .tstEnableWrite req _ _ => some req
  | .fire req => some req
  | .eyeScanStart req => some req
  | .tdsTaskWWrite req _ _ => some req
  | .arm req => some req
  | .kick req => some req
  | .suspend req => some req
  | .resume req => some req
  | .delay req _ => some req
  | .free req => some req
  | .endRun req => some req
  | .yield req => some req
  | .sleep req _ => some req
  | .tdsEvRaise req _ => some req
  | .postIn req => some req
  | .postOut req => some req
  | .popIn req => some req
  | .popOut req => some req
  | .offline req _ => some req
  | .tdsInjGo req => some req
  | .twnSwitch req _ _ _ => some req
  | .twnLanesWrite req _ => some req
  | .writeSlot req => some req
  | .eraseSlot req => some req
  | .eraseTid req => some req
  | .eraseChannel req => some req
  | .change req _ => some req
  | .goOut req _ => some req
  | .goIn req => some req
  | .octPwrReq req _ => some req
  | .dsRequest req => some req
  | .doze req => some req
  | .undoze req => some req
  | .clear req => some req
  | .undo req => some req
  | .bistRequest req _ _ => some req
  | .tailWrite req _ => some req
  | .ringEnable req => some req
  | _ => none

end Machine

end Sys2Proof
end

