-- ==== Sys2Proof/Certificates/Slice0/Obligations.lean ====
section
/-!
DEFINITION. The statements for the provers. `Finishes c s u` says that command c at state s answers a next state, its own
effect u followed by what ends every command; what that end changes is the statement EndOfCommand.
-/

open Sys2Proof Sys2Proof.Machine

/-! ### The queue and the block as a whole -/

/-- The command at the front of the queue is run on the state with the queue's rest; on an empty queue one device cycle
passes (log entry 1). -/
def Obligations.StepRunsFront : Prop :=
  ∀ (c : Instr) (l : List Instr) (s : State),
    step (s.withPending (c :: l)) = exec c (s.withPending l) ∧ step (s.withPending []) = .next (s.withPending []).idle

/-- No command faults or is refused, so every run of any length from any state goes on. -/
def Obligations.EveryRunGoesOn : Prop := ∀ (n : Nat) (s : State), safeFor n s

/-- An engine that is held in reset or in device standby carries out nothing but releases, feeds, trips, PCI Express events and the
patterns of its wake detectors, and answers reads with ones (R376, R378, R395, R397, R422, R441). -/
def Obligations.HeldIgnores : Prop :=
  ∀ (c : Instr) (s : State), s.isHeld = true → actsHeld c = false →
    (isRead c = false → exec c s = .next s) ∧
    (∀ req off len, c = .readClear req off len → exec c s = .next (s.answer req (List.replicate len.val 0xFF))) ∧
    (∀ req, c = .devTickLoRead req → exec c s = .next (s.answer req (List.replicate 4 0xFF)))

/-- An engine that is held stays held, through every step, for as long as only commands that cannot release it wait. -/
def Obligations.HeldStaysHeld : Prop :=
  ∀ (s t : State), (s.isHeld = true ∧ s.pending.all (fun c => !actsHeld c) = true) → step s = .next t →
    (t.isHeld = true ∧ t.pending.all (fun c => !actsHeld c) = true) ∧
      (s.pending.all (fun c => !isRead c) = true → t = { s with pending := s.pending.drop 1 })

/-- Until PHASE is RUN, a command that writes a register of another requester than the image loader is ignored (R360). -/
def Obligations.WritesBeforeRun : Prop :=
  ∀ (c : Instr) (req : Fin 19) (s : State), writerOf c = some req → s.Runs → req.val ≠ 17 →
    s.rd F.IMG_STAT_PHASE 0 ≠ 4 → Finishes c s s

/-- What ends every command changes nothing but the reorder contexts, the event log, its SEQ and what leaves the engine, where
no self-fencing edge comes, no task was made READY and no partner is copied to (R205, R313, R334, R343, R408). -/
def Obligations.EndOfCommand : Prop :=
  ∀ (u : State), u.holdLow = u.twin.fence → u.tds.joins = [] → u.copying = false →
    u.finish = { u with eff := u.finish.eff, store := { u.store with ctx := u.finish.store.ctx },
                        flt := u.finish.flt, out := u.finish.out } ∧
    (∀ k, k ≠ rkey 0 F.FLT_LOG_SEQ.off → tget regReset u.finish.eff k = tget regReset u.eff k) ∧
    u.finish.flt.cycle = [] ∧ u.finish.flt.watch = u.flt.watch ∧ u.finish.flt.ins = u.flt.ins ∧
    u.finish.flt.bist = u.flt.bist ∧ u.finish.flt.rows = u.flt.rows

/-! ### Reset -/

/-- After reset every register holds the value of the whole register that Table: Registers gives, no command waits and nothing
is stored; six of the values; the register tables and the memories have their canonical form (R428). -/
def Obligations.ResetState : Prop :=
  (∀ i off, State.reset.reg i off = regReset (rkey i off) ∧ State.reset.shadow i off = regReset (rkey i off)) ∧
  State.reset.pending = [] ∧ State.reset.eng.tick = 0 ∧ State.reset.pegTime 0 = 0 ∧
  (∀ p, State.reset.pipe p = []) ∧ (∀ q, State.reset.queue q = []) ∧ (∀ a, State.reset.tblByte a = 0) ∧
  State.reset.reg 0 0x0 = 0x64404D00#32 ∧ State.reset.reg 63 0x40200 = 0x800#32 ∧ State.reset.reg 0 0x40214 = 0x18081020#32 ∧
  State.reset.reg 5 0x40D40 = 0x44DE0C80#32 ∧ State.reset.reg 0 0x90000 = 0xFF007828#32 ∧ State.reset.reg 7 0x50504 = 0x30000000#32 ∧
  State.reset.Canonical ∧ State.reset.flt.cycle = []

/-- No entry of the event log waits between steps: what a command logs is in the log when it ends, in order (R408). -/
def Obligations.EntriesWritten : Prop := ∀ (s t : State), s.flt.cycle = [] → step s = .next t → t.flt.cycle = []

/-- No command changes the queue of those that wait behind it. -/
def Obligations.QueueKept : Prop := ∀ (c : Instr) (s t : State), exec c s = .next t → t.pending = s.pending

/-! ### The register map (17_register_map, 00_scope) -/

/-- Reserved fields read 0; an offset that holds no register reads 0, and a write to it is ignored (R6). -/
def Obligations.ReservedReadsZero : Prop :=
  (∀ (s : State) (req off i : Nat) (r : RegRow),
    s.readWord req off i r &&& ~~~(BitVec.ofNat 32 (accMask r.flds (fun _ => true))) = 0#32) ∧
  (∀ (s : State) (req : Nat) (off : Nat), off % 4 = 0 → findRow off = none → off < 0xE0000 ∨ 0xE1020 ≤ off →
    s.readBytes req off 4 = (List.replicate 4 0, s) ∧ ∀ d, s.writeRegister req off d = s)

/-- A write of a running engine completes, at any address and of any length. One that does not enable every byte has no effect on a
register without RW fields: not on WO, W1C, W1S or RWT ones, and none on TICK_COMMIT; the write is only noted for its device
cycle (R5, R37). -/
def Obligations.PartialWrite : Prop :=
  (∀ (s : State) (req : Fin 19) (at_ : Addr) (d : List (Option Byte)), s.Runs →
    Finishes (.registerWrite req at_ d) s (s.writeAt req at_ d)) ∧
  ∀ (s : State) (req off : Nat) (r : RegRow) (d : List (Option Byte)), findRow off = some r → off / 0x10000 ≠ 0xE →
    accMask r.flds (· == .rw) = 0 → fullWord d = false → { s.writeRegister req off d with same := s.same } = s

/-- READ_CLEAR and DEV_TICK_LO_READ on a running engine answer the requester, and DEV_TICK_HI is latched for it; of one register
a read that returns every byte clears the RC fields and changes no other bit of it, and one that covers no RC field whole
changes nothing, for every register whose read has no further effect (R5, R7). -/
def Obligations.Reads : Prop :=
  (∀ (s : State) (req : Fin 19), s.Runs →
    (∀ at_ len, Finishes (.readClear req at_ len) s ((s.readAt req at_ len).2.answer req (s.readAt req at_ len).1)) ∧
    Finishes (.devTickLoRead req) s
      ((s.wr F.DEV_TICK_HI req (s.eng.tick / 2 ^ 32)).answer req (toBytes (bytesLE 4 s.eng.tick)))) ∧
  (∀ (s : State) (req off i lo hi : Nat) (r : RegRow), findRow off = some r → s.readInst req r = some i →
    off ≠ 0x10 → off ≠ 0x10080 → off ≠ 0x40494 → off ≠ 0x60024 → off ≠ 0x90040 →
    (s.readRegister req off lo hi).1 = toBytes (bytesLE 4 (s.readWord req off i r).toNat) ∧
    (rcCleared r lo hi = 0 → (s.readRegister req off lo hi).2 = s) ∧
    (s.readRegister req off 0 3).2.reg i off =
      s.reg i off &&& ~~~(BitVec.ofNat 32 (accMask r.flds (fun a => a == .rc))) ∧
    OnlyRegs [rkey i off] s (s.readRegister req off lo hi).2)

/-- A whole-word write of a select register by one requester holds the field written in that requester's copy, and changes no
other register, above all no other requester's copy (R36). Of two requesters' writes of one register in one device cycle the
higher one's value stands, whichever waited in front (R37). -/
def Obligations.SelectsAreBanked : Prop :=
  (∀ (s : State) (req : Fin 19) (w : Word) (f : Fld), s.Takes req → s.Alone req →
    f ∈ [F.PEGSEL, F.OCTSEL, F.QSEL, F.MEMSEL, F.RINGSEL, F.CHSEL_CH] →
    ∃ u, Finishes (.registerWrite req (.reg (BitVec.ofNat 20 f.off)) (wholeWord w)) s u ∧
      u.rd f req = getF w f ∧ OnlyRegs [rkey req f.off] s u) ∧
  (∀ (s : State) (lo hi : Fin 19) (v w : Word), s.Takes lo → s.Takes hi → lo.val < hi.val → s.same = [] →
    (∃ t u, Finishes (.registerWrite lo (.reg 0xA0F24) (wholeWord v)) s t ∧
      Finishes (.registerWrite hi (.reg 0xA0F24) (wholeWord w)) t u ∧ u.reg 0 0xA0F24 = w) ∧
    (∃ t u, Finishes (.registerWrite hi (.reg 0xA0F24) (wholeWord w)) s t ∧
      Finishes (.registerWrite lo (.reg 0xA0F24) (wholeWord v)) t u ∧ u.reg 0 0xA0F24 = w))

/-! ### Commits and the core tick (01_engine) -/

/-- A write of TICK_COMMIT captures the scope as it stands, the masks included, due at the next boundary, or one later at or
after the cutoff, with LATE set; later writes to TICK_COMMIT_CHM0 or TICK_COMMIT_CHM1 change no commit that waits; a write with every
scope field zero has no effect (R26, R27). -/
def Obligations.CommitScopeCaptured : Prop :=
  ∀ (s : State) (req : Fin 19) (w : Word), s.Takes req →
    (getF w F.TICK_COMMIT_CH_BY_MASK = 0 → getF w F.TICK_COMMIT_CH_BY_OCT = 0 → getF w F.TICK_COMMIT_OCT_MASK = 0 →
      getF w F.TICK_COMMIT_DEV = 0 → Finishes (.tickCommit req w) s s) ∧
    (∀ off v, off = 0x104#20 ∨ off = 0x108#20 → ∃ u, Finishes (.registerWrite req (.reg off) (wholeWord v)) s u ∧ u.eng = s.eng) ∧
    ((getF w F.TICK_COMMIT_CH_BY_MASK ≠ 0 ∨ getF w F.TICK_COMMIT_CH_BY_OCT ≠ 0 ∨ getF w F.TICK_COMMIT_OCT_MASK ≠ 0 ∨
        getF w F.TICK_COMMIT_DEV ≠ 0) →
      ∃ u x, Finishes (.tickCommit req w) s u ∧ u.eng = { s.eng with commits := s.eng.commits ++ [x] } ∧ x.req = req.val ∧
        x.wait = (if s.eng.past then 2 else 1) ∧ x.dev = (getF w F.TICK_COMMIT_DEV != 0) ∧
        x.octs = getF w F.TICK_COMMIT_OCT_MASK ∧
        (∀ c < 64, bit x.chs c = ((getF w F.TICK_COMMIT_CH_BY_MASK != 0 &&
            bit (s.rd F.TICK_COMMIT_CHM1 req * 2 ^ 32 + s.rd F.TICK_COMMIT_CHM0 req) c) ||
          (getF w F.TICK_COMMIT_CH_BY_OCT != 0 && bit (getF w F.TICK_COMMIT_OCT_MASK) (c / 8)))) ∧
        u.rd F.TICK_COMMIT_STAT_PENDING req = 1 ∧ u.rd F.TICK_COMMIT_STAT_LATE req = (if s.eng.past then 1 else 0) ∧
        u.rd F.TICK_COMMIT_TICK req = (s.eng.tick + x.wait) % 2 ^ 32 ∧
        { u with eff := s.eff, eng := s.eng } = s ∧
        ∀ k, k ≠ rkey req F.TICK_COMMIT_STAT.off → k ≠ rkey req F.TICK_COMMIT_TICK.off →
          tget regReset u.eff k = tget regReset s.eff k)

/-- At the cutoff the shadows are taken, once a tick; no value comes into effect (R28). -/
def Obligations.CutoffSnapshots : Prop :=
  ∀ (s : State), s.Runs → ∃ u, Finishes .commitCutoff s u ∧ (s.eng.past = true → u = s) ∧
    (s.eng.past = false → u.snap = s.shd) ∧ u.shd = s.shd ∧ u.eff = s.eff ∧ u.eng = { s.eng with past := true } ∧
    u.cls = s.cls ∧ u.store = s.store ∧ u.tds = s.tds ∧ u.pending = s.pending

/-- A commit moves into effect the RWT bits of a register from its snapshot, and no other bit and no other register; an octant's
part is refused exactly where the octant would take it and more channels would have an active role than its level allows, and
held exactly where its sequencer is behind or it does not run (R24, R28, R30, R31). -/
def Obligations.CommitParts : Prop :=
  (∀ (s : State) (snap : Tab Word) (k : Nat) (r : RegRow), findRow (k % 0x100000) = some r →
    tget regReset (s.commitKey snap k).eff k =
      (tget regReset s.eff k &&& ~~~(BitVec.ofNat 32 (rwtMask r))) ||| (tget regReset snap k &&& BitVec.ofNat 32 (rwtMask r)) ∧
    OnlyRegs [k] s (s.commitKey snap k)) ∧
  (∀ (s : State) (due : List Commit) (o : Nat) (h : Held), (s.partFor due o) = h → h.reqs ≠ [] →
    ((s.seqOf o).backlog ≠ 0 ∨ s.octRuns o = false → s.fate due o = .hold h) ∧
    ((s.seqOf o).backlog = 0 → s.octRuns o = true →
      (levelMax (s.octPwr o).level < s.rolesAfter o h →
        s.fate due o = .refuse h (s.rolesAfter o h) (levelMax (s.octPwr o).level)) ∧
      (s.rolesAfter o h ≤ levelMax (s.octPwr o).level → s.fate due o = .apply h)))

/-- A core tick begins: without a step of peg 0 pending its number goes up by one and the next boundary lies one tick later; with
one, the next boundary is a multiple of 16 µs of the stepped time, at least 16 µs on, and the step is counted (R17, R18). -/
def Obligations.CoreTickBegins : Prop :=
  ∀ (s : State), s.Runs →
    (∀ bad regs, Finishes (.coreTickBoundary bad regs) s (coreTickBoundary bad.toNat regs s)) ∧
    (s.stepSize 0 = none → s.eng.nextB = (s.eng.tick + 1) * unitTick → s.eng.tick + 1 < 2 ^ 48 →
      s.beginTick.eng.tick = s.eng.tick + 1 ∧ s.beginTick.eng.nextB = s.eng.nextB + unitTick ∧
      s.beginTick.eng.lastB = s.eng.nextB ∧ s.beginTick.eng.past = false) ∧
    (s.stepSize 0 ≠ none → s.beginTick.eng.nextB % unitTick = 0 ∧
      s.beginTick.eng.lastB + 32000 * s.beginTick.pegInc 0 ≤ s.beginTick.eng.nextB ∧
      s.beginTick.eng.nextB < s.beginTick.eng.lastB + 32000 * s.beginTick.pegInc 0 + unitTick ∧
      s.beginTick.rd F.DEV_TICK_STEPS 0 = min (s.rd F.DEV_TICK_STEPS 0 + 1) 65535)

/-- The commands of the tick and of the superframe: a channel's work is run once for each time it is due, and the statistics are
latched only at a superframe's end (R21, R226). -/
def Obligations.TickWork : Prop :=
  ∀ (s : State), s.Runs →
    (∀ c : Fin 64, (s.framer c).due ≠ 0 → s.role c ≠ roleOff → s.octRuns (octOf c) = true →
      Finishes (.lineTickWork c) s ((s.modFramer c (fun f => { f with due := f.due - 1 })).channelWork c)) ∧
    (∀ c : Fin 64, (s.framer c).due = 0 ∨ s.role c = roleOff ∨ s.octRuns (octOf c) = false → Finishes (.lineTickWork c) s s) ∧
    (s.eng.tick % 64 ≠ 0 → Finishes .statsSuperframeEnd s s) ∧
    (s.eng.tick % 64 = 0 → ∃ u, Finishes .statsSuperframeEnd s u ∧ u.store.drained = s.store.dequeued ∧
      u.store.dequeued = [] ∧ u.store.queues = s.store.queues ∧ u.eng = s.eng ∧ u.pegs = s.pegs)

/-! ### Lanes (02_lanes) -/

/-- The lock stages are entered in order on a powered receiver, and in no other case (R44, R47, R58, R61). -/
def Obligations.LaneStages : Prop :=
  ∀ (s : State) (l : Fin 72), s.Runs →
    Finishes (.signalDetect l) s
      (if s.rxPowered l = true ∧ s.laneRole l ≠ roleHead then (s.modFramer l (fun f =>
          { f with seen := { f.seen with noSig := f.seen.noSig || !s.onP (laneSIG l) } })).wrP (laneSIG l) 1 else s) ∧
    Finishes (.cdrLock l) s
      (if s.rxPowered l = true ∧ s.onP (laneSIG l) = true ∧ s.laneRole l ≠ roleHead then s.wrP (laneCDR l) 1 else s) ∧
    Finishes (.lanePllSettled l) s (if s.rdP (lanePWR l) = pwrExiting then s.wrP (lanePWR l) pwrOn else s) ∧
    (∀ (c : Fin 64) (arrival : List Nat), Finishes (.alignmentMarkerLock { channel := c, arrival }) s
      (if s.role c = roleClient ∧ s.onP (laneCDR c) = true ∧ (∀ a ∈ arrival, ∀ b ∈ arrival, a ≤ b + skewBits) then
        ((s.modFramer c (fun f => { f with seen := { f.seen with noCwl := f.seen.noCwl || !s.onP (laneCWL c) } })).wrP
          (laneCWL c) 1).deskewLanes c arrival else s))

/-- A loss drops the stages above it: of signal stages 0 to 3, of CDR lock stages 1 to 3, of a client's marker lock stages 2 and
3; a codeword lock held is counted as lost, saturating (R46, R445). -/
def Obligations.LaneLosses : Prop :=
  (∀ (s : State) (l : Fin 72), s.Runs →
    (∃ u, Finishes (.lossOfSignal l) s u ∧ u.rdP (laneSIG l) = 0 ∧ u.rdP (laneCDR l) = 0 ∧ u.rdP (laneCWL l) = 0 ∧
      (s.onP (laneCWL l) = false → u.rdP (laneLoss l) = s.rdP (laneLoss l))) ∧
    (∃ u, Finishes (.cdrLockLoss l) s u ∧ u.rdP (laneCDR l) = 0 ∧ u.rdP (laneCWL l) = 0 ∧ u.rdP (laneSIG l) = s.rdP (laneSIG l) ∧
      (s.onP (laneCWL l) = false → u.rdP (laneLoss l) = s.rdP (laneLoss l))) ∧
    (∀ c : Fin 64, s.role c ≠ roleClient ∨ s.onP (laneCWL c) = false → Finishes (.alignmentMarkerLockLoss c) s s)) ∧
  ∀ (s : State) (l : Fin 72), s.Runs → s.onP (laneCWL l) = true →
    (∃ u, Finishes (.lossOfSignal l) s u ∧ u.rdP (laneSIG l) = 0 ∧ u.rdP (laneCDR l) = 0 ∧ u.rdP (laneCWL l) = 0 ∧
      u.rdP (laneFEC l) = 0 ∧ u.rdP (laneLoss l) = min (s.rdP (laneLoss l) + 1) 255) ∧
    (∃ u, Finishes (.cdrLockLoss l) s u ∧ u.rdP (laneCDR l) = 0 ∧ u.rdP (laneCWL l) = 0 ∧ u.rdP (laneFEC l) = 0 ∧
      u.rdP (laneLoss l) = min (s.rdP (laneLoss l) + 1) 255) ∧
    (∀ c : Fin 64, c.val = l.val → s.role c = roleClient →
      ∃ u, Finishes (.alignmentMarkerLockLoss c) s u ∧ u.rdP (laneCWL l) = 0 ∧ u.rdP (laneFEC l) = 0 ∧
        u.rdP (laneLoss l) = min (s.rdP (laneLoss l) + 1) 255)

/-- A codeword on a powered receiver: counted as it decodes in head-end role (R43, R47); under codeword lock the fourth in a row
with fewer than 78 valid headers loses the lock (R46); an unpowered receiver takes nothing. -/
def Obligations.CodewordReceived : Prop :=
  ∀ (s : State) (l : Fin 72) (bits : BitVec 5440), s.Runs →
    (s.rxPowered l = true → ∃ v, v = s.polarised l bits.toNat ∧
      (s.laneRole l = roleHead → Finishes (.codewordReceived l bits) s (s.burstCodeword l v)) ∧
      (s.laneRole l = roleClient → Finishes (.codewordReceived l bits) s (s.clientCodeword l v)) ∧
      (s.laneRole l ≠ roleHead → s.laneRole l ≠ roleClient → s.testable l = false →
        Finishes (.codewordReceived l bits) s (s.treeCodeword l v)) ∧
      (s.laneRole l ≠ roleHead → s.laneRole l ≠ roleClient → s.testable l = true → s.on F.TST_LOOP_FAR l = true →
        Finishes (.codewordReceived l bits) s (((s.emit (.symbols l (pam4Levels 2720 bits.toNat))).checkPattern l v).treeCodeword l v)) ∧
      (s.laneRole l ≠ roleHead → s.laneRole l ≠ roleClient → s.testable l = true → s.on F.TST_LOOP_FAR l = false →
        s.on F.TST_LOOP_NEAR l = false → s.on F.TST_PRBS_CFG_GEN_EN l = false →
        Finishes (.codewordReceived l bits) s ((s.checkPattern l v).treeCodeword l v)) ∧
      (s.laneRole l ≠ roleHead → s.laneRole l ≠ roleClient → s.testable l = true → ∀ t, t = s.testLoop l bits.toNat →
        Finishes (.codewordReceived l bits) s
          ((t.2.checkPattern l (s.polarised l t.1)).treeCodeword l (s.polarised l t.1)))) ∧
    (s.rxPowered l = false → Finishes (.codewordReceived l bits) s s) ∧
    (s.rxPowered l = true → s.laneRole l = roleHead →
      (rsDecode 16 (cwSymbols (s.polarised l bits.toNat)) = none → ∃ u, Finishes (.codewordReceived l bits) s u ∧
        u.rdP (laneFecUncorr l) = min (s.rdP (laneFecUncorr l) + 1) (2 ^ 32 - 1) ∧
        u.rdP (laneFecCorr l) = s.rdP (laneFecCorr l) ∧ u.framer l = { s.framer l with seen := (s.framer l).seen.codeword true 0 }) ∧
      (∀ w e, rsDecode 16 (cwSymbols (s.polarised l bits.toNat)) = some (w, e) → ∃ u, Finishes (.codewordReceived l bits) s u ∧
        u.rdP (laneFecUncorr l) = s.rdP (laneFecUncorr l) ∧
        u.rdP (laneFecCorr l) = min (s.rdP (laneFecCorr l) + (if e = [] then 0 else 1)) (2 ^ 32 - 1))) ∧
    (s.rxPowered l = true → s.laneRole l ≠ roleHead → s.laneRole l ≠ roleClient → s.onP (laneCDR l) = true →
      s.onP (laneCWL l) = true → (s.lane l).badHdr = 3 → s.testable l = false →
      validHeaders (((s.lane l).prev + s.polarised l bits.toNat * 2 ^ 5440) / 2 ^ (2 * (s.lane l).hunt) % 2 ^ 5440) < 78 →
      ∃ u, Finishes (.codewordReceived l bits) s u ∧ u.rdP (laneCWL l) = 0 ∧ u.rdP (laneFEC l) = 0 ∧
        (u.lane l).hunt = ((s.lane l).hunt + 1) % 2720)

/-- The test facilities: the checker's lock and loss with its errors, the injections, the eye scan's end and the eye margins
(R63, R65, R67). -/
def Obligations.TestFacilities : Prop :=
  ∀ (s : State) (l : Fin 72), s.Runs →
    Finishes (.prbsCheckerLock l) s (if s.on F.TST_PRBS_CFG_CHK_EN l = true ∧ s.rd F.TST_PRBS_CFG_CHK_PAT l < 2
      then s.wr F.TST_PRBS_STAT_CHK_LOCK l 1 else s) ∧
    (∀ errs, Finishes (.prbsCheckerLoss l errs) s (if s.on F.TST_PRBS_STAT_CHK_LOCK l = true
      then (s.wr F.TST_PRBS_ERR l (min (s.rd F.TST_PRBS_ERR l + errs) (2 ^ 32 - 1))).wr F.TST_PRBS_STAT_CHK_LOCK l 0 else s)) ∧
    Finishes (.continuousInjection l) s
      (if s.on F.TST_INJ_CONT l = true ∧ (s.laneRole l ≠ roleTerm ∨ isSurok l = true) ∧ s.injectionDue l (s.sentCodewords + 1) = true
        then (s.injectNext l).modLane l (fun x => { x with tx := { x.tx with last := some (s.sentCodewords + 1) } }) else s) ∧
    (∀ errs, (s.lane l).scan = true → ∃ u, Finishes (.eyeScanDone l errs) s u ∧ u.rd F.TST_EYE_SCAN_DONE l = 1 ∧
      u.rd F.TST_EYE_SCAN_ERRORS l = min errs 65535 ∧ (u.lane l).scan = false ∧ { u with eff := s.eff, lanes := s.lanes } = s) ∧
    (∀ errs, (s.lane l).scan = false → Finishes (.eyeScanDone l errs) s s) ∧
    (∀ v h, s.onP (laneFEC l) = false → s.laneRole l ≠ roleHead → Finishes (.eyeMarginMeasure l v h) s s) ∧
    (∀ v h, 64 ≤ l.val → s.onP (laneFEC l) = true → Finishes (.eyeMarginMeasure l v h) s
      ((s.wr (F.TWN_L_EYE_MARGIN_V (l - 64)) 0 v.toNat).wr (F.TWN_L_EYE_MARGIN_H (l - 64)) 0 h.toNat)) ∧
    (∀ v h, l.val < 64 → s.onP (laneFEC l) = true ∨ s.role l = roleHead →
      Finishes (.eyeMarginMeasure l v h) s ((s.wr F.CH_EYE_MARGIN_V l v.toNat).wr F.CH_EYE_MARGIN_H l h.toNat))

/-- FIRE and START reach the lanes that the requester selects: an injection leaves at once, or waits for a terminal's next burst,
and a CONT lane ignores it; a scan starts only on a lane that may run tests, and so do the generator and the checker: a write
that would enable one on a channel in an active role is ignored but for REFUSED (R62, R65, R67, R417). -/
def Obligations.TestStarts : Prop :=
  (∀ (s : State) (req : Fin 19), s.Takes req →
    Finishes (.fire req) s (((s.tstLanes req).foldl State.fire s).foldWrites req 0xD010C (s.tstLanes req)) ∧
    Finishes (.eyeScanStart req) s (((s.tstLanes req).foldl State.eyeScanStart s).foldWrites req 0xD0114 ((s.tstLanes req).filter s.testable)) ∧
    (∀ l, s.on F.TST_INJ_CONT l = true → s.fire l = s) ∧
    (∀ l < 64, s.on F.TST_INJ_CONT l = false → s.role l = roleTerm → s.fire l = s.modLane l (fun x => { x with inj := true })) ∧
    (∀ l < 64, s.on F.TST_INJ_CONT l = false → s.role l ≠ roleTerm → s.fire l = s.injectNext l) ∧
    (∀ l < 64, s.role l ≠ roleOff → s.eyeScanStart l = s.wr F.TST_PRBS_STAT_REFUSED l 1) ∧
    (∀ l < 64, s.role l = roleOff → s.rd F.CH_LANE_STAT_PWR l = pwrOn →
      ((s.eyeScanStart l).lane l).scan = true ∧ (s.eyeScanStart l).rd F.TST_PRBS_STAT_REFUSED l = 0)) ∧
  (∀ (s : State) (req : Fin 19) (k : Fin 3) (w : Word), s.Takes req → Finishes (.tstEnableWrite req k w) s
    ((s.newAccess req).writeRegister req (if k = 0 then 0xD0100 else if k = 1 then 0xD0110 else 0xD0114) (wholeWord w))) ∧
  (∀ (s : State) (req : Fin 19) (w : Word) (c : Nat), s.Takes req → s.Alone req → s.on F.TST_TARGET_SUROK req = false →
    s.rd F.CHSEL_BCAST req ∉ [1, 2] → s.rd F.CHSEL_CH req = c → s.octServes (octOf c) = true →
    (getF w F.TST_PRBS_CFG_GEN_EN ≠ 0 ∨ getF w F.TST_PRBS_CFG_CHK_EN ≠ 0) →
    ∃ u, Finishes (.tstEnableWrite req 0 w) s u ∧
      (s.role c ≠ roleOff → u.rd F.TST_PRBS_STAT_REFUSED c = 1 ∧ u.reg c 0xD0100 = s.reg c 0xD0100) ∧
      (s.role c = roleOff → s.rd F.CH_LANE_STAT_PWR c = pwrOn → u.rd F.TST_PRBS_STAT_REFUSED c = 0 ∧
        u.rd F.TST_PRBS_CFG_GEN_EN c = getF w F.TST_PRBS_CFG_GEN_EN ∧ u.rd F.TST_PRBS_CFG_CHK_EN c = getF w F.TST_PRBS_CFG_CHK_EN))

/-- The fields in effect after the clamps of a commit. Sideband: EN_LEAD at most 48, EN_LAG at most 32, RST_LEN 4 to 48, and
RST_OFS + RST_LEN at most 64, with SB_CLAMP showing whether a field was clamped; taps: their magnitudes sum to at most 127, none
grows, and where they summed to at most 127 none changes (R52, R56). -/
def Obligations.Clamps : Prop :=
  (∀ (s : State) (c : Nat),
    (s.clampSideband c).rd F.CH_SB_CFG_EN_LEAD c = min (s.rd F.CH_SB_CFG_EN_LEAD c) 48 ∧
    (s.clampSideband c).rd F.CH_SB_CFG_EN_LAG c = min (s.rd F.CH_SB_CFG_EN_LAG c) 32 ∧
    (s.clampSideband c).rd F.CH_SB_CFG_RST_LEN c = max 4 (min (s.rd F.CH_SB_CFG_RST_LEN c) 48) ∧
    (s.clampSideband c).rd F.CH_SB_CFG_RST_OFS c = min (s.rd F.CH_SB_CFG_RST_OFS c) (64 - (s.clampSideband c).rd F.CH_SB_CFG_RST_LEN c) ∧
    ((s.clampSideband c).rd F.CH_LANE_STAT_SB_CLAMP c = 1 ↔
      (s.clampSideband c).rd F.CH_SB_CFG_EN_LEAD c ≠ s.rd F.CH_SB_CFG_EN_LEAD c ∨
      (s.clampSideband c).rd F.CH_SB_CFG_EN_LAG c ≠ s.rd F.CH_SB_CFG_EN_LAG c ∨
      (s.clampSideband c).rd F.CH_SB_CFG_RST_LEN c ≠ s.rd F.CH_SB_CFG_RST_LEN c ∨
      (s.clampSideband c).rd F.CH_SB_CFG_RST_OFS c ≠ s.rd F.CH_SB_CFG_RST_OFS c) ∧
    OnlyRegs [rkey c 0x40214, rkey c 0x40200] s (s.clampSideband c)) ∧
  (∀ (s : State) (c : Nat),
    let t := s.clampTaps c
    (t.rdInt F.CH_EQ_TX_PRE2 c).natAbs + (t.rdInt F.CH_EQ_TX_PRE1 c).natAbs + t.rd F.CH_EQ_TX_MAIN c +
        (t.rdInt F.CH_EQ_TX_POST1 c).natAbs =
      min 127 ((s.rdInt F.CH_EQ_TX_PRE2 c).natAbs + (s.rdInt F.CH_EQ_TX_PRE1 c).natAbs + s.rd F.CH_EQ_TX_MAIN c +
        (s.rdInt F.CH_EQ_TX_POST1 c).natAbs) ∧
    t.rd F.CH_EQ_TX_MAIN c ≤ s.rd F.CH_EQ_TX_MAIN c ∧
    (t.rd F.CH_EQ_TX_MAIN c ≠ 0 → t.rdInt F.CH_EQ_TX_POST1 c = s.rdInt F.CH_EQ_TX_POST1 c ∧
      t.rdInt F.CH_EQ_TX_PRE1 c = s.rdInt F.CH_EQ_TX_PRE1 c ∧ t.rdInt F.CH_EQ_TX_PRE2 c = s.rdInt F.CH_EQ_TX_PRE2 c) ∧
    t.shd = s.shd)

/-! ### Tick frames, tuning and frets (03_tick_frame, 04_tuning, 05_frets) -/

/-- A bridge is launched by a head end whose octant runs, and by a Surok lane that is ON in a paired engine (R19, R327). -/
def Obligations.BridgeLaunch : Prop :=
  ∀ (s : State) (l : Fin 72), s.Runs →
    (l.val < 64 → s.role l ≠ roleHead ∨ s.octRuns (octOf l) = false → Finishes (.bridgeLaunch l) s s) ∧
    (l.val < 64 → s.role l = roleHead → s.octRuns (octOf l) = true → Finishes (.bridgeLaunch l) s (s.headBridge l)) ∧
    (64 ≤ l.val → s.paired = true → s.rdP (lanePWR l) = pwrOn → ∃ u j bytes, Finishes (.bridgeLaunch l) s u ∧
      u.out = .bridge l j bytes :: (s.sendLineTick l (s.lane l).tx.blocks).out ∧ (u.lane l).tx.items = [(0, dataBlocks bytes)] ∧
      bytes.take 8 = toBytes (bytesBE 8 0xA74C1D93F05E6B28) ∧ (∀ k, k ≠ l.val → u.lane k = s.lane k) ∧
      u.eff = s.eff ∧ u.framers = s.framers ∧ u.store = s.store) ∧
    (64 ≤ l.val → s.paired = false ∨ s.rdP (lanePWR l) ≠ pwrOn → Finishes (.bridgeLaunch l) s s)

/-- A bridge reaches a Surok lane's framer or a terminal's in SYNC, and nothing else; before, the presync check: a bridge with a
bad header CRC, and after the first one that shows no FAW or does not follow the line tick before, sends the framer back to
hunting, and the third in a row brings SYNC (R88, R89, R327). -/
def Obligations.BridgesReceived : Prop :=
  (∀ (s : State) (c : Fin 64) (short same long : BridgeView), s.Runs → s.role c = roleTerm → s.octRuns (octOf c) = true →
    s.rxPowered c = true → s.rdP (tfAlign c) = alPresync →
    ((s.presync c short same long).2 = false →
      Finishes (.bridgeReceived c short same long) s (s.presync c short same long).1) ∧
    (Br.hcrcOk (if (s.framer c).pre = 0 then same else viewFor (s.framer c).pJ short same long).bytes = false →
      s.presync c short same long = (s.falseCand c, false)) ∧
    ((s.presync c short same long).2 = true → (s.framer c).pre = 2 ∨ 2 < (s.framer c).pre) ∧
    ((s.presync c short same long).2 = true → (s.framer c).pre ≠ 0 →
      viewFaw (viewFor (s.framer c).pJ short same long) = true ∧
      Br.ltn (viewFor (s.framer c).pJ short same long).bytes = ((s.framer c).pLtn + 1) % 2 ^ 32)) ∧
  (∀ (s : State) (short same long : BridgeView), s.Runs →
    (∀ c : Fin 64, s.role c = roleTerm → s.octRuns (octOf c) = true → s.rxPowered c = true → s.rdP (tfAlign c) = alSync →
      (s.framer c).j ≠ jUndecided → Finishes (.bridgeReceived c short same long) s
        ((s.syncBridge c ((s.rd F.CH_LTICK_NUM c + 1) % 2 ^ 32) (viewFor (s.framer c).j short same long)
          (viewFaw (viewFor (s.framer c).j short same long)) true).defectsChanged c (s.defWords c))) ∧
    (∀ c : Fin 64, s.role c = roleTerm → s.octRuns (octOf c) = true → s.rxPowered c = true → s.rdP (tfAlign c) = alSync →
      (s.framer c).j = jUndecided → Finishes (.bridgeReceived c short same long) s
        (((s.fixLength c (s.boundary c short same long).2.2).syncBridge c ((s.rd F.CH_LTICK_NUM c + 1) % 2 ^ 32)
          (s.boundary c short same long).1 (s.boundary c short same long).2.1 true).defectsChanged c (s.defWords c))) ∧
    (∀ c : Fin 64, s.role c = roleTerm → s.octRuns (octOf c) = true → s.rxPowered c = true → s.rdP (tfAlign c) = alPresync →
      (s.presync c short same long).2 = true → ∃ u v, Finishes (.bridgeReceived c short same long) s u ∧
        v = viewFor (s.framer c).pJ short same long ∧
        u = ((((((s.presync c short same long).1.wrP (tfAlign c) alSync).modFramer c (fun f =>
          { f with noWrap := true, miss := 0 })).srqReset c).rejoin c).syncBridge c (Br.ltn v.bytes) v true false).defectsChanged c
            (s.defWords c)) ∧
    (∀ c : Fin 64, s.octRuns (octOf c) = false ∨ s.rxPowered c = false ∨
      (s.rdP (tfAlign c) ≠ alPresync ∧ s.rdP (tfAlign c) ≠ alSync) → Finishes (.bridgeReceived c short same long) s s) ∧
    (∀ c : Fin 64, s.role c ≠ roleTerm → Finishes (.bridgeReceived c short same long) s s) ∧
    (∀ i : Fin 8, s.paired = true → s.rxPowered (64 + i) = true → s.rdP (tfAlign (64 + i)) = alSync →
      (s.framer (64 + i)).j ≠ jUndecided → Finishes (.surokBridgeReceived i short same long) s
        (s.surokSync i (((s.framer (64 + i)).pLtn + 1) % 2 ^ 32) (viewFor (s.framer (64 + i)).j short same long)
          (viewFaw (viewFor (s.framer (64 + i)).j short same long)))) ∧
    (∀ i : Fin 8, s.paired = true → s.rxPowered (64 + i) = true → s.rdP (tfAlign (64 + i)) = alSync →
      (s.framer (64 + i)).j = jUndecided → Finishes (.surokBridgeReceived i short same long) s
        (s.surokSync i (((s.framer (64 + i)).pLtn + 1) % 2 ^ 32) (s.boundary (64 + i) short same long).1
          (s.boundary (64 + i) short same long).2.1)) ∧
    (∀ i : Fin 8, s.paired = true → s.rxPowered (64 + i) = true → s.rdP (tfAlign (64 + i)) = alPresync →
      ((s.presync (64 + i) short same long).2 = false →
        Finishes (.surokBridgeReceived i short same long) s (s.presync (64 + i) short same long).1) ∧
      ((s.presync (64 + i) short same long).2 = true → ∃ v, v = viewFor (s.framer (64 + i)).pJ short same long ∧
        Finishes (.surokBridgeReceived i short same long) s
          ((((s.presync (64 + i) short same long).1.wrP (tfAlign (64 + i)) alSync).modFramer (64 + i)
            (fun f => { f with miss := 0 })).surokSync i (Br.ltn v.bytes) v true))) ∧
    (∀ i : Fin 8, s.rxPowered (64 + i) = false ∨ (s.rdP (tfAlign (64 + i)) ≠ alPresync ∧ s.rdP (tfAlign (64 + i)) ≠ alSync) →
      Finishes (.surokBridgeReceived i short same long) s s) ∧
    (∀ i : Fin 8, s.paired = false → Finishes (.surokBridgeReceived i short same long) s s))

/-- The bridge-message queues: TX_POST puts the 64 bytes of CH_BM_TXBUF behind at most 15 others, or is ignored and counted;
RX_POP and the stamp queue's POP take the oldest out, one channel selected, its octant serving; a read of CH_TUNE_MEAS1 shows and
removes the head of the measurement queue (R77, R113, R255). -/
def Obligations.MessageQueues : Prop :=
  (∀ (s : State) (req : Fin 19), s.Takes req → ∃ cs, cs = (s.chSel req).filter (fun c => s.octServes (octOf c)) ∧
    Finishes (.txPost req) s (cs.foldl State.txPost s) ∧ Finishes (.rxPop req) s (cs.foldl State.rxPop s) ∧
    Finishes (.pop req) s (cs.foldl State.stqPop s)) ∧
  (∀ (s : State) (req : Fin 19) (c : Nat), s.Takes req → s.rd F.CHSEL_BCAST req ∉ [1, 2] → s.rd F.CHSEL_CH req = c →
    s.octServes (octOf c) = true →
    ((s.framer c).bmTx.length < 16 → ∃ u m, Finishes (.txPost req) s u ∧ u.framer c = { s.framer c with bmTx := (s.framer c).bmTx ++ [m] } ∧
      m.length = 64 ∧ { u with framers := s.framers } = s) ∧
    (16 ≤ (s.framer c).bmTx.length → Finishes (.txPost req) s (s.inc F.CH_BM_CTL_TX_FULL c)) ∧
    (∃ u, Finishes (.rxPop req) s u ∧ u.framer c = { s.framer c with bmRx := (s.framer c).bmRx.drop 1 } ∧
      { u with framers := s.framers } = s) ∧
    (∃ u, Finishes (.pop req) s u ∧ u.stqOf c = (s.stqOf c).drop 1 ∧ { u with pegs := s.pegs } = s)) ∧
  (∀ (s : State) (req : Fin 19) (c : Nat), s.Runs → s.rd F.CHSEL_CH req = c → s.octServes (octOf c) = false →
    Finishes (.measPop req) s (s.answer req (toBytes (bytesLE 4 (s.reg c F.CH_TUNE_MEAS1.off).toNat)))) ∧
  (∀ (s : State) (req : Fin 19) (c : Nat), s.Runs → s.rd F.CHSEL_CH req = c → s.octServes (octOf c) = true →
    ∃ u, Finishes (.measPop req) s u ∧ (u.tree c).meas = (s.tree c).meas.drop 1 ∧
      tget (fun _ => []) u.rdata req = toBytes (bytesLE 4 (s.reg c F.CH_TUNE_MEAS1.off).toNat) ∧
      u.reg c F.CH_TUNE_MEAS0.off = (((s.tree c).meas.drop 1).headD (0, 0)).1 ∧
      u.rd F.CH_TUNE_MSTAT_LEVEL c = ((s.tree c).meas.length - 1) % 2 ^ F.CH_TUNE_MSTAT_LEVEL.width)

/-- A frame on a tree: an invalid control block is counted in CH_TF_BADBLK; a bad link header, a bad length or a
spoilt codeword discards and counts it, an uncorrectable codeword in which it lies among them; a head end discards one from frets
not granted to its terminal, or of one not in H-OPERATE; a terminal passes over frames for others; the rest go on, unprotected as
they are unless protection is required, protected once opened; and a frame that comes as the blocks that carry it is taken as
itself (R43, R83, R84, R86, R371). -/
def Obligations.TreeFrames : Prop :=
  ∀ (s : State) (c : Fin 64) (f : List Byte) (ltn block : BitVec 32) (ago : Nat), s.Runs →
    (∀ rx m, Finishes (.treeFrameReceived c rx ltn block m) s (treeFrameReceived c rx ltn.toNat block.toNat m.spoilt m.ago s)) ∧
    (∀ rx m, s.takesFrames c = false → Finishes (.treeFrameReceived c rx ltn block m) s s) ∧
    (7 ≤ f.length → exec (.treeFrameReceived c (.blocks ((frameToBlocks f).map
      (fun b => (BitVec.ofNat 2 b.1, BitVec.ofNat 64 b.2)))) ltn block { spoilt := 0, ago }) s =
        exec (.treeFrameReceived c (.cut f) ltn block { spoilt := 0, ago }) s) ∧
    (s.takesFrames c = true →
      Finishes (.treeFrameReceived c (.cut f) ltn block { spoilt := 2, ago }) s (s.inc F.CH_TF_BADBLK c) ∧
      (fieldBE f 6 2 ≠ crc16 (f.take 6) → ∃ u, Finishes (.treeFrameReceived c (.cut f) ltn block { spoilt := 0, ago }) s u ∧
        u.rd F.CH_TF_LHDR_ERR c = min (s.rd F.CH_TF_LHDR_ERR c + 1) (2 ^ 32 - 1) ∧
        u.rd F.CH_TF_FRM_DISC c = min (s.rd F.CH_TF_FRM_DISC c + 1) (2 ^ 32 - 1) ∧ u.cls = s.cls ∧ u.store = s.store) ∧
      (fieldBE f 6 2 = crc16 (f.take 6) → (hdrLen f < 64 ∨ s.rd F.CH_TF_CFG_MAX_LEN c < hdrLen f ∨ f.length ≠ 8 + hdrLen f) →
        Finishes (.treeFrameReceived c (.cut f) ltn block { spoilt := 0, ago }) s (s.inc F.CH_TF_FRM_DISC c)) ∧
      (fieldBE f 6 2 = crc16 (f.take 6) → 64 ≤ hdrLen f → hdrLen f ≤ s.rd F.CH_TF_CFG_MAX_LEN c → f.length = 8 + hdrLen f →
        Finishes (.treeFrameReceived c (.cut f) ltn block { spoilt := 1, ago }) s (s.inc F.CH_TF_FRM_DISC c) ∧
        (s.inBadCodeword c ltn.toNat block.toNat (frameBlocks (hdrLen f)) = true →
          Finishes (.treeFrameReceived c (.cut f) ltn block { spoilt := 0, ago }) s (s.inc F.CH_TF_FRM_DISC c)) ∧
        (s.inBadCodeword c ltn.toNat block.toNat (frameBlocks (hdrLen f)) = false →
          (s.role c = roleHead →
            s.grantedAt c ltn.toNat block.toNat ≠ some (hdrTid f) ∨ s.recState c (hdrTid f) ≠ hOperate →
            Finishes (.treeFrameReceived c (.cut f) ltn block { spoilt := 0, ago }) s (s.inc F.CH_TF_FRM_DISC c)) ∧
          (s.role c = roleTerm → hdrBc f = false → s.on F.CH_TF_CFG_TID_VALID c = false ∨ s.rd F.CH_TF_CFG_TID c ≠ hdrTid f →
            Finishes (.treeFrameReceived c (.cut f) ltn block { spoilt := 0, ago }) s s) ∧
          (∀ t dir, (s.role c = roleHead ∧ s.grantedAt c ltn.toNat block.toNat = some (hdrTid f) ∧ s.recState c (hdrTid f) = hOperate ∧
                t = hdrTid f ∧ dir = 1) ∨
              (s.role c = roleTerm ∧ (hdrBc f = true ∨ (s.on F.CH_TF_CFG_TID_VALID c = true ∧ s.rd F.CH_TF_CFG_TID c = hdrTid f)) ∧
                t = 0 ∧ dir = 0) →
            (hdrProt f = false → hdrBc f = true ∨ s.on (F.CH_PP_REQUIRE t) c = false →
              Finishes (.treeFrameReceived c (.cut f) ltn block { spoilt := 0, ago }) s
                (s.lineFrame c (slice f 8 (hdrLen f)) (hdrTid f) (hdrBc f) false ago)) ∧
            (hdrProt f = false → hdrBc f = false → s.on (F.CH_PP_REQUIRE t) c = true →
              Finishes (.treeFrameReceived c (.cut f) ltn block { spoilt := 0, ago }) s (s.inc F.CH_PP_CLEAR_DROP c)) ∧
            (hdrProt f = true → hdrBc f = true →
              Finishes (.treeFrameReceived c (.cut f) ltn block { spoilt := 0, ago }) s (s.inc F.CH_PP_BCDROP c)) ∧
            (hdrProt f = true → hdrBc f = false → s.payKey c t (hdrKey f) dir = [] →
              Finishes (.treeFrameReceived c (.cut f) ltn block { spoilt := 0, ago }) s (s.inc F.CH_PP_NOKEY c)) ∧
            (hdrProt f = true → hdrBc f = false → s.payKey c t (hdrKey f) dir ≠ [] →
              Finishes (.treeFrameReceived c (.cut f) ltn block { spoilt := 0, ago }) s
                (match Config.gcmOpen (s.payKey c t (hdrKey f) dir) (ppNonce dir (hdrTid f) ltn.toNat block.toNat) (f.take 6)
                    (slice f 8 (hdrLen f)) with
                 | none => s.inc F.CH_PP_AUTH_FAIL c
                 | some p => s.lineFrame c p (hdrTid f) false true ago))))))

/-- A write of CH_TERM_EQD arms a change of at most 3,200,000 (R121); one of H-OPERATE to a record whose terminal has yet to
attest is ignored and shown as REFUSED (R107). One channel selected. -/
def Obligations.TuningWrites : Prop :=
  (∀ (s : State) (req : Fin 19) (w : Word), s.Takes req →
    Finishes (.chTermEqdWrite req w) s (s.ordered req F.CH_TERM_EQD.off (s.chSel req) (fun u =>
      ((s.chSel req).foldl (fun s c => s.armEqd c w) u).foldWrites req F.CH_TERM_EQD.off (s.chSel req))) ∧
    ∀ t : Fin 32, Finishes (.chTrecStateWrite req t w) s (s.ordered req (F.CH_TREC_STATE_STATE t).off (s.chSel req) (fun u =>
      ((s.chSel req).foldl (fun s c => s.trecWrite c t w 0xFFFFFFFF) u).foldWrites req (F.CH_TREC_STATE_STATE t).off
        (s.chSel req)))) ∧
  ∀ (s : State) (req : Fin 19) (c : Nat) (w : Word), s.Takes req → s.Alone req → s.rd F.CHSEL_BCAST req ∉ [1, 2] →
    s.rd F.CHSEL_CH req = c →
    (∃ u, Finishes (.chTermEqdWrite req w) s u ∧ u.rd F.CH_TERM_EQD_EQD c = min 3200000 (getF w F.CH_TERM_EQD_EQD) ∧
      u.rd F.CH_TERM_EQD_PEND c = 1 ∧ (u.tree c).armed = true) ∧
    (∀ t : Fin 32, ∃ u, Finishes (.chTrecStateWrite req t w) s u ∧
      (getF w (F.CH_TREC_STATE_STATE t) = hOperate → s.on F.CH_TREE_CFG_ATTEST_REQ c = true →
        s.on (F.CH_TREC_STATE_ATTEST_OK t) c = false →
          u.rd (F.CH_TREC_STATE_STATE t) c = s.rd (F.CH_TREC_STATE_STATE t) c ∧ u.rd (F.CH_TREC_STATE_REFUSED t) c = 1) ∧
      (getF w (F.CH_TREC_STATE_STATE t) = hOperate → s.on F.CH_TREE_CFG_ATTEST_REQ c = false →
          u.rd (F.CH_TREC_STATE_STATE t) c = hOperate ∧ u.rd (F.CH_TREC_STATE_REFUSED t) c = 0))

/-- A terminal's upstream line tick begins with its equalization delay in effect; a burst planned leaves or is missed; panic is
shown where the next burst launches within PANIC_US or is on its way and is not staged; a head end takes a burst in only in a
window that its map granted (R101, R138, R144, R152). -/
def Obligations.UpstreamSide : Prop :=
  (∀ (s : State) (c : Fin 64), s.Runs →
    (s.role c ≠ roleTerm ∨ s.octRuns (octOf c) = false ∨ (s.tree c).todo = 0 → Finishes (.upstreamTickBegin c) s s) ∧
    (∀ r, (s.tree c).plans = [] → Finishes (.burstLaunch c r) s s) ∧
    (∀ a, s.role c = roleTerm → s.octRuns (octOf c) = true → (s.tree c).todo ≠ 0 →
      (s.tree c).arr[(s.tree c).todo - 1]? = some a → ∃ t, t = ((s.modTree c (fun t => { t with todo := t.todo - 1, up := some a.ltn })).wr
        F.CH_TERM_EQD_NOW c a.eqd) ∧
      (a.took = false → Finishes (.upstreamTickBegin c) s (t.planNext c a)) ∧
      (a.took = true → Finishes (.upstreamTickBegin c) s
        ((((t.wrB F.CH_TERM_EQD_LATE c a.late).wrB F.CH_TERM_EQD_PEND c (t.tree c).armed).copyTerm c).planNext c a))) ∧
    (s.role c = roleTerm → s.octRuns (octOf c) = true → (s.tree c).arr[(s.tree c).todo - 1]? = none →
      ∃ u, Finishes (.upstreamTickBegin c) s u ∧ (u.tree c).todo = 0 ∧ { u with trees := s.trees } = s) ∧
    (∀ r p ps, (s.tree c).plans = p :: ps → p.run ≠ none → Finishes (.burstLaunch c r) s (burstLaunch c r s)) ∧
    (∀ r p ps, (s.tree c).plans = p :: ps → p.run = none →
      s.role c ≠ roleTerm ∨ (s.tree c).up = none ∨ (∃ up, (s.tree c).up = some up ∧ ltnLe p.u up = false) →
      Finishes (.burstLaunch c r) s s) ∧
    (∀ r p ps up, s.role c = roleTerm → (s.tree c).plans = p :: ps → p.run = none → (s.tree c).up = some up →
      ltnLe p.u up = true → s.pairActive c = false →
      Finishes (.burstLaunch c r) s ((s.modTree c (fun t => { t with plans := ps })).panicSettle c)) ∧
    (∀ r p ps up, s.role c = roleTerm → (s.tree c).plans = p :: ps → p.run = none → (s.tree c).up = some up →
      ltnLe p.u up = true → s.pairActive c = true →
      (s.modTree c (fun t => { t with plans := ps })).arrOf c p.u = none →
      Finishes (.burstLaunch c r) s (((s.modTree c (fun t => { t with plans := ps })).missBurst c p).panicSettle c)) ∧
    (∀ r p ps up a, s.role c = roleTerm → (s.tree c).plans = p :: ps → p.run = none → (s.tree c).up = some up →
      ltnLe p.u up = true → s.pairActive c = true →
      (s.modTree c (fun t => { t with plans := ps })).arrOf c p.u = some a →
      Finishes (.burstLaunch c r) s
        ((if (s.modTree c (fun t => { t with plans := ps })).maySend c p.ent a
         then (s.modTree c (fun t => { t with plans := ps })).sendBurst c p a r
         else (s.modTree c (fun t => { t with plans := ps })).missBurst c p).panicSettle c)) ∧
    (s.panicHolds c = true → Finishes (.panicAssert c) s (s.wr F.CH_BOW_STAT_PANIC c 1) ∧ Finishes (.panicDeassert c) s s) ∧
    (s.panicHolds c = false → Finishes (.panicAssert c) s s ∧
      (s.on F.CH_BOW_STAT_PANIC c = true → Finishes (.panicDeassert c) s (s.wr F.CH_BOW_STAT_PANIC c 0)) ∧
      (s.on F.CH_BOW_STAT_PANIC c = false → Finishes (.panicDeassert c) s s)) ∧
    (∀ p ps, s.role c = roleTerm → (s.tree c).plans = p :: ps → s.unstaged c ≠ [] →
      (p.run ≠ none ∨ ∃ t, s.launchOf c p = some t ∧ t ≤ s.now16 + 16000 * s.rd F.CH_BOW_CFG_PANIC_US c) → s.panicHolds c = true)) ∧
  (∀ (s : State) (c : Fin 64) (b : BurstRx), s.Runs →
    (s.takesBursts c = false → Finishes (.burstReceived c b) s s) ∧
    (s.takesBursts c = true → (s.mapOf c b.u.toNat).all (fun e => e.start != b.start.toNat) = true →
      Finishes (.burstReceived c b) s s) ∧
    (∀ e, s.takesBursts c = true → (s.mapOf c b.u.toNat).find? (fun e => e.start == b.start.toNat) = some e →
      Finishes (.burstReceived c b) s ((s.receiveBurst c b e).endBurst c)))

/-! ### Classification (06_parse_classify) -/

/-- The frame at the front of an awake pipe makes its pass; where a frame of another flow is in front, one behind it may (R223); a
held frame takes its action unless one of its flow that arrived before it is held; stale frames are dropped; an empty pipe or hold
list does nothing; an epoch that was current and has no frame left is shown in CLS_EPOCH_STAT once, with an entry (R14, R156, R170
to R172, R176). -/
def Obligations.ParseStages : Prop :=
  (∀ (s : State) (p : Fin 17), s.Runs →
    (∀ n, s.pipe p = [] → Finishes (.parsePass { pipe := p, nth := n }) s s) ∧
    (∀ f rest n, s.pipe p = f :: rest → 8 ≤ p.val ∨ (n = 0 ∧ s.asleep p = false) →
      Finishes (.parsePass { pipe := p, nth := n }) s ((s.setPipe p rest).pass f)) ∧
    (∀ (n : Fin 3) f, (s.pipe p)[n.val]? = some f → p.val < 8 → s.asleep p = false → (∀ x ∈ (s.pipe p).take n, x.flow ≠ f.flow) →
      Finishes (.parsePass { pipe := p, nth := n }) s ((s.setPipe p ((s.pipe p).take n ++ (s.pipe p).drop (n + 1))).pass f)) ∧
    (∀ (n : Fin 3), (s.pipe p)[n.val]? = none → p.val < 8 → Finishes (.parsePass { pipe := p, nth := n }) s s) ∧
    (∀ (n : Fin 3) f, (s.pipe p)[n.val]? = some f → p.val < 8 → (∃ x ∈ (s.pipe p).take n, x.flow = f.flow) ∨ s.asleep p = true →
      Finishes (.parsePass { pipe := p, nth := n }) s s) ∧
    (∀ n, (s.holdOf p).length ≤ n → Finishes (.patternRelease p n) s s) ∧
    (∀ n h, (s.holdOf p)[n]? = some h →
      (∃ x ∈ s.holdOf p, x.f.flow = h.f.flow ∧ h.f.flow ≠ unordered ∧ x.f.place < h.f.place) → Finishes (.patternRelease p n) s s) ∧
    (∀ n h, (s.holdOf p)[n]? = some h →
      (h.f.flow = unordered ∨ ∀ x ∈ s.holdOf p, x.f.flow = h.f.flow → h.f.place ≤ x.f.place) →
      Finishes (.patternRelease p n) s
        ((s.setHold p ((s.holdOf p).take n ++ (s.holdOf p).drop (n + 1))).takeAction { h.f with flow := unordered } h.w h.act)) ∧
    Finishes (.clsStale p) s (clsStale p s) ∧
    (s.pipe p = [] → s.recqOf (recqKey p) = [] → s.waiting = [] → s.holdOf p = [] →
      (clsStale p s).eff = s.eff ∧ (clsStale p s).store = s.store ∧ (clsStale p s).flt = s.flt)) ∧
  (∀ (s : State) (e : Fin 4), s.Runs →
    (bit s.cls.former e = true → s.rd F.CLS_EPOCH_NOW 0 ≠ e → s.inEpoch e = 0 → ∃ u, Finishes (.epochRetired e) s u ∧
      bit (u.rd F.CLS_EPOCH_STAT 0) e = true ∧ bit u.cls.former e = false ∧ u.flt.cycle.length = s.flt.cycle.length + 1) ∧
    (s.rd F.CLS_EPOCH_NOW 0 = e ∨ s.inEpoch e ≠ 0 ∨ bit s.cls.former e = false → Finishes (.epochRetired e) s s))

/-- The slow-path buckets gain RATE for 0.5 µs up to their cap, and the recirculation feeds as many frames as its bucket holds
(R182, R185). -/
def Obligations.ClassifierRefills : Prop :=
  ∀ (s : State), s.Runs →
    (∃ u, Finishes .slowPathRefill s u ∧ { u with cls := { u.cls with sp := s.cls.sp } } = s ∧
      ∀ n < 64, tget (fun _ => 0) u.cls.sp n =
        min (s.spCap n) (tget (fun _ => 0) s.cls.sp n + s.rd (F.CLS_SP_CFG_RATE n) 0 * 65536 / 2000)) ∧
    (∀ p : Fin 9, ∃ u n, Finishes (.recirculationRefill p) s u ∧ u.recqOf p = (s.recqOf p).drop n ∧
      n = min (s.recqOf p).length (min 64000 ((tget (fun _ => Bucket.empty) s.cls.recTok p).level +
        (s.pegs.cyc - (tget (fun _ => Bucket.empty) s.cls.recTok p).cyc) * s.recircLimit p) / 2000) ∧
      (tget (fun _ => Bucket.empty) u.cls.recTok p).cyc = s.pegs.cyc ∧ u.eff = s.eff ∧ u.store = s.store)

/-- A table word goes into the aperture unless the rule master refuses it; GO of an exact operation is ignored while the
requester's BUSY is 1, refused under R344, else queued with the requester's key registers, and BUSY set (R164, R173, R344). -/
def Obligations.ClassifierWrites : Prop :=
  (∀ (s : State) (req : Fin 19) (ofs : BitVec 26) (d : List (Option Byte)), s.Takes req →
    Finishes (.tableWordWrite req ofs d) s (tableWrite req ofs.toNat d s)) ∧
  (∀ (s : State) (req : Fin 19) (ofs : BitVec 26) (d : List (Option Byte)), s.Takes req → ofs.toNat % 4 = 0 → d.length = 4 →
    Finishes (.tableWordWrite req ofs d) s (s.writeWord req ofs.toNat d) ∧
    (s.ruleRefused req = true → Finishes (.tableWordWrite req ofs d) s (s.inc F.TWN_RULE_REFUSED 0))) ∧
  (∀ (s : State) (req : Fin 19) (c : Instr) (op : Nat), s.Takes req →
    (c, op) ∈ [(Instr.insert req, 0), (Instr.delete req, 1), (Instr.search req, 2), (Instr.update req, 3)] →
    (s.on F.CLS_EM_CTL_BUSY req = true → Finishes c s s) ∧
    (s.on F.CLS_EM_CTL_BUSY req = false → s.ruleRefused req = true → Finishes c s (s.inc F.TWN_RULE_REFUSED 0)) ∧
    (s.on F.CLS_EM_CTL_BUSY req = false → s.ruleRefused req = false → ∃ u x, Finishes c s u ∧
      u.cls = { s.cls with emOps := s.cls.emOps ++ [x] } ∧ x.req = req.val ∧ x.op = op ∧ x.key.length = 64 ∧
      u.rd F.CLS_EM_CTL_BUSY req = 1 ∧ u.rd F.CLS_EM_CTL_OP req = op ∧ OnlyRegs [rkey req F.CLS_EM_CTL.off] { s with cls := u.cls } u))

/-- The exact operation served ends: the table and STATUS are what the operation makes of them, BUSY is 0, and it waits no more;
one whose requester's copy has been reset since shows its result nowhere (R164, R426). -/
def Obligations.ExactDone : Prop :=
  ∀ (s : State) (noPlace : Bool), s.Runs →
    (s.cls.emOps = [] → Finishes (.emOperationDone noPlace) s s) ∧
    (∀ o, s.emNext = some o → o.req < 19 → ∃ u, Finishes (.emOperationDone noPlace) s u ∧ u.cls.em = (emApply s.cls.em o noPlace).1 ∧
      u.rd F.CLS_EM_CTL_BUSY o.req = 0 ∧ u.rd F.CLS_EM_CTL_STATUS o.req = (emApply s.cls.em o noPlace).2.1 % 2 ^ F.CLS_EM_CTL_STATUS.width ∧
      u.cls.emOps = s.cls.emOps.erase o ∧ u.cls.emLast = o.req) ∧
    (∀ o, s.emNext = some o → unheard ≤ o.req → ∃ u, Finishes (.emOperationDone noPlace) s u ∧ u.cls.em = (emApply s.cls.em o noPlace).1 ∧
      u.cls.emOps = s.cls.emOps.erase o ∧ ∀ r, u.reg r F.CLS_EM_CTL.off = s.reg r F.CLS_EM_CTL.off)

/-! ### Store and order (07_store_order), queues, shapers and gates (08_egress) -/

/-- The release loop of one context, a restage read of a queue that the agent serves and no other, and the deep-path budget, which
never passes its cap; frame-store cells are taken from the free list of their slice alone, and each links to the next; a deep cell
holds descriptor, RUN_NEXT, frame bytes and NEXT in their places; a refill brings every awake shaper's level up by its INC and by
what was charged too much, to at most its cap (R186, R188, R192, R194, R196, R205, R215, R217). -/
def Obligations.StoreAndShapers : Prop :=
  (∀ (s : State), s.Runs →
    (∀ chord group, Finishes (.reorderReleaseLoop chord group) s (s.runLoop chord group)) ∧
    (∀ q : Fin 4248, s.restages q = false ∨ 1024 * s.rd F.OCT_STORE_RES_RESTAGE_KIB (restageOct q) ≤ aheadBytes (s.queue q) →
      Finishes (.restageRead q) s s) ∧
    (∀ q : Fin 4248, s.restages q = true → aheadBytes (s.queue q) < 1024 * s.rd F.OCT_STORE_RES_RESTAGE_KIB (restageOct q) →
      Finishes (.restageRead q) s (s.restageRun q (aheadBytes (s.queue q)) (1024 * s.rd F.OCT_STORE_RES_RESTAGE_KIB (restageOct q))
        (firstRun (s.queue q)))) ∧
    (∃ u, Finishes .deepBudgetRefill s u ∧ { u with store := { u.store with tokens := s.store.tokens } } = s ∧
      u.store.tokens = min s.budgetCap (s.store.tokens + min 10240 (s.rd F.MEM_DEEP_BUDGET 0) * 125 * s.memActive))) ∧
  (∀ (s : State), s.Runs → ∃ u, Finishes .shaperRefill s u ∧ u.eff = s.eff ∧ u.store = s.store ∧
    ∀ k ∈ s.shpKeys, s.asleep (octOf (shpChannel k)) = false →
      u.shpLevel k = min (s.shpCap k) (s.shpLevel k + (s.shpInc k : Int) + s.shpRet k) ∧ u.shpLevel k ≤ s.shpCap k ∧ u.shpRet k = 0) ∧
  (∀ (s : State) (o fuel n i : Nat), i < 98304 → (s.fsFrom o fuel n i).length ≤ n ∧
    ∀ x ∈ s.fsFrom o fuel n i, x / 98304 = o ∧ s.fsCellUsed x = false ∧ s.fsCellRetired x = false) ∧
  (∀ (l : List Nat) (i x : Nat), l[i]? = some x → (linkWords l)[i]? = some (x, (l[i + 1]?).getD (2 ^ 31))) ∧
  (∀ (x : QFrame) (bytes loc : Nat) (d : DeepFr) (f : List Byte) (i next : Nat),
    (x.descriptor bytes loc).length = 32 ∧
    (d.desc.length = 32 → d.runNext < 2 ^ 32 → (d.cellBytes f 0).take 32 = d.desc ∧ fieldLE (d.cellBytes f 0) 32 4 = d.runNext ∧
      ((d.cellBytes f 0).drop 64).take (f.take 184).length = f.take 184) ∧
    (0 < i → 184 + 248 * i ≤ f.length → d.cells[i + 1]? = some next → next < 2 ^ 32 →
      fieldLE (d.cellBytes f i) 248 4 = next ∧ (d.cellBytes f i).length = 256))

/-- The scheduler serves a HEAD or CLIENT channel that can send, behind the head frames that exceed every span of their gates, and the
Surok link of a paired engine; a channel in another role it leaves as it is; a launch instant changes nothing by itself (R209, R210,
R234, R236; log entry 71). -/
def Obligations.Scheduling : Prop :=
  ∀ (s : State) (rd : FsRead), s.Runs →
    (∀ q, Finishes (.timedLaunchDue q) s s) ∧
    (∀ p : Fin 65, p.val < 64 → s.role p ≠ roleHead → s.role p ≠ roleClient → Finishes (.schedSelect p rd) s s) ∧
    (s.paired = false → Finishes (.schedSelect 64 rd) s s) ∧
    (s.paired = true → Finishes (.schedSelect 64 rd) s (s.surokSelect rd)) ∧
    (∀ p : Fin 65, p.val < 64 → s.role p = roleHead ∨ s.role p = roleClient → ∃ t, t = (List.range 64).foldl (fun t k =>
        t.dropOversize (64 * p + k) (t.qCount (64 * p + k))) s ∧
      Finishes (.schedSelect p rd) s
        (if t.canSend p then (if t.role p = roleHead then t.headSelect p rd else t.clientSelect p rd) else t)) ∧
    (∀ p : Fin 65, p.val < 64 → s.role p = roleHead ∨ s.role p = roleClient →
      (∀ k < 64, s.dropOversize (64 * p + k) (s.qCount (64 * p + k)) = s) →
      (s.canSend p = false → Finishes (.schedSelect p rd) s s) ∧
      (s.canSend p = true → s.role p = roleHead → Finishes (.schedSelect p rd) s (s.headSelect p rd)) ∧
      (s.canSend p = true → s.role p = roleClient → Finishes (.schedSelect p rd) s (s.clientSelect p rd)))

/-- The gates: CH_GATE_STAT shows the state of the position reached; at its start the pending list replaces the one in operation,
and not before (R228, R231). -/
def Obligations.Gates : Prop :=
  ∀ (s : State) (c : Fin 64), s.Runs →
    (∃ u, Finishes (.gateEntryChange c) s u ∧ OnlyRegs [rkey c F.CH_GATE_STAT_STATE.off] s u ∧
      u.rd F.CH_GATE_STAT_STATE c = s.gateState c (s.bound100 c) % 256 ∧
      u.on F.CH_GATE_STAT_PEND c = (s.gate c).pend.isSome) ∧
    ((s.gate c).pend = none → Finishes (.gateListStart c) s s) ∧
    (∀ p, (s.gate c).pend = some p → s.bound100 c < 100 * p.start → Finishes (.gateListStart c) s s) ∧
    (∀ p, (s.gate c).pend = some p → 100 * p.start ≤ s.bound100 c → ∃ u, Finishes (.gateListStart c) s u ∧
      (u.gate c).oper = some p ∧ (u.gate c).pend = none ∧ u.on F.CH_GATE_STAT_PEND c = false ∧ u.on F.CH_GATE_STAT_OPER c = true)

/-! ### Pegs (09_pegs) -/

/-- CAPTURE takes the selected peg and peg 0 in one cycle into the requester's own registers, and changes no other (R241). -/
def Obligations.PegCapture : Prop :=
  ∀ (s : State) (req : Fin 19), s.Takes req → ∃ u, Finishes (.capture req) s u ∧
    u.rd F.PEG_CAP_NS req = pegNs (s.pegTime (s.rd F.PEGSEL req)) ∧ u.rd F.PEG_CAP0_NS req = pegNs (s.pegTime 0) ∧
    u.rd F.PEG_CAP_SL req = pegSec (s.pegTime (s.rd F.PEGSEL req)) % 2 ^ 32 ∧ u.rd F.PEG_CAP0_SL req = pegSec (s.pegTime 0) % 2 ^ 32 ∧
    u.pegs = s.pegs ∧ OnlyRegs ((List.range 8).map (fun k => rkey req (0x30104 + 4 * k))) s u

/-- SET and STEP wait for the boundary, a second request before it replacing the first and counted; a firmware sample reaches the
servo whose source is firmware; a step pending moves its peg's time by its size, counts, and moves no other peg (R240, R244). -/
def Obligations.PegRequests : Prop :=
  (∀ (s : State) (req : Fin 19), s.Takes req →
    (∃ u, Finishes (.set req) s u ∧ (u.servoOf (s.rd F.PEGSEL req)).req = some (.set (s.pegSetTime req)) ∧ u.pegs.time = s.pegs.time) ∧
    (∃ u, Finishes (.step req) s u ∧ (u.servoOf (s.rd F.PEGSEL req)).req = some (.step (s.pegSetStep req)) ∧ u.pegs.time = s.pegs.time ∧
      u.rd F.PEG_SRV_STEPS (s.rd F.PEGSEL req) = if (s.servoOf (s.rd F.PEGSEL req)).req.isSome
        then min (s.rd F.PEG_SRV_STEPS (s.rd F.PEGSEL req) + 1) (2 ^ F.PEG_SRV_STEPS.width - 1) else s.rd F.PEG_SRV_STEPS (s.rd F.PEGSEL req)) ∧
    (∀ w, s.Alone req → ∃ u, Finishes (.pegSrvFwofsHiWrite req w) s u ∧ u.reg (s.rd F.PEGSEL req) F.PEG_SRV_FWOFS_HI.off = w ∧
      (s.source (s.rd F.PEGSEL req) = srcFw → (u.servoOf (s.rd F.PEGSEL req)).sample ≠ none) ∧
      (s.source (s.rd F.PEGSEL req) ≠ srcFw → u.pegs = s.pegs))) ∧
  (∀ (s : State) (p : Nat) (d : Int), s.stepSize p = some d →
    (s.applyStep p).pegTime p = (((s.pegTime p : Int) + d) % (pegWrap : Int)).toNat ∧
    ((s.applyStep p).servoOf p).req = none ∧ (∀ q, q ≠ p → (s.applyStep p).pegTime q = s.pegTime q) ∧
    (s.applyStep p).rd F.PEG_SRV_STEPS p = min (s.rd F.PEG_SRV_STEPS p + 1) (2 ^ F.PEG_SRV_STEPS.width - 1))

/-- A servo in ACQUIRE or LOCKED without a sample for TIMEOUT core ticks goes to HOLDOVER and holds −integ as its rate; a
temperature read stands for the octant's stamps until the next (R246, R248). -/
def Obligations.HoldoverAndTemperature : Prop :=
  ∀ (s : State), s.Runs →
    (∀ p : Fin 16, s.source p ≠ 0 → s.rd F.PEG_SRV_STAT_STATE p = svAcquire ∨ s.rd F.PEG_SRV_STAT_STATE p = svLocked →
      s.rd F.PEG_SRV_TMO p ≤ (s.servoOf p).age → ∃ u, Finishes (.holdoverTimeout p) s u ∧ u.rd F.PEG_SRV_STAT_STATE p = svHoldover ∧
        (u.servoOf p).next = some (ratOfPpb (-(s.servoOf p).integ)) ∧ u.pegs.time = s.pegs.time) ∧
    (∀ p : Fin 16, s.source p = 0 ∨ (s.rd F.PEG_SRV_STAT_STATE p ≠ svAcquire ∧ s.rd F.PEG_SRV_STAT_STATE p ≠ svLocked) ∨
      (s.servoOf p).age < s.rd F.PEG_SRV_TMO p → Finishes (.holdoverTimeout p) s s) ∧
    (∀ (o : Fin 8) t, ∃ u, Finishes (.stampTempRead o t) s u ∧ tget (fun _ => 85) u.pegs.temp o = t ∧ u.eff = s.eff ∧
      ∀ j, j ≠ o.val → tget (fun _ => 85) u.pegs.temp j = tget (fun _ => 85) s.pegs.temp j)

/-- The 1PPS inputs and outputs: an edge that acts on an enabled input is kept, one that follows within 0.9 s is counted as extra; an
input without an edge for 2 s is lost, shown once; an output asserts where its peg shows a whole second LAT ahead, unless squelched,
and its pulse ends after its width (R257, R258). -/
def Obligations.PulsePerSecond : Prop :=
  ∀ (s : State) (i : Fin 2), s.Runs →
    (∀ back, s.edgeWaits (16 + i) = false → Finishes (.ppsEdge i back) s s) ∧
    (∀ back, s.edgeWaits (16 + i) = true → s.on (F.PEG_PPSIN_CFG_EN i) 0 = false →
      Finishes (.ppsEdge i back) s (s.edgeTaken (16 + i))) ∧
    (∀ back, s.edgeWaits (16 + i) = true → s.on (F.PEG_PPSIN_CFG_EN i) 0 = true → ∃ u, Finishes (.ppsEdge i back) s u ∧
      u.rd (F.PEG_PPSIN_STAT i) 0 = 0 ∧ (u.ppsIn i).last = s.pegs.cyc ∧ (u.inputOf (16 + i)).acts + 1 = (s.inputOf (16 + i)).acts ∧
      ((s.ppsIn i).given = none → (u.ppsIn i).given = some s.pegs.cyc ∧
        u.rd (F.PEG_PPSIN_EXTRA i) 0 = s.rd (F.PEG_PPSIN_EXTRA i) 0) ∧
      (∀ g, (s.ppsIn i).given = some g → s.on (F.PEG_PPSIN_STAT i) 0 = false → s.pegs.cyc - g < cycles900ms →
        u.rd (F.PEG_PPSIN_EXTRA i) 0 = min (s.rd (F.PEG_PPSIN_EXTRA i) 0 + 1) (2 ^ 32 - 1) ∧ (u.ppsIn i).given = some g ∧
        u.pegs.servo = s.pegs.servo)) ∧
    (s.on (F.PEG_PPSIN_CFG_EN i) 0 = true → s.on (F.PEG_PPSIN_STAT i) 0 = false → (s.ppsIn i).last + 4 * 10 ^ 9 ≤ s.pegs.cyc →
      ∃ u, Finishes (.ppsLost i) s u ∧ u.rd (F.PEG_PPSIN_STAT i) 0 = 1 ∧ u.flt.cycle.length = s.flt.cycle.length + 1) ∧
    (s.on (F.PEG_PPSIN_CFG_EN i) 0 = false ∨ s.on (F.PEG_PPSIN_STAT i) 0 = true ∨ s.pegs.cyc < (s.ppsIn i).last + 4 * 10 ^ 9 →
      Finishes (.ppsLost i) s s) ∧
    (s.on (F.PEG_PPSOUT_CFG_EN i) 0 = true → s.squelched i = false → s.ppsDue i = true → ∃ u, Finishes (.ppsOutputEdge i) s u ∧
      u.out = .ppsOut i (!s.on (F.PEG_PPSOUT_CFG_POL i) 0) :: s.out ∧ (u.ppsOut i).high = true ∧
      (u.ppsOut i).edge = some s.pegs.cyc ∧ u.eff = s.eff) ∧
    (s.on (F.PEG_PPSOUT_CFG_EN i) 0 = false ∨ s.squelched i = true ∨ s.ppsDue i = false → Finishes (.ppsOutputEdge i) s s) ∧
    ((s.ppsOut i).high = true → s.ppsEnd i ≤ s.pegs.cyc → ∃ u, Finishes (.ppsOutputPulseEnd i) s u ∧
      u.out = .ppsOut i (s.on (F.PEG_PPSOUT_CFG_POL i) 0) :: s.out ∧ (u.ppsOut i).high = false) ∧
    ((s.ppsOut i).high = false ∨ s.pegs.cyc < s.ppsEnd i → Finishes (.ppsOutputPulseEnd i) s s)

/-- The time-of-day message that the engine sends is one that it would take, 16 bytes with a right CRC; it leaves once, OUT_DLY
after its edge. One received with a wrong CRC is only counted; a right one is shown, with the edge 1 ms to 500 ms before it. The
reference is the preferred input while it is qualified, but for a switch back that REVERT does not allow; else the other; else
HOLD; with USE10 an input more than 30 ppm from a 10 MHz input that is there is not qualified (R259, R261). -/
def Obligations.TimeOfDayAndReference : Prop :=
  (∀ (s : State), s.Runs →
    (∀ o sec, todValid (s.todMessage o sec) = true) ∧
    (∀ o, s.todDue = true → s.rd F.PEG_TOD_CFG_PPSOUT 0 = o → Finishes .todOutSend s
      ((s.setPpsOut o { s.ppsOut o with told := true }).emit (.tod s.todBaud (s.todMessage o (s.ppsOut o).sec)))) ∧
    (∀ o e, s.rd F.PEG_TOD_CFG_PPSOUT 0 = o → (s.ppsOut o).edge = some e → s.on F.PEG_TOD_CFG_OUT_EN 0 = true → (s.ppsOut o).told = false →
      (s.todDue = true ↔ e + 2000000 * max 1 (s.rd F.PEG_TOD_CFG_OUT_DLY 0) ≤ s.pegs.cyc)) ∧
    (s.todDue = false → Finishes .todOutSend s s) ∧ (s.on F.PEG_TOD_CFG_OUT_EN 0 = false → Finishes .todOutSend s s) ∧
    (∀ m ago, s.on F.PEG_TOD_CFG_IN_EN 0 = false → Finishes (.todMessageReceived m ago) s s) ∧
    (∀ m ago, s.on F.PEG_TOD_CFG_IN_EN 0 = true → todValid m = false →
      Finishes (.todMessageReceived m ago) s (s.inc F.PEG_TOD_ERR 0)) ∧
    (∀ m ago, s.on F.PEG_TOD_CFG_IN_EN 0 = true → todValid m = true → ∃ u, Finishes (.todMessageReceived m ago) s u ∧
      u.rd F.PEG_TOD_STAT_NEW 0 = 1 ∧ u.rd F.PEG_TOD_ERR 0 = s.rd F.PEG_TOD_ERR 0 ∧
      u.on F.PEG_TOD_STAT_ASSOC 0 = ((s.ppsIn (s.rd F.PEG_TOD_CFG_PPSIN 0)).todEdge (s.pegs.cyc - ago)).isSome ∧
      ∀ k < 4, u.rd (F.PEG_TOD_IN k) 0 = fieldLE m (4 * k) 4)) ∧
  (∀ (s : State) (a b : RefIn) (r10 aOk bOk : Bool), s.Runs →
    aOk = (a.present && (!r10 || !s.on F.PEG_REF_CFG_USE10 0 || decide (a.ppb.natAbs ≤ 30000))) →
    bOk = (b.present && (!r10 || !s.on F.PEG_REF_CFG_USE10 0 || decide (b.ppb.natAbs ≤ 30000))) →
    ∃ u, Finishes (.referenceSwitch a b r10) s u ∧
    u.rd F.PEG_REF_STAT_SEL 0 = refSelect (s.rd F.PEG_REF_CFG_PREFER 0) (s.rd F.PEG_REF_STAT_SEL 0) (s.on F.PEG_REF_CFG_REVERT 0) aOk bOk ∧
    (aOk = false → bOk = false → u.rd F.PEG_REF_STAT_SEL 0 = 2) ∧
    (s.rd F.PEG_REF_CFG_PREFER 0 = 0 → aOk = true → bOk = false → u.rd F.PEG_REF_STAT_SEL 0 = 0) ∧
    (s.rd F.PEG_REF_CFG_PREFER 0 = 1 → aOk = true → bOk = false → u.rd F.PEG_REF_STAT_SEL 0 = 0) ∧
    u.on F.PEG_REF_STAT_A_OK 0 = aOk ∧ u.on F.PEG_REF_STAT_B_OK 0 = bOk ∧ u.on F.PEG_REF_STAT_R10_OK 0 = r10 ∧
    u.pegs = { s.pegs with refs := { a, b, ten := r10 } })

/-! ### Clients and the host (10_client_host) -/

/-- A client's receiver counts and drops a bad, short or long frame, consumes a control frame, takes a good one in, and a pause holds
its transmitter until the quanta have passed (R263 to R266). -/
def Obligations.ClientSide : Prop :=
  ∀ (s : State) (c : Fin 64) (f : List Byte) (back ago : Nat), s.Runs →
    (∀ m, s.clientReceives c = false → Finishes (.clientFrameReceived c f m) s s) ∧
    (∀ q, s.clientReceives c = false → Finishes (.pauseFrameReceived c q) s s) ∧
    (s.clientReceives c = true →
      Finishes (.clientFrameReceived c f { uncorrectable := true, back, ago }) s (s.inc F.CH_MAC_RX_FCS c) ∧
      (s.codewordsBad c ((s.lane c).cws - 1 - back) (back + 1) = true →
        Finishes (.clientFrameReceived c f { uncorrectable := false, back, ago }) s (s.inc F.CH_MAC_RX_FCS c)) ∧
      (fcsOk f = false → Finishes (.clientFrameReceived c f { uncorrectable := false, back, ago }) s (s.inc F.CH_MAC_RX_FCS c)) ∧
      (s.codewordsBad c ((s.lane c).cws - 1 - back) (back + 1) = false → fcsOk f = true →
        (f.length < 64 → Finishes (.clientFrameReceived c f { uncorrectable := false, back, ago }) s (s.inc F.CH_MAC_RX_RUNT c)) ∧
        (64 ≤ f.length → s.maxFrame c < f.length →
          Finishes (.clientFrameReceived c f { uncorrectable := false, back, ago }) s (s.inc F.CH_MAC_RX_LONG c)) ∧
        (64 ≤ f.length → f.length ≤ s.maxFrame c → fieldBE f 12 2 = 0x8808 → ∃ u,
          Finishes (.clientFrameReceived c f { uncorrectable := false, back, ago }) s u ∧ u.cls = s.cls ∧
          (fieldBE f 14 2 = 1 → f.take 6 = pauseDa ∨ f.take 6 = s.macSa c → u = s.pauseReceived c (fieldBE f 16 2)) ∧
          (fieldBE f 14 2 ≠ 1 ∨ (f.take 6 ≠ pauseDa ∧ f.take 6 ≠ s.macSa c) → u = s.inc F.CH_MAC_RX_CTRL c)) ∧
        (64 ≤ f.length → f.length ≤ s.maxFrame c → fieldBE f 12 2 ≠ 0x8808 →
          Finishes (.clientFrameReceived c f { uncorrectable := false, back, ago }) s
            ((s.inc F.CH_MAC_RX_OK c).lineFrame c f 0 false false ago))) ∧
      (∀ q : BitVec 16, s.on F.CH_MAC_CFG_OBEY c = false → Finishes (.pauseFrameReceived c q) s (s.inc F.CH_MAC_RX_PAUSE c)) ∧
      (∀ q : BitVec 16, s.on F.CH_MAC_CFG_OBEY c = true → ∃ u, Finishes (.pauseFrameReceived c q) s u ∧
        u.on F.CH_MAC_STAT_PAUSED c = (q != 0) ∧ u.rd F.CH_MAC_RX_PAUSE c = min (s.rd F.CH_MAC_RX_PAUSE c + 1) (2 ^ 32 - 1) ∧
        u.store = s.store)) ∧
    (s.on F.CH_MAC_STAT_PAUSED c = true → s.pauseHolds c = false →
      ∃ u, Finishes (.pauseTimerExpiry c) s u ∧ u.on F.CH_MAC_STAT_PAUSED c = false ∧ u.store = s.store) ∧
    (s.on F.CH_MAC_STAT_PAUSED c = false ∨ s.pauseHolds c = true → Finishes (.pauseTimerExpiry c) s s)

/-- The host buckets gain their share of 0.5 µs up to 65,536 bytes; a transmit turn needs the host and the bucket; the head frame
of a receive ring's queue is dropped and counted without a host or with the ring empty, left where the ring is disabled, else
delivered (R271, R274, R275, R278, R281). -/
def Obligations.HostTransfers : Prop :=
  (∀ (s : State), s.Runs →
    (∃ u, Finishes .hostCapRefill s u ∧ { u with host := { u.host with rxTok := s.host.rxTok, txTok := s.host.txTok } } = s ∧
      u.host.rxTok = min 131072 (s.host.rxTok + 125 * (max 1 (min 200 (s.rd F.HDMA_CAP 0)) : Nat)) ∧
      u.host.txTok = min 131072 (s.host.txTok + 125 * (max 1 (min 200 (s.rd F.HDMA_CAP 0)) : Nat))) ∧
    (∀ ds, s.hostUp = false ∨ s.host.txTok ≤ 0 ∨ s.nextTx = none → Finishes (.hostTxFetch ds) s s) ∧
    (∀ ds r, s.hostUp = true → 0 < s.host.txTok → s.nextTx = some r →
      Finishes (.hostTxFetch ds) s ({ s with host := { s.host with lastTx := r } }.txTurn r ds))) ∧
  (∀ (s : State) (r : Fin 128) (bufs : List (BitVec 64)) (rd : FsRead), s.Runs →
    (s.deliverable (qRing r) = none → Finishes (.ringDelivery r bufs rd) s s) ∧
    (∀ x, s.deliverable (qRing r) = some x →
      (s.hostUp = false → Finishes (.ringDelivery r bufs rd) s ((s.takeDelivery (qRing r) x).inc F.HDMA_NOHOST 0)) ∧
      (s.hostUp = true → s.on F.HDMA_RING_CFG_EN r = false → Finishes (.ringDelivery r bufs rd) s s) ∧
      (s.hostUp = true → s.on F.HDMA_RING_CFG_EN r = true → s.on F.HDMA_RING_STAT_EMPTY r = true →
        Finishes (.ringDelivery r bufs rd) s ((s.takeDelivery (qRing r) x).inc F.HDMA_RING_EMPTY r)) ∧
      (s.host.rxTok ≤ 0 → s.hostUp = true → s.on F.HDMA_RING_STAT_EMPTY r = false → Finishes (.ringDelivery r bufs rd) s s) ∧
      (s.hostUp = true → s.on F.HDMA_RING_CFG_EN r = true → s.on F.HDMA_RING_STAT_EMPTY r = false → 0 < s.host.rxTok →
        Finishes (.ringDelivery r bufs rd) s (s.ringFrame r x bufs rd))))

/-- The rings' registers: a TAIL below 2^SIZE is taken and one at or above it ignored; an enable starts the ring at 0; an access
error disables it with ERR set, HEAD at the descriptor that failed; its moderation timer signals the vector (R272, R282, R283). -/
def Obligations.RingControl : Prop :=
  ∀ (s : State) (r : Nat), s.Runs → r < 256 →
    (∀ (req : Fin 19) (t : BitVec 16), s.Takes req → s.Alone req → s.rd F.RINGSEL req = r → ∃ u, Finishes (.tailWrite req t) s u ∧
      (t.toNat < s.ringSize r → u.rd F.HDMA_RING_TAIL r = t.toNat) ∧
      (s.ringSize r ≤ t.toNat → u.rd F.HDMA_RING_TAIL r = s.rd F.HDMA_RING_TAIL r)) ∧
    (∀ (req : Fin 19), s.Takes req → s.rd F.RINGSEL req = r → s.on F.HDMA_RING_CFG_EN r = false → ∃ u, Finishes (.ringEnable req) s u ∧
      u.rd F.HDMA_RING_CFG_EN r = 1 ∧ u.rd F.HDMA_RING_HEAD r = 0 ∧ u.rd F.HDMA_RING_TAIL r = 0 ∧ u.rd F.HDMA_RING_STAT_ERR r = 0) ∧
    (∀ (req : Fin 19), s.Takes req → s.rd F.RINGSEL req = r → s.on F.HDMA_RING_CFG_EN r = true →
      Finishes (.ringEnable req) s (s.foldWrites req F.HDMA_RING_CFG.off [r])) ∧
    (∀ i : Fin 256, i.val = r → s.on F.HDMA_RING_CFG_EN r = false → ∀ f, Finishes (.ringAccessError i f) s s) ∧
    (∀ i : Fin 256, i.val = r → s.on F.HDMA_RING_CFG_EN r = true → ∀ f : RingFault, ∃ u, Finishes (.ringAccessError i f) s u ∧
      u.rd F.HDMA_RING_CFG_EN r = 0 ∧ u.rd F.HDMA_RING_STAT_ERR r = 1 ∧
      u.rd F.HDMA_RING_HEAD r = (s.rd F.HDMA_RING_HEAD r + min f.desc.toNat (s.ringAvail r)) % s.ringSize r) ∧
    (∀ i : Fin 256, i.val = r → s.on F.HDMA_RING_IRQ_EN r = false ∨ s.rd F.HDMA_RING_IRQ_TIME_US r = 0 ∨ s.unsig r = 0 ∨
      s.pegs.cyc < tget (fun _ => 0) s.host.unsigAt r + 2000 * s.rd F.HDMA_RING_IRQ_TIME_US r → Finishes (.interruptTimer i) s s) ∧
    (∀ i : Fin 256, i.val = r → s.on F.HDMA_RING_IRQ_EN r = true → s.rd F.HDMA_RING_IRQ_TIME_US r ≠ 0 → s.unsig r ≠ 0 →
      tget (fun _ => 0) s.host.unsigAt r + 2000 * s.rd F.HDMA_RING_IRQ_TIME_US r ≤ s.pegs.cyc →
      Finishes (.interruptTimer i) s (s.signalRing r))

/-- PCI Express: link and bus mastering come and go, also on an engine that is held, with the width and rate trained and the sizes
that the host has set; what comes up ends a reset in progress. A function-level or hot reset gives the HDMA registers and
requester 0's copies their reset values and empties the MSI-X table (R269, R271). -/
def Obligations.PciExpress : Prop :=
  ∀ (s : State),
    (∃ u, Finishes (.pcieLinkDown true) s u ∧ u.host = { s.host with link := false } ∧ { u with host := s.host } = s) ∧
    (∃ u, Finishes (.pcieLinkDown false) s u ∧ u.host = { s.host with bme := false } ∧ { u with host := s.host } = s) ∧
    (∀ w r, ∃ u, Finishes (.pcieLinkUp (.link w r)) s u ∧
      u.host = { s.host with link := true, width := w, rate := r, flr := false, msixPend := u.host.msixPend } ∧
      { u with host := s.host, out := s.out } = s ∧ (s.host.msixPend = [] → u.host.msixPend = [] ∧ u.out = s.out)) ∧
    (∀ p q, ∃ u, Finishes (.pcieLinkUp (.master p q)) s u ∧
      u.host = { s.host with bme := true, payload := p, request := q, flr := false, msixPend := u.host.msixPend } ∧
      { u with host := s.host, out := s.out } = s ∧ (s.host.msixPend = [] → u.host.msixPend = [] ∧ u.out = s.out)) ∧
    (∃ u, Finishes .pcieReset s u ∧ (∀ i off, off < 0x100000 → off / 0x10000 = 0xA → u.reg i off = regReset (rkey i off)) ∧
      u.reg 0 F.CHSEL_CH.off = 0#32 ∧ (∀ e ∈ u.cls.stage, e.1 ≠ 0) ∧ u.host.flr = true ∧ u.host.msixTab = [] ∧ u.host.msixPend = [] ∧
      u.store = s.store ∧ u.pegs = s.pegs)

/-! ### The deep store's memory (11_deep_store) -/

/-- A memory channel: a refresh falls due without panic and goes out, is postponed in panic up to POSTPONE_MAX and counted, else
forced; payback lowers the debt out of panic; a refresh goes before every request, a panic read before every other; a device's
temperature is shown by its four channels, HOT with its hysteresis; a maintenance slot counts up to the eighth, which ends
retraining, and while it lasts the channel makes its steps and nothing else, and a refresh falling due adds to the debt; behind
the panic reads come the per-bank refreshes due, then the other requests (R289, R290, R293 to R296, R298 to R300). -/
def Obligations.MemoryChannels : Prop :=
  ∀ (s : State) (m : Fin 64), s.Runs →
    (s.rd F.MEM_CH_STAT_USE m ≠ useIn → Finishes (.refreshInterval m) s s ∧ Finishes (.refreshPayback m) s s ∧
      ∀ ready, Finishes (.memCommandSlot m ready) s s) ∧
    (s.rd F.MEM_CH_STAT_USE m = useIn → s.inSlot m = true →
      Finishes (.refreshInterval m) s (s.wr F.MEM_CH_STAT_DEBT m (s.rd F.MEM_CH_STAT_DEBT m + 1)) ∧
      ∀ ready, Finishes (.memCommandSlot m ready) s (s.emit (.mem m mcTrain 0 0 0))) ∧
    (s.memPanic = true ∨ s.rd F.MEM_CH_STAT_DEBT m = 0 ∨ s.inSlot m = true → Finishes (.refreshPayback m) s s) ∧
    (s.rd F.MEM_CH_STAT_USE m = useIn → s.inSlot m = false → s.rd F.MEM_CH_STAT_DEBT m + 1 < 16 →
      (s.memPanic = false → ∃ u, Finishes (.refreshInterval m) s u ∧ u.rd F.MEM_CH_STAT_DEBT m = s.rd F.MEM_CH_STAT_DEBT m ∧
        (u.mch m).refPend = (s.mch m).refPend + 1 ∧ OnlyRegs [rkey m F.MEM_CH_STAT.off] { s with mem := u.mem } u) ∧
      (s.memPanic = true → s.rd F.MEM_CH_STAT_DEBT m + 1 ≤ s.postponeMax → Finishes (.refreshInterval m) s
        ((s.wr F.MEM_CH_STAT_DEBT m (s.rd F.MEM_CH_STAT_DEBT m + 1)).inc F.MEM_CH_REF_POSTP m)) ∧
      (s.memPanic = true → s.postponeMax < s.rd F.MEM_CH_STAT_DEBT m + 1 → ∃ u, Finishes (.refreshInterval m) s u ∧
        u.rd F.MEM_CH_STAT_DEBT m = s.rd F.MEM_CH_STAT_DEBT m ∧ (u.mch m).refPend = (s.mch m).refPend + 1 ∧
        u.rd F.MEM_CH_REF_FORCED m = min (s.rd F.MEM_CH_REF_FORCED m + 1) (2 ^ 32 - 1)) ∧
      (s.memPanic = false → s.rd F.MEM_CH_STAT_DEBT m ≠ 0 → ∃ u, Finishes (.refreshPayback m) s u ∧
        u.rd F.MEM_CH_STAT_DEBT m = s.rd F.MEM_CH_STAT_DEBT m - 1 ∧ (u.mch m).refPend = (s.mch m).refPend + 1)) ∧
    (∀ ready, s.rd F.MEM_CH_STAT_USE m = useIn → s.inSlot m = false → (s.mch m).refPend ≠ 0 → ∃ u, Finishes (.memCommandSlot m ready) s u ∧
      u.out = .mem m mcAll 0 0 0 :: s.out ∧ (u.mch m).refPend = (s.mch m).refPend - 1 ∧ (u.mch m).queue = (s.mch m).queue ∧
      u.eff = s.eff) ∧
    (∀ (ready : BitVec 16) x, s.rd F.MEM_CH_STAT_USE m = useIn → s.inSlot m = false → (s.mch m).refPend = 0 →
      x = { s.mch m with drain := s.drains (s.mch m) } →
      (∀ q, (s.mch m).pick ready.toNat (fun r => r.panic && !r.write) = some q ∨
          ((s.mch m).pick ready.toNat (fun r => r.panic && !r.write) = none ∧ s.refreshBanks m ready.toNat = [] ∧
            x.pickNormal ready.toNat = some q) →
        Finishes (.memCommandSlot m ready) s ((s.modMch m (fun x => { x with drain := s.drains x })).issue m q) ∧
        (q.write = true ∨ s.isPoisoned q.cell q.gran = false → ∃ u, Finishes (.memCommandSlot m ready) s u ∧
          (u.mch m).fly = (s.mch m).fly ++ [q] ∧ u.out.length = s.out.length + 1 ∧ u.eff = s.eff)) ∧
      ((s.mch m).pick ready.toNat (fun r => r.panic && !r.write) = none → s.refreshBanks m ready.toNat ≠ [] →
        ∃ u b, Finishes (.memCommandSlot m ready) s u ∧ b ∈ s.refreshBanks m ready.toNat ∧ u.out = .mem m mcBank b 0 0 :: s.out ∧
          (u.mch m).queue = (s.mch m).queue) ∧
      ((s.mch m).pick ready.toNat (fun r => r.panic && !r.write) = none → s.refreshBanks m ready.toNat = [] →
        x.pickNormal ready.toNat = none → ∃ u, Finishes (.memCommandSlot m ready) s u ∧ u.mch m = x ∧ { u with mem := s.mem } = s)) ∧
    (∀ (d : Fin 16) t, ∃ u, Finishes (.memTempRead d t) s u ∧ ∀ i < 4, u.rd F.MEM_CH_TEMP_TEMP (4 * d + i) = t.toNat ∧
      ((s.rd F.MEM_REF_CFG_HOT_ON 0 : Int) < degrees t.toNat → u.rd F.MEM_CH_STAT_HOT (4 * d + i) = 1) ∧
      (degrees t.toNat ≤ min (s.rd F.MEM_REF_CFG_HOT_OFF 0 : Int) ((s.rd F.MEM_REF_CFG_HOT_ON 0 : Int) - 1) →
        u.rd F.MEM_CH_STAT_HOT (4 * d + i) = 0)) ∧
    (s.slotMayStart m = false → ∀ b, Finishes (.retrainSlot m b) s s) ∧
    (s.slotMayStart m = true →
      (s.rd F.MEM_CH_TEMP_SLOTS m + 1 < 8 → ∃ u, Finishes (.retrainSlot m false) s u ∧
        u.rd F.MEM_CH_TEMP_SLOTS m = s.rd F.MEM_CH_TEMP_SLOTS m + 1 ∧ u.rd F.MEM_CH_STAT_RETRAIN m = 1 ∧
        (u.mch m).slotEnd = s.pegs.cyc + slotCycles) ∧
      (8 ≤ s.rd F.MEM_CH_TEMP_SLOTS m + 1 → ∃ u, Finishes (.retrainSlot m false) s u ∧ u.rd F.MEM_CH_TEMP_SLOTS m = 0 ∧
        u.rd F.MEM_CH_STAT_RETRAIN m = 0 ∧ u.rd F.MEM_CH_TEMP_T_TRAIN m = s.rd F.MEM_CH_TEMP_TEMP m) ∧
      ∃ u, Finishes (.retrainSlot m true) s u ∧ u.rd F.MEM_CH_STAT_RETRAIN_FAIL m = 1 ∧ u.rd F.MEM_CH_STAT_RETRAIN m = 0)

/-- Service-core memory, granule by granule: a write stores its bytes in the granule that completes and changes no other byte, in
error none; the last granule of a read answers the bytes held, of an atomic operation the value that stood, or for a
store-conditional whether it stored; an access in error answers nothing. An access that no controller issued does nothing, and one
of another requester leaves that memory as it is; a granule of a copy that cannot be read is written as poisoned (R301 to R303,
R306 to R308). -/
def Obligations.CoreMemory : Prop :=
  (∀ (s : State) (m : Fin 64) (res : DeepRes), s.Runs →
    (∀ a, ∃ u, Finishes (.deepAccessComplete m (.copy a) res) s u ∧ u = (s.accessCounts m res).copyGranule m a.toNat res ∧
      u.tds.coreMem = s.tds.coreMem) ∧
    (∀ n, (s.mch m).fly.length ≤ n → Finishes (.deepAccessComplete m (.issued n) res) s s) ∧
    (∀ n q, (s.mch m).fly[n]? = some q → q.who = whoPort → Finishes (.deepAccessComplete m (.issued n) res) s
      (((s.burstsRun.modMch m (fun x => { x with fly := x.fly.eraseIdx n })).accessCounts m res).requestDone m q res).burstsRun) ∧
    (∀ n q, (s.mch m).fly[n]? = some q → q.who ≠ whoPort → Finishes (.deepAccessComplete m (.issued n) res) s
      (((s.modMch m (fun x => { x with fly := x.fly.eraseIdx n })).accessCounts m res).requestDone m q res)) ∧
    (∀ n q, (s.mch m).fly[n]? = some q → q.who ≠ whoCore → ∃ u, Finishes (.deepAccessComplete m (.issued n) res) s u ∧
      u.tds.coreMem = s.tds.coreMem) ∧
    (∀ n q x g, (s.mch m).fly[n]? = some q → q.who = whoCore → s.accOf q.frame = some x → g = coreByte q.cell q.gran →
      x.todo.contains g = true →
      (∀ d, x.op = .write d → ∃ u, Finishes (.deepAccessComplete m (.issued n) res) s u ∧
        (∀ b, b / 64 * 64 ≠ g ∨ b < x.addr ∨ x.addr + d.length ≤ b →
          tget (fun _ => 0) u.tds.coreMem b = tget (fun _ => 0) s.tds.coreMem b) ∧
        (res.err = none → ∀ k v, d[k]? = some (some v) → (x.addr + k) / 64 * 64 = g →
          tget (fun _ => 0) u.tds.coreMem (x.addr + k) = v) ∧
        (res.err ≠ none → u.tds.coreMem = s.tds.coreMem)) ∧
      (∀ k, x.op = .read k → ∃ u, Finishes (.deepAccessComplete m (.issued n) res) s u ∧ u.tds.coreMem = s.tds.coreMem ∧
        (x.todo = [g] → x.bad = false → res.err = none → tget (fun _ => []) u.rdata (x.core + 1) = s.coreBytes x.addr k) ∧
        (x.bad = true ∨ res.err ≠ none → u.rdata = s.rdata)) ∧
      (∀ op wide d k, x.op = .amo op wide d → k = amoSize wide → x.todo = [g] → x.bad = false → res.err = none →
        ∃ u, Finishes (.deepAccessComplete m (.issued n) res) s u ∧
        (op ≠ .sc → tget (fun _ => []) u.rdata (x.core + 1) = s.coreBytes x.addr k) ∧
        (op = .lr → u.tds.coreMem = s.tds.coreMem ∧ u.resvOf x.core = some (x.addr / 64 * 64)) ∧
        (op = .sc → s.resvOf x.core ≠ some (x.addr / 64 * 64) → u.tds.coreMem = s.tds.coreMem ∧
          tget (fun _ => []) u.rdata (x.core + 1) = toBytes (bytesLE k 1)) ∧
        (op = .sc → s.resvOf x.core = some (x.addr / 64 * 64) → u.coreBytes x.addr k = exactly k d ∧
          tget (fun _ => []) u.rdata (x.core + 1) = toBytes (bytesLE k 0)) ∧
        (op ≠ .lr → op ≠ .sc → u.coreBytes x.addr k =
          toBytes (bytesLE k (amoValue op (8 * k) (coreValue (s.coreBytes x.addr k)) (coreValue (exactly k d)))))))) ∧
  (∀ (s : State) (cell gran a b : Nat), s.poisonRoom cell = true → (s.poison cell gran a b).isPoisoned cell gran = true)

/-- The map-out of a device: each command acts in its own state and in no other; GO_OUT is taken only in IN and GO_IN only in OUT,
else REFUSED is set (R305, R306). -/
def Obligations.MapOut : Prop :=
  ∀ (s : State), s.Runs →
    (∀ (req : Fin 19) (d : Fin 16), s.Takes req →
      (s.rd F.MEM_MAPOUT_STATE 0 = moIn → ∃ u, Finishes (.goOut req d) s u ∧ u.rd F.MEM_MAPOUT_STATE 0 = moDrain ∧
        u.rd F.MEM_MAPOUT_DEV 0 = d ∧ u.rd F.MEM_MAPOUT_REFUSED 0 = 0 ∧ u.mem = { s.mem with mdev := d }) ∧
      (s.rd F.MEM_MAPOUT_STATE 0 ≠ moIn → ∃ u, Finishes (.goOut req d) s u ∧ u.rd F.MEM_MAPOUT_STATE 0 = s.rd F.MEM_MAPOUT_STATE 0 ∧
        u.rd F.MEM_MAPOUT_DEV 0 = s.rd F.MEM_MAPOUT_DEV 0 ∧ u.rd F.MEM_MAPOUT_REFUSED 0 = 1 ∧ u.mem = s.mem)) ∧
    (∀ (req : Fin 19), s.Takes req →
      (s.rd F.MEM_MAPOUT_STATE 0 = moOut → s.mem.mdev < 16 → ∃ u, Finishes (.goIn req) s u ∧ u.rd F.MEM_MAPOUT_STATE 0 = moTrain ∧
        ∀ i < 4, u.rd F.MEM_CH_STAT_USE (4 * s.mem.mdev + i) = useTrain) ∧
      (s.rd F.MEM_MAPOUT_STATE 0 ≠ moOut → ∃ u, Finishes (.goIn req) s u ∧ u.rd F.MEM_MAPOUT_STATE 0 = s.rd F.MEM_MAPOUT_STATE 0 ∧
        u.rd F.MEM_MAPOUT_REFUSED 0 = 1 ∧ u.mem = s.mem)) ∧
    (s.rd F.MEM_MAPOUT_STATE 0 ≠ moDrain → Finishes .evacuationRewrite s s) ∧
    (s.rd F.MEM_MAPOUT_STATE 0 = moDrain →
      (s.mem.deep.all (fun e => !e.2.held.any s.cellClosed) = true → Finishes .evacuationRewrite s s) ∧
      (∀ e, s.mem.deep.find? (fun e => e.2.wr == 0 && !e.2.reading && e.2.evac.isNone && e.2.held.any s.cellClosed) = some e →
        Finishes .evacuationRewrite s (s.evacuate e.1 e.2)) ∧
      (s.mem.deep.find? (fun e => e.2.wr == 0 && !e.2.reading && e.2.evac.isNone && e.2.held.any s.cellClosed) = none →
        Finishes .evacuationRewrite s s)) ∧
    Finishes .drainDone s (if s.rd F.MEM_MAPOUT_STATE 0 = moDrain ∧ s.evacLeft = 0 then s.wr F.MEM_MAPOUT_STATE 0 moCopy else s) ∧
    (s.rd F.MEM_MAPOUT_STATE 0 ≠ moCopy → Finishes .copyDone s s) ∧
    (s.rd F.MEM_MAPOUT_STATE 0 = moCopy → ∃ u, Finishes .copyDone s u ∧ u.rd F.MEM_MAPOUT_STATE 0 = moOut ∧
      u.memBoundary.rd F.MEM_STAT 0 = 60 ∧ u.memBoundary.rd F.MEM_MAPOUT_STATE 0 = moOut ∧
      ∀ i < 4, u.memBoundary.rd F.MEM_CH_STAT_USE (4 * s.mem.mdev + i) = useOut) ∧
    (s.rd F.MEM_MAPOUT_STATE 0 ≠ moTrain → ∀ p, Finishes (.mapoutTrainDone p) s s) ∧
    (s.rd F.MEM_MAPOUT_STATE 0 = moTrain →
      (∃ u, Finishes (.mapoutTrainDone true) s u ∧ u.rd F.MEM_MAPOUT_STATE 0 = moReturn) ∧
      (∃ u, Finishes (.mapoutTrainDone false) s u ∧ u.rd F.MEM_MAPOUT_STATE 0 = moOut ∧ u.rd F.MEM_MAPOUT_REFUSED 0 = 1)) ∧
    (s.rd F.MEM_MAPOUT_STATE 0 ≠ moReturn → Finishes .returnDone s s) ∧
    (s.rd F.MEM_MAPOUT_STATE 0 = moReturn → ∃ u, Finishes .returnDone s u ∧ u.memBoundary.rd F.MEM_STAT 0 = 64 ∧
      u.memBoundary.rd F.MEM_MAPOUT_STATE 0 = moIn ∧ ∀ i < 4, u.memBoundary.rd F.MEM_CH_STAT_USE (4 * s.mem.mdev + i) = useIn)

/-! ### Services (12_services) -/

/-- Each task command takes the record that the requester selects from the states that Table: Task commands names to its new
state, REFUSED cleared; from every other state it only sets REFUSED. A record's words are written in FREE and SUSPENDED alone, STATE
left as it is (R311, R312). -/
def Obligations.TaskCommands : Prop :=
  ∀ (s : State) (req : Fin 19) (t st : Nat), s.Takes req → s.rd F.TDS_TASK_SEL req = t → s.rd T.state t = st →
    (∀ c ∈ [Instr.arm req, .kick req, .suspend req, .resume req, .free req],
      (c, st) ∉ [(Instr.arm req, tsFree), (.kick req, tsIdle), (.kick req, tsDelayed), (.suspend req, tsIdle), (.suspend req, tsReady),
        (.suspend req, tsDelayed), (.suspend req, tsRunning), (.resume req, tsSuspended), (.free req, tsSuspended)] →
      Finishes c s (s.wr F.TDS_TASK_CMD_REFUSED req 1)) ∧
    (∀ k w, s.Alone req → st ≠ tsFree → st ≠ tsSuspended → ∃ u, Finishes (.tdsTaskWWrite req k w) s u ∧ u.rd F.TDS_TASK_CMD_REFUSED req = 1 ∧
      ∀ j < 8, u.reg t (0x90010 + 4 * j) = s.reg t (0x90010 + 4 * j)) ∧
    (∀ k w, s.Alone req → st = tsFree ∨ st = tsSuspended → ∃ u, Finishes (.tdsTaskWWrite req k w) s u ∧ u.rd F.TDS_TASK_CMD_REFUSED req = 0 ∧
      u.rd T.state t = st ∧ (k.val < 4 → u.reg t (0x90010 + 4 * k) = w) ∧ (k.val = 4 → u.rd T.prio t = getF w T.prio)) ∧
    (st = tsFree → s.armable t = false → Finishes (.arm req) s (s.wr F.TDS_TASK_CMD_REFUSED req 1)) ∧
    (st = tsFree → s.armable t = true → ∃ u, Finishes (.arm req) s u ∧ u.rd T.state t = tsIdle ∧ u.rd F.TDS_TASK_CMD_REFUSED req = 0) ∧
    (st = tsFree → t < 256 → ∃ u, Finishes (.arm req) s u ∧ u.rd T.state t = tsIdle ∧ u.rd F.TDS_TASK_CMD_REFUSED req = 0) ∧
    (st = tsIdle ∨ st = tsDelayed → ∃ u, Finishes (.kick req) s u ∧ u.rd T.state t = tsReady ∧ t ∈ u.readyList (s.taskPrio t) ∧
      u.rd T.evpend t = min (s.rd T.evpend t + 1) 255 ∧ u.rd F.TDS_TASK_CMD_REFUSED req = 0) ∧
    (st = tsIdle ∨ st = tsReady ∨ st = tsDelayed → ∃ u, Finishes (.suspend req) s u ∧ u.rd T.state t = tsSuspended ∧
      (∀ p < 32, t ∉ u.readyList p) ∧ u.rd F.TDS_TASK_CMD_REFUSED req = 0) ∧
    (st = tsRunning → ∃ u, Finishes (.suspend req) s u ∧ u.rd T.state t = tsRunning ∧ t ∈ u.tds.suspend) ∧
    (st = tsSuspended → ∃ u, Finishes (.resume req) s u ∧
      u.rd T.state t = (if s.rd T.evpend t = 0 then tsIdle else tsReady) ∧ u.rd F.TDS_TASK_CMD_REFUSED req = 0) ∧
    (∀ n, st ≠ tsIdle → Finishes (.delay req n) s (s.wr F.TDS_TASK_CMD_REFUSED req 1)) ∧
    (∀ n, st = tsIdle → ∃ u, Finishes (.delay req n) s u ∧ u.rd T.state t = tsDelayed ∧
      u.rd T.wake t = (s.tick32 + max 1 n.toNat) % 2 ^ 32) ∧
    (st = tsSuspended → ∃ u, Finishes (.free req) s u ∧ u.rd T.state t = tsFree ∧ u.rd T.evpend t = 0)

/-- Dispatch, the end of a run, preemption and wakes: TDS_NEXT gives a core the first task of the highest level that may run on it,
now RUNNING; a run ends in READY, DELAYED or IDLE, a periodic task's next WAKE after the current tick; the tasks whose WAKE has come
are READY, as many as WAKE_MAX allows; a core out of dispatch with nothing running is reset (R314 to R317, R325). -/
def Obligations.TaskRuns : Prop :=
  ∀ (s : State) (k : Fin 16) (req : Fin 19), req.val = k.val + 1 →
    (s.Runs →
      (∀ t, s.nextTask k = some t → ∃ u, Finishes (.tdsNextRead req) s u ∧ u.rd T.state t = tsRunning ∧ u.rd T.core t = k ∧
        u.rd T.evpend t = 0 ∧ u.rd (F.TDS_CORE_STAT_RUN k) 0 = 1 ∧ u.rd (F.TDS_CORE_STAT_PREEMPT k) 0 = 0 ∧ (∀ p < 32, t ∉ u.readyList p) ∧
        tget (fun _ => []) u.rdata req = toBytes (bytesLE 4 (2 ^ 31 + s.rd T.evpend t * 2 ^ 16 + t))) ∧
      (s.nextTask k = none → ∃ u, Finishes (.tdsNextRead req) s u ∧ u.tds = s.tds ∧ u.rd (F.TDS_CORE_STAT_PREEMPT k) 0 = 0 ∧
        u.rd (F.TDS_CORE_STAT_PRIO k) 0 =
          (if s.on (F.TDS_CORE_STAT_RUN k) 0 = true then s.taskPrio (s.rd (F.TDS_CORE_STAT_TASK k) 0) else 0) ∧
        tget (fun _ => []) u.rdata req = toBytes (bytesLE 4 0)) ∧
      (∀ r : Fin 19, r.val = 0 ∨ 16 < r.val → Finishes (.tdsNextRead r) s (s.answer r (toBytes (bytesLE 4 0)))) ∧
      Finishes (.preemptTimeout k) s (if s.on (F.TDS_CORE_STAT_PREEMPT k) 0 = true then
        ((s.inc F.TDS_PREEMPT_LATE 0).log 0x0902 engineReq k (bytesLE 2 (s.rd (F.TDS_CORE_STAT_TASK k) 0))).watch fsPreemptLate k else s) ∧
      (∃ u, Finishes .taskWake s u ∧ (∀ t ∈ s.dueTasks.take (32 * max 1 (s.rd F.TDS_CFG_WAKE_MAX 0)), u.rd T.state t = tsReady) ∧
        u.rd F.TDS_WAKE_LATE 0 = min (s.rd F.TDS_WAKE_LATE 0 + (s.dueTasks.length - 32 * max 1 (s.rd F.TDS_CFG_WAKE_MAX 0))) (2 ^ 32 - 1))) ∧
    (∀ r : Fin 19, s.Takes r → r.val = 0 ∨ 16 < r.val →
      Finishes (.endRun r) s s ∧ Finishes (.yield r) s s ∧ ∀ n, Finishes (.sleep r n) s s) ∧
    (s.Takes req →
      (s.on (F.TDS_CORE_STAT_RUN k) 0 = false → Finishes (.endRun req) s s ∧ Finishes (.yield req) s s ∧ ∀ n, Finishes (.sleep req n) s s) ∧
      (∀ t, s.on (F.TDS_CORE_STAT_RUN k) 0 = true → s.rd (F.TDS_CORE_STAT_TASK k) 0 = t → s.tds.suspend.contains t = false →
        s.coreOnline k = true →
        (∃ u, Finishes (.endRun req) s u ∧ u.rd (F.TDS_CORE_STAT_RUN k) 0 = 0 ∧
          u.rd T.state t = (if s.rd T.evpend t ≠ 0 then tsReady else if s.on T.periodic t = true then tsDelayed else tsIdle)) ∧
        (∃ u, Finishes (.yield req) s u ∧ u.rd (F.TDS_CORE_STAT_RUN k) 0 = 0 ∧ u.rd T.state t = tsReady) ∧
        (∀ n, ∃ u, Finishes (.sleep req n) s u ∧ u.rd (F.TDS_CORE_STAT_RUN k) 0 = 0 ∧ u.rd T.state t = tsDelayed ∧
          u.rd T.wake t = (s.tick32 + max 1 n.toNat) % 2 ^ 32)) ∧
      (∀ t c, s.on (F.TDS_CORE_STAT_RUN k) 0 = true → s.rd (F.TDS_CORE_STAT_TASK k) 0 = t → s.tds.suspend.contains t = true →
        c ∈ [Instr.endRun req, .yield req, .sleep req 5] → ∃ u, Finishes c s u ∧ u.rd (F.TDS_CORE_STAT_RUN k) 0 = 0 ∧
          u.rd T.state t = tsSuspended ∧ u.tds.suspend.contains t = false) ∧
      (∃ u, Finishes (.offline req k) s u ∧ u.rd (F.TDS_CORE_CTL k) 0 = 1 ∧ u.coreOnline k = false ∧
        (s.coreOnline k = true → s.on (F.TDS_CORE_STAT_RUN k) 0 = false →
          ∀ off, (findRow off).any (fun r => r.bank == .req) = true → off < 0x100000 → u.reg req off = regReset (rkey req off)))) ∧
    (∀ wake period now, wake < 2 ^ 32 → period < 2 ^ 16 → now < 2 ^ 32 →
      0 < ((nextWake wake period now).1 + 2 ^ 32 - now) % 2 ^ 32 ∧ ((nextWake wake period now).1 + 2 ^ 32 - now) % 2 ^ 32 ≤ 2 ^ 31)

/-- The mailboxes take a message behind at most 63 others, a further one is counted and lost, and a pop takes the oldest out; an
event without a binding is counted; a task that one makes READY joins its list at the command's end, those of one command by
ascending record index; a frame reaches a core where a slot is free, and one injected is taken, from local SRAM or service-core
memory, once it has been read (R309, R310, R313, R319, R321). -/
def Obligations.MailboxesAndCoreFrames : Prop :=
  ∀ (s : State) (req : Fin 19),
    (s.Takes req →
      (s.tds.mboxIn.length < 64 → ∃ u x, Finishes (.postIn req) s u ∧ u.tds.mboxIn = s.tds.mboxIn ++ [x] ∧
        x = (List.range 4).map (fun k => s.reg req (F.TDS_MBOX_W k).off) ∧ u.tds.mboxOut = s.tds.mboxOut) ∧
      (64 ≤ s.tds.mboxIn.length → ∃ u, Finishes (.postIn req) s u ∧ u.tds.mboxIn = s.tds.mboxIn ∧
        u.rd F.TDS_MBOX_FULL_IN 0 = min (s.rd F.TDS_MBOX_FULL_IN 0 + 1) 65535) ∧
      (s.tds.mboxOut.length < 64 → ∃ u x, Finishes (.postOut req) s u ∧ u.tds = { s.tds with mboxOut := s.tds.mboxOut ++ [x] } ∧
        x = (List.range 4).map (fun k => s.reg req (F.TDS_MBOX_W k).off)) ∧
      (64 ≤ s.tds.mboxOut.length → Finishes (.postOut req) s (s.inc F.TDS_MBOX_FULL_OUT 0)) ∧
      (∃ u, Finishes (.popIn req) s u ∧ u.tds = { s.tds with mboxIn := s.tds.mboxIn.drop 1 } ∧ { u with tds := s.tds } = s) ∧
      (∃ u, Finishes (.popOut req) s u ∧ u.tds = { s.tds with mboxOut := s.tds.mboxOut.drop 1 } ∧ { u with tds := s.tds } = s) ∧
      (∀ idx : Fin 64, (s.boundTasks (64 * 14 + idx) = [] → Finishes (.tdsEvRaise req idx) s (s.inc F.TDS_EV_UNBOUND 0)) ∧
        (∀ t, s.boundTasks (64 * 14 + idx) = [t] → ∃ u, Finishes (.tdsEvRaise req idx) s u ∧
          u.rd T.evpend t = min (s.rd T.evpend t + 1) 255 ∧ u.rd T.state t = s.rd T.state t ∧
          (s.rd T.state t = tsIdle ∨ (s.rd T.state t = tsDelayed ∧ s.on T.evwake t = true) →
            u.tds.joins = s.tds.joins.filter (· < t) ++ t :: s.tds.joins.filter (t < ·) ∧
            (s.tds.joins = [] → u.readyAll.rd T.state t = tsReady ∧ u.readyAll.tds.joins = [])) ∧
          (¬(s.rd T.state t = tsIdle ∨ (s.rd T.state t = tsDelayed ∧ s.on T.evwake t = true)) → u.tds = s.tds)) ∧
        (∀ t t', s.boundTasks (64 * 14 + idx) = [t, t'] →
          Finishes (.tdsEvRaise req idx) s ((s.eventTask t).eventTask t'))) ∧
      (req.val = 0 ∨ 16 < req.val → Finishes (.tdsInjGo req) s s) ∧
      (1 ≤ req.val → req.val ≤ 16 → s.on F.TDS_INJ_CTL_BUSY req = true → Finishes (.tdsInjGo req) s (s.inc F.TDS_INJ_REFUSED 0)) ∧
      (1 ≤ req.val → req.val ≤ 16 → s.on F.TDS_INJ_CTL_BUSY req = false → ∃ u, Finishes (.tdsInjGo req) s u ∧
        u.rd F.TDS_INJ_CTL_BUSY req = 1 ∧
        tget (fun _ => none) u.tds.inj (req.val - 1) = some (s.rd F.TDS_INJ_ADDR req, s.rd F.TDS_INJ_LEN req))) ∧
    (s.Runs → ∀ (k : Fin 16),
      (∀ f, tget (fun _ => none) s.tds.inj k = none → Finishes (.injectionReadDone k f) s s) ∧
      (∀ f a n t, tget (fun _ => none) s.tds.inj k = some (a, n) →
        t = { s with tds := { s.tds with inj := tput (fun _ => none) s.tds.inj k none } }.wr F.TDS_INJ_CTL_BUSY (k + 1) 0 →
        (f = true → Finishes (.injectionReadDone k f) s t) ∧
        (∀ p, corePlace a = .sram p → f = false →
          Finishes (.injectionReadDone k f) s (t.inject 2 k (s.sramBytes k p (min n 16379)))) ∧
        (∀ p, corePlace a = .mem p → f = false → s.corePoisoned p (min n 16379) = true → Finishes (.injectionReadDone k f) s t) ∧
        (∀ p, corePlace a = .mem p → f = false → s.corePoisoned p (min n 16379) = false →
          Finishes (.injectionReadDone k f) s (t.inject 2 k (s.coreBytes p (min n 16379)))) ∧
        (∀ b, corePlace a = .none ∨ corePlace a = .place b → f = false →
          Finishes (.injectionReadDone k f) s ((t.freeBytes (min n 16379)).2.inject 2 k (t.freeBytes (min n 16379)).1))) ∧
      (∀ rd, (s.rd (F.TDS_IN_HEAD k) 0 + 1) % 512 = s.rd (F.TDS_IN_TAIL k) 0 ∨ s.deliverable (qCore k) = none →
        Finishes (.coreDelivery k rd) s s) ∧
      (∀ rd x, (s.rd (F.TDS_IN_HEAD k) 0 + 1) % 512 ≠ s.rd (F.TDS_IN_TAIL k) 0 → s.deliverable (qCore k) = some x →
        ((s.takeDelivery (qCore k) x).readWords rd 0 x.slice).2 = true →
        Finishes (.coreDelivery k rd) s ((s.takeDelivery (qCore k) x).readWords rd 0 x.slice).1) ∧
      (∀ rd x, (s.rd (F.TDS_IN_HEAD k) 0 + 1) % 512 ≠ s.rd (F.TDS_IN_TAIL k) 0 → s.deliverable (qCore k) = some x →
        ((s.takeDelivery (qCore k) x).readWords rd 0 x.slice).2 = false → ∃ u, Finishes (.coreDelivery k rd) s u ∧
          u.rd (F.TDS_IN_HEAD k) 0 = (s.rd (F.TDS_IN_HEAD k) 0 + 1) % 512 ∧
          u.coreBytes (k * 2 ^ 26 + s.rd (F.TDS_IN_HEAD k) 0 * 2 ^ 15 + 64) x.bytes.length = x.bytes))

/-! ### The twin (13_twin) -/

/-- The link to the partner: frames are taken on a lane in service of a paired engine with a right header and no spoilt codeword, and
otherwise ignored; a copy frame goes to the copy, a forwarded one to its queue where the pair is ACTIVE, the rest to their pipe. A
heartbeat lost for three boundaries declares the partner; the fourth TWIN_ALIVE edge in time restores an input, 24 µs without one or
chattering loses it; a declaration ends after 64 boundaries heard, with a resync due (R331, R333 to R336, R339). -/
def Obligations.TwinLink : Prop :=
  ∀ (s : State), s.Runs →
    (∀ (i : Fin 8) f (block : BitVec 32) (ago : Nat),
      (∀ rx at_, Finishes (.surokFrameReceived i rx at_) s (surokFrameReceived i rx at_.block.toNat at_.spoilt at_.ago s)) ∧
      (7 ≤ f.length → exec (.surokFrameReceived i (.blocks ((frameToBlocks f).map
        (fun b => (BitVec.ofNat 2 b.1, BitVec.ofNat 64 b.2)))) { block, spoilt := 0, ago }) s =
          exec (.surokFrameReceived i (.cut f) { block, spoilt := 0, ago }) s) ∧
      (s.paired = false ∨ s.laneRx i = false ∨ (s.framer (64 + i)).deliver = false →
        ∀ rx at_, Finishes (.surokFrameReceived i rx at_) s s) ∧
      (fieldBE f 6 2 ≠ crc16 (f.take 6) ∨ hdrLen f < 64 ∨ 16383 < hdrLen f ∨ f.length ≠ 8 + hdrLen f →
        ∀ sp, Finishes (.surokFrameReceived i (.cut f) { block, spoilt := sp, ago }) s s) ∧
      (∀ sp, sp ≠ 0 ∨ s.codewordsBad (64 + i) (block.toNat / 80)
        ((block.toNat + frameBlocks (f.length - 8) - 1) / 80 + 1 - block.toNat / 80) = true →
        Finishes (.surokFrameReceived i (.cut f) { block, spoilt := sp, ago }) s s) ∧
      (s.paired = true → s.laneRx i = true → (s.framer (64 + i)).deliver = true → fieldBE f 6 2 = crc16 (f.take 6) →
        64 ≤ hdrLen f → hdrLen f ≤ 16383 → f.length = 8 + hdrLen f → s.codewordsBad (64 + i) (block.toNat / 80)
          ((block.toNat + frameBlocks (f.length - 8) - 1) / 80 + 1 - block.toNat / 80) = false →
        (surokCopy f = true → Finishes (.surokFrameReceived i (.cut f) { block, spoilt := 0, ago }) s (s.copyFrame (f.drop 8))) ∧
        (surokCopy f = false → ∃ fr, fr.body ++ fr.fcs = f.drop 8 ∧ fr.src = 3 ∧ fr.entry = i.val ∧ fr.tid = hdrTid f ∧ fr.bc = hdrBc f ∧
          fr.prot = hdrProt f ∧
          (surokFwd f = false → Finishes (.surokFrameReceived i (.cut f) { block, spoilt := 0, ago }) s (s.enterPipe fr)) ∧
          (surokFwd f = true → s.pairActive (surokQueue f / 64) = false →
            Finishes (.surokFrameReceived i (.cut f) { block, spoilt := 0, ago }) s (s.inc F.TWN_RX_FWD_DROP 0)) ∧
          (surokFwd f = true → s.pairActive (surokQueue f / 64) = true →
            Finishes (.surokFrameReceived i (.cut f) { block, spoilt := 0, ago }) s
              (s.admitFrame { mkQ fr 0 (surokQueue f) with tid := hdrTid f, bc := hdrBc f, prot := hdrProt f }))))) ∧
    (s.paired = false ∨ s.twin.miss < 3 ∨ s.on F.TWN_STAT_HB_OK 0 = false → Finishes .heartbeatLost s s) ∧
    (s.paired = true → 3 ≤ s.twin.miss → s.on F.TWN_STAT_HB_OK 0 = true →
      (s.partner ≠ ptUp → Finishes .heartbeatLost s (s.wr F.TWN_STAT_HB_OK 0 0)) ∧
      (s.partner = ptUp → Finishes .heartbeatLost s ((s.wr F.TWN_STAT_HB_OK 0 0).declare (if s.aliveAny then ptLinkLost else ptFailed)))) ∧
    (s.twin.since = none ∨ s.paired = false ∨ s.partner ≠ ptUnheard → Finishes .firstHeartbeatTimeout s s) ∧
    (∀ t, s.twin.since = some t → s.eng.tick < t + 64 * max 1 (s.rd F.TWN_CFG_WAIT_SF 0) → Finishes .firstHeartbeatTimeout s s) ∧
    (∀ t, s.twin.since = some t → s.paired = true → s.partner = ptUnheard → t + 64 * max 1 (s.rd F.TWN_CFG_WAIT_SF 0) ≤ s.eng.tick →
      Finishes .firstHeartbeatTimeout s (s.declare (if s.aliveAny then ptLinkLost else ptFailed))) ∧
    (s.declared = false ∨ s.twin.good < 64 ∨ s.aliveAny = false → Finishes .declarationEnd s s) ∧
    (s.declared = true → 64 ≤ s.twin.good → s.aliveAny = true → ∃ u, Finishes .declarationEnd s u ∧ u.partner = ptUp ∧
      u.rd F.TWN_STAT_RULE_MASTER 0 = 0 ∧ u.twin = { s.twin with resyncDue := true } ∧
      OnlyRegs [rkey 0 F.TWN_STAT.off] { s with twin := u.twin } u) ∧
    (∀ i : Fin 2, s.edgeWaits (18 + i) = false → Finishes (.twinAliveEdge i) s s) ∧
    (∀ i : Fin 2, s.edgeWaits (18 + i) = true → ∃ u, Finishes (.twinAliveEdge i) s u ∧ (u.aliveIn i).last = some s.pegs.cyc ∧
      (u.inputOf (18 + i)).acts + 1 = (s.inputOf (18 + i)).acts ∧
      (∀ c, (s.aliveIn i).last = some c → c + 30000 ≤ s.pegs.cyc → s.pegs.cyc ≤ c + 34000 → 3 ≤ (s.aliveIn i).run →
        s.on (F.FLT_IN_STAT_CHATTER (18 + i)) 0 = false → u.rd (aliveFld i) 0 = 1) ∧
      (∀ c, (s.aliveIn i).last = some c → s.pegs.cyc < c + 30000 ∨ c + 34000 < s.pegs.cyc →
        (u.aliveIn i).run = 1 ∧ u.eff = s.eff)) ∧
    (∀ i : Fin 2, s.on (aliveFld i) 0 = false → Finishes (.twinAliveInputLost i) s s) ∧
    (∀ i : Fin 2, ∀ c, s.on (aliveFld i) 0 = true → s.on (F.FLT_IN_STAT_CHATTER (18 + i)) 0 = false →
      (s.aliveIn i).last = some c →
      (s.pegs.cyc + s.cyclesTo s.eng.nextB < c + 48000 → Finishes (.twinAliveInputLost i) s s) ∧
      (c + 48000 ≤ s.pegs.cyc + s.cyclesTo s.eng.nextB → ∃ r v, r = s.runCycles (c + 48000 - s.pegs.cyc) ∧
        v = ((({ r with twin := { r.twin with alive := tput (fun _ => Alive.reset) r.twin.alive i { s.aliveIn i with run := 0 } } }.wr
          (aliveFld i) 0 0).inc F.TWN_ALIVE_LOSS 0).log 0x0B03 engineReq i []) ∧
        Finishes (.twinAliveInputLost i) s (if v.aliveAny then v else v.declare ptFailed))) ∧
    (∀ i : Fin 2, s.on (aliveFld i) 0 = true → s.on (F.FLT_IN_STAT_CHATTER (18 + i)) 0 = true →
      s.on (aliveFld (1 - i.val)) 0 = true → ∃ u, Finishes (.twinAliveInputLost i) s u ∧ u.on (aliveFld i) 0 = false ∧
        u.rd F.TWN_ALIVE_LOSS 0 = min (s.rd F.TWN_ALIVE_LOSS 0 + 1) (2 ^ 32 - 1) ∧ u.partner = s.partner) ∧
    Finishes .twinAlivePulseEnd s (if s.paired then s.driveAlive false else s)

/-- A switch of a pair that is not valid, or already so, is refused; a forced one, or one while the partner is declared, waits for
the next boundary; else the partner is asked. TWN_LANES takes at most two lanes out of service (R330, R341). -/
def Obligations.TwinSwitching : Prop :=
  ∀ (s : State) (req : Fin 19), s.Takes req →
    (∀ (c : Fin 64) toActive force,
      (s.pairValid c = false ∨ s.pairActive c = toActive → Finishes (.twnSwitch req c toActive force) s (s.wr F.TWN_SWITCH_RESULT req swRefused)) ∧
      (s.pairValid c = true → s.pairActive c ≠ toActive → force = true ∨ s.partner ≠ ptUp → ∃ u, Finishes (.twnSwitch req c toActive force) s u ∧
        (c.val, toActive, req.val) ∈ u.twin.switches ∧ u.rd F.TWN_SWITCH_RESULT req = swPending ∧
        OnlyRegs [rkey req F.TWN_SWITCH.off] { s with twin := u.twin } u) ∧
      (s.pairValid c = true → s.pairActive c ≠ toActive → force = false → s.partner = ptUp →
        Finishes (.twnSwitch req c toActive force) s (s.askHand req c toActive))) ∧
    (∀ out : Byte, s.Alone req → ∃ u, Finishes (.twnLanesWrite req out) s u ∧
      (2 < popCount 8 out.toNat → u.rd F.TWN_LANES_REFUSED 0 = 1 ∧ u.rd F.TWN_LANES_OUT 0 = s.rd F.TWN_LANES_OUT 0) ∧
      (popCount 8 out.toNat ≤ 2 → u.rd F.TWN_LANES_REFUSED 0 = 0 ∧ u.rd F.TWN_LANES_OUT 0 = out.toNat))

/-! ### Image and security (14_image_security) -/

/-- The start: a reset leaves the registers that do not outlive it at their reset values; each phase ends with its own command and
no other; a slot that fails gives way to the other, and the second to NO_IMAGE; two devices that fail training end in MEM_FAIL;
RESTART needs its key (R356, R357, R359, R360, R422, R428). -/
def Obligations.StartPhases : Prop :=
  ∀ (s : State),
    (∃ u, Finishes .resetInput s u ∧ u.pwr.input = true ∧ u.phase = phReset ∧ u.store = State.reset.store ∧ u.eng = State.reset.eng ∧
      ∀ i off, off < 0x100000 → keptReg false off = false → off ∉ [F.IMG_STAT.off, F.TWN_STAT.off] → u.reg i off = regReset (rkey i off)) ∧
    (∀ id m, ∃ u, Finishes (.resetRelease id m) s u ∧ u.pwr.input = false ∧ u.phase = phReset ∧ u.rd F.TWN_STAT_STRAP 0 = id ∧
      u.on F.PWR_FEED_STAT_MAIN 0 = m) ∧
    (s.Runs →
      Finishes .resetPhaseDone s (if s.phase = phReset then s.wr F.IMG_STAT_PHASE 0 phHeader else s) ∧
      (∀ z : SlotImage, s.slotCause z = 0 → z.readable = true ∧ z.rootOk = true ∧ z.certOk = true ∧ z.sigOk = true ∧
        s.rd F.IMG_STAT_FUSE_SVN 0 ≤ z.svn ∧ z.svn ≤ 64 ∧ (∀ p ∈ slotParts z, p.1 + p.2 ≤ fieldLE z.header 8 4) ∧
        (slotParts z).Pairwise (fun a b => apart a b = true) ∧
        (∀ e ∈ manEntries z.manifest, 1 ≤ e.type ∧ e.type ≤ 10 ∧ e.ofs % 4 = 0 ∧ (e.type = 9 → certFlag z 0 = true))) ∧
      (∀ z, s.phase ≠ phHeader → Finishes (.headerChecked z) s s) ∧
      (∀ z, s.phase = phHeader → s.slotCause z = 0 → ∃ u, Finishes (.headerChecked z) s u ∧ u.phase = phSections ∧
        u.rd F.IMG_STAT_SVN 0 = z.svn ∧ u.rd F.IMG_BUILD 0 = z.build ∧ u.img.manifest = z.signed) ∧
      (∀ z, s.phase = phHeader → s.slotCause z ≠ 0 → ∃ u, Finishes (.headerChecked z) s u ∧
        (s.rd (imgCause (1 - s.rd F.IMG_STAT_SLOT 0)) 0 = 9 → u.phase = phHeader ∧ u.rd F.IMG_STAT_SLOT 0 = 1 - s.rd F.IMG_STAT_SLOT 0) ∧
        (s.rd (imgCause (1 - s.rd F.IMG_STAT_SLOT 0)) 0 ≠ 9 → u.phase = phNoImage)) ∧
      (∀ r d cs, s.phase ≠ phSections ∨ s.img.checked = true → Finishes (.sectionsChecked r d cs) s s) ∧
      (∀ cs, s.phase = phSections → s.img.checked = false → ∃ u, Finishes (.sectionsChecked true true cs) s u ∧ u.img.checked = true ∧
        u.img.sections = heldSections (s.img.manifest.drop 256) cs ∧ u.phase = if s.img.trained then phApply else phSections) ∧
      (∀ r d cs, s.phase = phSections → s.img.checked = false → (r && d) = false → ∃ u, Finishes (.sectionsChecked r d cs) s u ∧
        u.img.manifest = [] ∧ u.img.sections = [] ∧ (u.phase = phHeader ∨ u.phase = phNoImage)) ∧
      (∀ f ts, s.img.trained = true ∨ (s.phase ≠ phHeader ∧ s.phase ≠ phSections) → Finishes (.memTrainingDone f ts) s s) ∧
      (∀ f ts, s.img.trained = false → s.phase = phHeader ∨ s.phase = phSections → ∃ u, Finishes (.memTrainingDone f ts) s u ∧
        u.img.trained = true ∧
        (f = 0 → u.phase = if s.phase = phSections ∧ s.img.checked then phApply else s.phase) ∧
        (∀ d e : Fin 16, d ≠ e → f.toNat / 2 ^ (4 * d.val) % 16 ≠ 0 → f.toNat / 2 ^ (4 * e.val) % 16 ≠ 0 → u.phase = phMemFail)) ∧
      (s.phase ≠ phApply ∨ s.eng.commits.any (fun x => x.req == 17) = true → Finishes .apply s s) ∧
      (s.phase = phApply → s.eng.commits.any (fun x => x.req == 17) = false → ∃ u, Finishes .apply s u ∧ u.img.sections = [] ∧
        u.mem.initDone = true) ∧
      (s.phase = phApply → s.eng.commits.any (fun x => x.req == 17) = false → s.img.sections = [] → ∃ u x, Finishes .apply s u ∧
        u.eng.commits = s.eng.commits ++ [x] ∧ x.req = 17 ∧ x.dev = true ∧ x.octs = 255) ∧
      (∀ req key, key ≠ 0xA5#8 → Finishes (.restart req key) s s) ∧
      (∀ req, ∃ u, Finishes (.restart req 0xA5#8) s u ∧ u.phase = phReset ∧ u.host.link = s.host.link ∧ u.store = State.reset.store))

/-- Slot checks, flash, fuses, reports and keys: GO is ignored while one runs; program and erase are refused while the start reads the
flash; fuses advance only in RUN, to an SVN above theirs that the other slot has too; a report is written for the requester served
and the next one follows; a key slot written holds the key in one direction, and an erased one none (R358, R362, R364, R366, R369,
R372). -/
def Obligations.ImageServices : Prop :=
  ∀ (s : State), s.Runs →
    (∀ req, s.on F.IMG_VERIFY_BUSY 0 = false → ∃ u, Finishes (.imgVerify req) s u ∧ u.img.verify = some (s.rd F.IMG_VERIFY_SLOT 0) ∧
      u.on F.IMG_VERIFY_BUSY 0 = true) ∧
    (∀ req, s.on F.IMG_VERIFY_BUSY 0 = true → ∃ u, Finishes (.imgVerify req) s u ∧ u.img.verify = s.img.verify ∧ u.eff = s.eff) ∧
    (∀ chk, s.img.verify = none → Finishes (.imgVerifyDone chk) s s) ∧
    (∀ z v, s.img.verify = some v → ∃ u, Finishes (.imgVerifyDone z) s u ∧ u.img.verify = none ∧
      u.on F.IMG_VERIFY_BUSY 0 = false ∧ u.on F.IMG_VERIFY_PASS 0 = (s.verifyCause z == 0) ∧
      u.rd F.IMG_VERIFY_SVN 0 = z.svn % 128 ∧ u.rd F.IMG_VERIFY_CAUSE 0 = s.verifyCause z) ∧
    (∀ z, s.verifyCause z = 0 → z.digestsOk = true) ∧
    (∀ (req : Fin 19) c op, (c, op) ∈ [(Instr.flashRead req, 0), (.flashProgram req, 1), (.flashErase req, 2)] →
      ∃ u, Finishes c s u ∧ u.rd F.IMG_FL_CTL_OP 0 = op ∧
        (s.on F.IMG_FL_CTL_BUSY 0 = true → u.img.flash = s.img.flash ∧ u.out = s.out) ∧
        (s.on F.IMG_FL_CTL_BUSY 0 = false → op = 0 ∨ s.startReads = false → u.img.flash.map (·.op) = some op ∧
          u.on F.IMG_FL_CTL_BUSY 0 = true ∧ u.out.length = s.out.length + 1) ∧
        (s.on F.IMG_FL_CTL_BUSY 0 = false → op ≠ 0 → s.startReads = true → u.on F.IMG_FL_CTL_ERR 0 = true ∧ u.out = s.out)) ∧
    (∀ ok data, s.img.flash = none → Finishes (.flashCommandDone ok data) s s) ∧
    (∀ ok data f, s.img.flash = some f → ∃ u, Finishes (.flashCommandDone ok data) s u ∧ u.img.flash = none ∧
      u.on F.IMG_FL_CTL_BUSY 0 = false ∧ u.on F.IMG_FL_CTL_ERR 0 = !ok) ∧
    (∀ req, s.on F.IMG_FUSE_CTL_BUSY 0 = true → Finishes (.advance req) s s) ∧
    (∀ req, s.on F.IMG_FUSE_CTL_BUSY 0 = false → (s.phase ≠ phRun ∨ s.rd F.IMG_STAT_SVN 0 ≤ s.rd F.IMG_STAT_FUSE_SVN 0 ∨
      s.img.otherSvn = none ∨ ∃ v, s.img.otherSvn = some v ∧ v < s.rd F.IMG_STAT_SVN 0) → Finishes (.advance req) s (s.wr F.IMG_FUSE_CTL_REFUSED 0 1)) ∧
    (∀ req v, s.on F.IMG_FUSE_CTL_BUSY 0 = false → s.phase = phRun → s.rd F.IMG_STAT_FUSE_SVN 0 < s.rd F.IMG_STAT_SVN 0 →
      s.img.otherSvn = some v → s.rd F.IMG_STAT_SVN 0 ≤ v → ∃ u, Finishes (.advance req) s u ∧
        u.out = .fuses (s.rd F.IMG_STAT_SVN 0 - s.rd F.IMG_STAT_FUSE_SVN 0) :: s.out ∧ u.on F.IMG_FUSE_CTL_BUSY 0 = true ∧
        u.rd F.IMG_FUSE_CTL_REFUSED 0 = 0) ∧
    (s.on F.IMG_FUSE_CTL_BUSY 0 = false → Finishes .fuseAdvanceDone s s) ∧
    (s.on F.IMG_FUSE_CTL_BUSY 0 = true → ∃ u, Finishes .fuseAdvanceDone s u ∧ u.on F.IMG_FUSE_CTL_BUSY 0 = false ∧
      u.rd F.IMG_STAT_FUSE_SVN 0 = s.rd F.IMG_STAT_SVN 0) ∧
    (∀ req : Fin 19, s.on F.IMG_ATT_CTL_BUSY req = true → Finishes (.attestationRequest req) s s) ∧
    (∀ req : Fin 19, s.on F.IMG_ATT_CTL_BUSY req = false → ∃ u, Finishes (.attestationRequest req) s u ∧ req.val ∈ u.img.attQ ∧
      u.on F.IMG_ATT_CTL_BUSY req = true ∧ u.on F.IMG_ATT_CTL_DONE req = false ∧ u.img.attQ.head? = some (s.img.attQ.headD req)) ∧
    (s.img.attQ = [] → Finishes .reportReady s s) ∧
    (∀ r rest, s.img.attQ = r :: rest → unheard ≤ r → Finishes .reportReady s { s with img := { s.img with attQ := rest } }) ∧
    (∀ r rest, s.img.attQ = r :: rest → r < unheard → ∃ u, Finishes .reportReady s u ∧ u.img = { s.img with attQ := rest } ∧
      u.on F.IMG_ATT_CTL_BUSY r = false ∧ u.on F.IMG_ATT_CTL_DONE r = true) ∧
    (∀ req : Fin 19, ∃ u, Finishes (.imgRdigLatch req) s u ∧ tget (fun _ => []) u.rdata req = (exactly 64 s.img.d).take 4 ∧
      u.rd F.IMG_RDIG_CNT_LO req = s.img.folds % 2 ^ 32 ∧ u.img = s.img) ∧
    (∀ (req : Fin 19), s.Takes req → Finishes (.writeSlot req) s (writeSlot req s) ∧ Finishes (.eraseSlot req) s (eraseSlot req s) ∧
      Finishes (.eraseTid req) s (eraseTid req s) ∧ Finishes (.eraseChannel req) s (eraseChannel req s) ∧
      ∀ t : Fin 32, Finishes (.change req t) s ((change req t s).foldWrites req (F.CH_PP t).off (s.ppChans req))) ∧
    (∀ (req : Fin 19) (c : Nat), s.Takes req → s.ppChans req = [c] → c < 64 → ∀ t k, s.ppTid req c = t →
      s.rd F.CH_PP_CTL_SLOT (ppInst req c) = k →
      (∃ u, Finishes (.writeSlot req) s u ∧
        u.payKey c t k (s.rd F.CH_PP_CTL_DIR (ppInst req c)) = s.getBytes (ppInst req c) (F.CH_PP_KEY_W 0).off 32) ∧
      (∃ u, Finishes (.eraseSlot req) s u ∧ u.payKey c t k 0 = [] ∧ u.payKey c t k 1 = [] ∧ bit (u.rd (F.CH_PP_INSTALLED t) c) k = false) ∧
      (∃ u, Finishes (.eraseTid req) s u ∧ u.rd (F.CH_PP_INSTALLED t) c = 0 ∧ u.rd (F.CH_PP_CUR_VALID t) c = 0) ∧
      (∃ u, Finishes (.eraseChannel req) s u ∧ ∀ t < 32, u.rd (F.CH_PP_INSTALLED t) c = 0) ∧
      (∀ t : Fin 32, ∃ u, Finishes (.change req t) s u ∧ u.rd (F.CH_PP_CHANGE t) c = 1))

/-! ### Power (15_power) -/

/-- The feeds: the healthy one takes over, or the hold-up store; the main takes back once healthy for its time; the last-gasp record
is made once, in hold-up; hold-up spent leaves the engine off, and a healthy feed or the thermal release ends that (R373 to R376,
R441). -/
def Obligations.Feeds : Prop :=
  ∀ (s : State) (f : Fin 2) (va vb : BitVec 16),
    (∃ u, Finishes (.feedUnhealthy f va vb) s u ∧ u.feedOk f = false ∧ u.rd F.PWR_FEED_V_VA 0 = va.toNat ∧ u.rd F.PWR_FEED_V_VB 0 = vb.toNat ∧
      (s.feedOk f = true → s.feedUse = f → (s.feedOk (1 - f) = true → u.feedUse = 1 - f ∧ u.rd F.PWR_FEED_STAT_HOLDUP 0 = 0) ∧
        (s.feedOk (1 - f) = false → u.rd F.PWR_FEED_STAT_HOLDUP 0 = 1))) ∧
    (∃ u, Finishes (.feedHealthy f va vb) s u ∧ u.feedOk f = true ∧
      (s.feedOk f = false → s.pwr.off = false → s.on F.PWR_FEED_STAT_HOLDUP 0 = true → s.pwr.gasped = false →
        u.feedUse = f ∧ u.rd F.PWR_FEED_STAT_HOLDUP 0 = 0)) ∧
    (s.Runs →
      (s.feedUse = s.feedMain ∨ s.feedOk s.feedMain = false ∨ s.on F.PWR_FEED_STAT_HOLDUP 0 = true ∨ s.mainOkS < max 1 (s.rd F.PWR_FEED_CFG 0) → Finishes .feedReturn s s) ∧
      (s.feedUse ≠ s.feedMain → s.feedOk s.feedMain = true → s.on F.PWR_FEED_STAT_HOLDUP 0 = false →
        max 1 (s.rd F.PWR_FEED_CFG 0) ≤ s.mainOkS → ∃ u, Finishes .feedReturn s u ∧ u.feedUse = s.feedMain) ∧
      (s.on F.PWR_FEED_STAT_HOLDUP 0 = false ∨ s.pwr.gasped = true → Finishes .lastGasp s s) ∧
      (s.on F.PWR_FEED_STAT_HOLDUP 0 = true → s.pwr.gasped = false → ∃ u, Finishes .lastGasp s u ∧ u.pwr.gasped = true ∧
        u.flt.lastGasp.isSome = true ∧ u.fout = true)) ∧
    (s.on F.PWR_FEED_STAT_HOLDUP 0 = false → Finishes .holdupShutdown s s) ∧
    (s.on F.PWR_FEED_STAT_HOLDUP 0 = true → ∃ u, Finishes .holdupShutdown s u ∧ u.pwr.off = true ∧ u.isHeld = true ∧
      u.store = State.reset.store) ∧
    (s.pwr.off = false ∨ (s.feedOk 0 = false ∧ s.feedOk 1 = false) → Finishes .powerOnRelease s s) ∧
    (s.pwr.off = true → s.feedOk 0 = true ∨ s.feedOk 1 = true → ∃ u, Finishes .powerOnRelease s u ∧ u.pwr.off = false ∧
      u.feedOk u.feedUse = true) ∧
    (s.pwr.off = true ∨ s.pwr.tripped = true → Finishes .thermalTrip s s) ∧
    (s.pwr.off = false → s.pwr.tripped = false → ∃ u, Finishes .thermalTrip s u ∧ u.pwr.tripped = true ∧ u.isHeld = true ∧
      u.flt.lastGasp.isSome = true ∧ u.phase = phReset) ∧
    (s.pwr.tripped = false → Finishes .thermalRelease s s) ∧
    (s.pwr.tripped = true → ∃ u, Finishes .thermalRelease s u ∧ u.pwr.tripped = false ∧ u.store = s.store)

/-- An octant's power: a request takes its place, is merged, or replaces the one that waits; each step of a transition ends with its
own command; a change of level stuck for 12 ticks goes back; a wake is latched by a sleeping octant whose source is enabled (R380 to
R382, R386, R389). -/
def Obligations.OctantPower : Prop :=
  ∀ (s : State) (o : Fin 8),
    (∀ (req : Fin 19) (target : Fin 16), s.Takes req → s.rd F.OCTSEL req = o →
      (7 < target.val → Finishes (.octPwrReq req target) s s) ∧
      Finishes (.octPwrReq req target) s (s.pwrRequest o target req) ∧
      (target.val ≤ 7 → (s.octPwr o).step ≠ .idle → (s.octPwr o).test = false →
        ((s.octPwr o).target = target → ∃ u, Finishes (.octPwrReq req target) s u ∧ u.rd F.OCT_PWR_STAT_RESULT o = rsMerged ∧ u.pwr = s.pwr) ∧
        ((s.octPwr o).target ≠ target → ∃ u, Finishes (.octPwrReq req target) s u ∧ (u.octPwr o).pend = some (target.val, req.val) ∧
          u.rd F.OCT_PWR_STAT_PEND o = target ∧ u.rd F.OCT_PWR_STAT_PEND_V o = 1)) ∧
      (target.val ≤ 3 → (s.octPwr o).step = .idle → s.octState o ≤ 3 → (s.octPwr o).queued = none →
        (s.octState o = target → Finishes (.octPwrReq req target) s (s.wr F.OCT_PWR_STAT_RESULT o rsDone)) ∧
        (s.octState o ≠ target → ∃ u, Finishes (.octPwrReq req target) s u ∧ (u.octPwr o).queued = some (target.val, req.val) ∧ u.eff = s.eff))) ∧
    (s.Runs →
      Finishes (.voltageSettled o) s (if (s.octPwr o).step = .raising ∨ (s.octPwr o).step = .exiting
        then s.setOctPwr o { s.octPwr o with step := .settled } else s) ∧
      ((s.octPwr o).step ≠ .lowering → Finishes (.voltageRampDownDone o) s s) ∧
      ((s.octPwr o).step = .lowering → ∃ u, Finishes (.voltageRampDownDone o) s u ∧ (u.octPwr o).step = .idle ∧
        u.rd F.OCT_PWR_STAT_STATE o = (s.octPwr o).level % 16 ∧ u.rd F.OCT_PWR_STAT_RESULT o = rsDone) ∧
      ((s.octPwr o).ticks < 12 ∨ (s.octPwr o).step ∉ [.raising, .lowering] → Finishes (.levelChangeAbort o) s s) ∧
      (12 ≤ (s.octPwr o).ticks → (s.octPwr o).step ∈ [.raising, .lowering] → ∃ u, Finishes (.levelChangeAbort o) s u ∧
        (u.octPwr o).step = .idle ∧ u.rd F.OCT_PWR_STAT_RESULT o = rsAborted ∧ u.rd F.OCT_PWR_STAT_REFUSER o = rfTimer ∧
        (u.octPwr o).level = if (s.octPwr o).step = .lowering then (s.octPwr o).prior else (s.octPwr o).level) ∧
      ((s.octPwr o).step ≠ .save → Finishes (.saveComplete o) s s) ∧
      ((s.octPwr o).step = .save → (s.octPwr o).wake = none →
        Finishes (.saveComplete o) s (s.setOctPwr o { s.octPwr o with step := .saved })) ∧
      ((s.octPwr o).step = .save → (s.octPwr o).test = true →
        Finishes (.saveComplete o) s (s.setOctPwr o { s.octPwr o with step := .saved })) ∧
      ((s.octPwr o).step = .save → (s.octPwr o).wake ≠ none → (s.octPwr o).test = false →
        Finishes (.saveComplete o) s ((s.setOctPwr o { s.octPwr o with step := .reversing }).freeHeld o)) ∧
      (∀ (src : Fin 7) c, src.val ≠ wkSignal → src.val ≠ wkPattern → Finishes (.wakeEvent o src c) s (s.wakeOct o src)) ∧
      (∀ (src : Fin 7) (c : Fin 64) e, src.val = wkSignal ∨ src.val = wkPattern →
        e = (octOf c = o.val ∧ s.on F.CH_PWR_STAT_DOZING c = true ∧
          s.on (if src.val = wkSignal then F.CH_PWR_CTL_WAKE_SIG else F.CH_PWR_CTL_WAKE_PAT) c = true) →
        (¬e → Finishes (.wakeEvent o src c) s s) ∧
        (e → s.octRuns o = true → Finishes (.wakeEvent o src c) s (s.wakeDozer c)) ∧
        (e → s.octRuns o = false → s.wakeEnabled o src = true → Finishes (.wakeEvent o src c) s ((s.wakeOct o src).wakeDozer c)) ∧
        (e → s.octRuns o = false → s.wakeEnabled o src = false → Finishes (.wakeEvent o src c) s s)) ∧
      (∀ c, Finishes (.wakeEvent o 4 c) s (s.wakeOct o wkGpio) ∧ Finishes (.wakeEvent o 6 c) s (s.wakeOct o wkRequest)) ∧
      (∀ c : Fin 64, octOf c = o → s.on F.CH_PWR_STAT_DOZING c = true → s.on F.CH_PWR_CTL_WAKE_SIG c = true → s.octRuns o = true →
        ∃ u, Finishes (.wakeEvent o 1 c) s u ∧ u.on F.CH_PWR_STAT_DOZING c = false ∧ u.on F.CH_PWR_STAT_WOKE c = true ∧ c.val ∈ u.pwr.waking) ∧
      Finishes (.octTimerWake o) s (if s.rd F.OCT_PWR_TIMER o = s.tick32 then s.wakeOct o wkTimer else s) ∧
      (∀ src, s.wakeEnabled o src = true → s.asleep o = true → (s.octPwr o).wake = none → src < 8 →
        (s.wakeOct o src).rd F.OCT_PWR_STAT_WAKE_SRC o = src ∧ ((s.wakeOct o src).octPwr o).wake = some src) ∧
      (∀ src, s.octRuns o = true → s.wakeOct o src = s))

/-- Dozing and device standby: DOZE waits for the boundary, UNDOZE ends a doze at once, and the transmitter follows; a detector takes
only what a dozing channel hears; device standby is refused for the reason given, or the engine stands by and TWIN_ALIVE is low; its
exit starts the engine anew and leaves a doze to go on; a capo bank is 65,536 bytes with the check word of the bytes before it behind
them, a queue 46 bytes of it and a meter 52 (R392, R393, R395 to R398). -/
def Obligations.DozeAndStandby : Prop :=
  ∀ (s : State) (c : Fin 64),
    (∀ req : Fin 19, s.Takes req → Finishes (.doze req) s ((doze req s).foldWrites req F.CH_PWR_CTL.off (s.ppChans req)) ∧
      Finishes (.undoze req) s ((undoze req s).foldWrites req F.CH_PWR_CTL.off (s.ppChans req))) ∧
    (s.Runs → ∀ f (t : Fin 32) b p own, own = (s.role c == roleTerm && p && s.on F.CH_TF_CFG_TID_VALID c && s.rd F.CH_TF_CFG_TID c == t.val) →
      (s.detects c f b = false → own = false ∨ s.rd F.CH_TF_STAT_ALIGN c ≠ alSync → Finishes (.wakePatternMatch c f t b p) s s) ∧
      ((List.range 8).find? (fun n => s.patMatches c n f own) = none → Finishes (.wakePatternMatch c f t b p) s s) ∧
      (∀ n, s.on F.CH_PWR_STAT_DOZING c = true → s.detects c f b = true ∨ (own = true ∧ s.rd F.CH_TF_STAT_ALIGN c = alSync) →
        (List.range 8).find? (fun n => s.patMatches c n f own) = some n →
        Finishes (.wakePatternMatch c f t b p) s
          (wakeEvent (octOf c) wkPattern c ((s.inc F.CH_WAKE_HITS c).wr F.CH_PWR_STAT_PAT c n)))) ∧
    (∀ req : Fin 19, s.Takes req → s.ppChans req = [c.val] →
      (∃ u, Finishes (.doze req) s u ∧ (c.val, req.val) ∈ u.pwr.dozeReq ∧ u.eff = s.eff) ∧
      (∃ u, Finishes (.undoze req) s u ∧ u.on F.CH_PWR_STAT_DOZING c = false ∧ (∀ e ∈ u.pwr.dozeReq, e.1 ≠ c.val) ∧
        (s.on F.CH_PWR_STAT_DOZING c = true → c.val ∈ u.pwr.waking))) ∧
    (s.Runs →
      (s.pwr.waking.contains c.val = false → Finishes (.dozeTxReady c) s s) ∧
      (s.pwr.waking.contains c.val = true → ∃ u, Finishes (.dozeTxReady c) s u ∧ c.val ∉ u.pwr.waking ∧
        (s.rd F.CH_LANE_STAT_PWR c = pwrRxOnly → u.rd F.CH_LANE_STAT_PWR c = pwrOn)) ∧
      (∀ f t b p, s.on F.CH_PWR_STAT_DOZING c = false → Finishes (.wakePatternMatch c f t b p) s s) ∧
      (∀ f t b p n, s.on F.CH_PWR_STAT_DOZING c = true → s.detects c f b = true → s.role c ≠ roleTerm →
        (List.range 8).find? (fun n => s.patMatches c n f false) = some n → s.on F.CH_PWR_CTL_WAKE_PAT c = false →
        ∃ u, Finishes (.wakePatternMatch c f t b p) s u ∧ u.rd F.CH_PWR_STAT_PAT c = n ∧
          u.rd F.CH_WAKE_HITS c = min (s.rd F.CH_WAKE_HITS c + 1) (2 ^ 32 - 1) ∧ u.on F.CH_PWR_STAT_DOZING c = true)) ∧
    (∀ req : Fin 19, s.Takes req →
      (∀ r, s.dsRefuser req = some r → r < 8 → ∃ u, Finishes (.dsRequest req) s u ∧ u.rd F.PWR_DS_CTL_REFUSER 0 = r ∧
        u.rd F.PWR_DS_CTL_RESULT 0 = 2 ∧ u.pwr = s.pwr) ∧
      (s.dsRefuser req = none → ∃ u, Finishes (.dsRequest req) s u ∧ u.pwr.standby = true ∧ u.isHeld = true ∧ u.twin.high = false ∧
        u.pwr.capoEff = u.eff)) ∧
    (s.inStandby = true → ∀ f (t : Fin 32) b p, Finishes (.wakePatternMatch c f t b p) s (wakePatternMatch c f t b p s) ∧
      (wakePatternMatch c f t b p s).isHeld = true) ∧
    (∀ bad, s.pwr.standby = false ∨ s.pwr.off = true ∨ s.pwr.tripped = true ∨ s.pwr.input = true → Finishes (.dsExit bad) s s) ∧
    (∀ bad, s.pwr.standby = true → s.pwr.off = false → s.pwr.tripped = false → s.pwr.input = false → ∃ u, Finishes (.dsExit bad) s u ∧
      u.pwr.standby = false ∧ u.phase = phReset ∧ u.rd F.PWR_DS_CTL_RESULT 0 = 1 ∧ u.pwr.capoEff = s.pwr.capoEff ∧
      u.rd F.IMG_STAT_SLOT 0 = s.rd F.IMG_STAT_SLOT 0 ∧ u.host.msixTab = s.host.msixTab ∧
      (u.on F.CH_PWR_STAT_DOZING c = s.on F.CH_PWR_STAT_DOZING c) ∧
      (s.on F.CH_PWR_STAT_DOZING c = true → u.rd F.CH_LANE_STAT_PWR c = pwrRxOnly)) ∧
    (∀ b, (s.capoBank b).length = 65536 ∧ (s.capoBank b).drop 65532 = toBytes (bytesLE 4 (crc32c ((s.capoBank b).take 65532)))) ∧
    (∀ q < 4096, (s.queueSave q).length = 46) ∧ (∀ m < 16384, (s.meterSave m).length = 52)

/-! ### Faults, tests and inputs (16_faults_test) -/

/-- A lasting fault ends once no event lies in its window, or by CLEAR, which empties the window; UNDO ends the effect of ISOLATE. A
test is refused while one runs, and its end shows its result. An input not held is a glitch; a level accepted is shown; chatter and
a stuck input end and begin as their counts say (R402 to R404, R414, R415, R418 to R421). -/
def Obligations.FaultsAndInputs : Prop :=
  ∀ (s : State),
    (s.Runs →
      (∀ (src : Fin 16) (inst : Fin 256),
        ((s.watchOf src inst).ticks.any (s.within src) = true ∨ (s.watchOf src inst).lasting = false → Finishes (.lastingEnd src inst) s s) ∧
        ((s.watchOf src inst).ticks.any (s.within src) = false → (s.watchOf src inst).lasting = true → ∃ u, Finishes (.lastingEnd src inst) s u ∧
          (u.watchOf src inst).lasting = false ∧ u.flt.cycle.length = s.flt.cycle.length + 1 ∧ u.eff = s.eff)) ∧
      (∀ pass addr, s.flt.bist = none → Finishes (.testFinished pass addr) s s) ∧
      (∀ pass addr b, s.flt.bist = some b → b.2.2 ≠ 2 → Finishes (.testFinished pass addr) s s) ∧
      (∀ pass addr b res a, s.flt.bist = some b → b.2.2 = 2 → res = (if pass = true then 1 else 2) → a = (if pass = true then 0 else addr.toNat) →
        (b.1 ≤ 2 → Finishes (.testFinished pass addr) s
          ((s.bistDone (if (s.octPwr b.2.1).wake.isSome then 3 else res) a).testExit b.2.1)) ∧
        (b.1 = 3 → Finishes (.testFinished pass addr) s ((s.bistDone res a).useDevice b.2.1 useOut)) ∧
        (3 < b.1 → Finishes (.testFinished pass addr) s (s.bistDone res a))) ∧
      (∀ pass addr (i : Fin 16), s.flt.bist = some (4, i.val, 2) → ∃ u, Finishes (.testFinished pass addr) s u ∧ u.flt.bist = none ∧
        u.on F.FLT_BIST_STAT_BUSY 0 = false ∧ u.rd F.FLT_BIST_STAT_RESULT 0 = (if pass then 1 else 2) ∧
        u.rd F.FLT_BIST_ERR 0 = if pass then 0 else addr.toNat) ∧
      (∀ (i : Fin 20) active held,
        ((s.inputOf i).level = active → Finishes (.inputTransition i active held) s s) ∧
        ((s.inputOf i).level ≠ active → Finishes (.inputTransition i active false) s
          (if s.on (F.FLT_IN_CFG_EN i) (inputInst i) then s.inc (F.FLT_IN_GLITCH i) 0 else s)) ∧
        ((s.inputOf i).level ≠ active → s.on (F.FLT_IN_CFG_EN i) (inputInst i) = true → active = true →
          Finishes (.inputTransition i active true) s ((s.inputLevel i true).inputActive i)) ∧
        ((s.inputOf i).level ≠ active → s.on (F.FLT_IN_CFG_EN i) (inputInst i) = false ∨ active = false →
          ∃ u, Finishes (.inputTransition i active true) s u ∧ (u.inputOf i).level = active ∧
            u.on (F.FLT_IN_STAT_ACTIVE i) (inputInst i) = active)) ∧
      (∀ i : Fin 20, (s.on (F.FLT_IN_STAT_CHATTER i) (inputInst i) = false ∨ (s.inputOf i).quiet ≠ 2 → Finishes (.chatterEnd i) s s) ∧
        (s.on (F.FLT_IN_STAT_CHATTER i) (inputInst i) = true → (s.inputOf i).quiet = 2 → ∃ u, Finishes (.chatterEnd i) s u ∧
          u.on (F.FLT_IN_STAT_CHATTER i) (inputInst i) = false ∧ u.flt.cycle.length = s.flt.cycle.length + 1)) ∧
      (∀ i : Fin 20, (s.inputOf i).level = false ∨ s.on (F.FLT_IN_STAT_STUCK i) (inputInst i) = true ∨
          s.on (F.FLT_IN_CFG_LEVEL i) (inputInst i) = false ∨ s.on (F.FLT_IN_CFG_EN i) (inputInst i) = false ∨
          s.eng.tick < (s.inputOf i).since + 16 * max 1 (s.rd (F.FLT_IN_CFG_STUCK_TICKS i) (inputInst i)) →
        Finishes (.inputStuck i) s s) ∧
      (∀ i : Fin 20, s.on (F.FLT_IN_CFG_EN i) (inputInst i) = true → s.on (F.FLT_IN_CFG_LEVEL i) (inputInst i) = true →
        (s.inputOf i).level = true → s.on (F.FLT_IN_STAT_STUCK i) (inputInst i) = false →
        (s.inputOf i).since + 16 * max 1 (s.rd (F.FLT_IN_CFG_STUCK_TICKS i) (inputInst i)) ≤ s.eng.tick →
        Finishes (.inputStuck i) s (((s.wr (F.FLT_IN_STAT_STUCK i) (inputInst i) 1).log 0x0C04 engineReq i []).watch fsInput i))) ∧
    (∀ req : Fin 19, s.Takes req →
      (∀ src inst, s.rd F.FLT_SRC_SEL_SRC req = src → s.rd F.FLT_SRC_SEL_INST req = inst →
        (16 ≤ src → Finishes (.clear req) s s ∧ Finishes (.undo req) s s) ∧
        (src < 16 → ∃ u, Finishes (.clear req) s u ∧ (u.watchOf src inst).ticks = [] ∧ (u.watchOf src inst).lasting = false ∧ u.eff = s.eff) ∧
        (src ≠ fsLockLoss → src ≠ fsSfSet → Finishes (.undo req) s s) ∧
        (src = fsLockLoss ∨ src = fsSfSet → ∃ u, Finishes (.undo req) s u ∧ (u.watchOf src inst).effect = false ∧
          u = { s with flt := u.flt })) ∧
      (∀ kind idx, Finishes (.bistRequest req kind idx) s ((bistRequest req kind idx s).foldWrites req F.FLT_BIST_CTL.off [0]) ∧
        (∀ r, s.on F.FLT_BIST_STAT_BUSY 0 = false → s.bistRefuser req kind idx = some r → r < 8 → ∃ u,
          Finishes (.bistRequest req kind idx) s u ∧ u.rd F.FLT_BIST_STAT_REFUSED 0 = 1 ∧ u.rd F.FLT_BIST_STAT_REFUSER 0 = r ∧
          u.flt = s.flt ∧ u.out = s.out) ∧
        (s.on F.FLT_BIST_STAT_BUSY 0 = true → ∃ u, Finishes (.bistRequest req kind idx) s u ∧ u.rd F.FLT_BIST_STAT_REFUSED 0 = 1 ∧
          u.flt = s.flt ∧ u.out = s.out) ∧
        (s.on F.FLT_BIST_STAT_BUSY 0 = false → kind.val = 4 → s.coreOnline idx = false → s.on (F.TDS_CORE_STAT_RUN idx) 0 = false →
          ∃ u, Finishes (.bistRequest req kind idx) s u ∧ u.flt.bist = some (4, idx.val, 2) ∧ u.out = .bist 4 idx :: s.out ∧
            u.on F.FLT_BIST_STAT_BUSY 0 = true ∧ u.rd F.FLT_BIST_STAT_REFUSED 0 = 0)))
end

