-- ==== Sys2Proof/Laws/State.lean ====
section
/-!
SUPPORT. What each update of the state leaves alone, one lemma for each field, all true by rfl, so that no proof unfolds
a record update.
-/

namespace Sys2Proof.Machine

@[simp] theorem State.setReg_shd (s : State) (i o : Nat) (w : Word) : (s.setReg i o w).shd = s.shd := rfl
@[simp] theorem State.setReg_snap (s : State) (i o : Nat) (w : Word) : (s.setReg i o w).snap = s.snap := rfl
@[simp] theorem State.setReg_same (s : State) (i o : Nat) (w : Word) : (s.setReg i o w).same = s.same := rfl
@[simp] theorem State.setReg_eng (s : State) (i o : Nat) (w : Word) : (s.setReg i o w).eng = s.eng := rfl
@[simp] theorem State.setReg_lanes (s : State) (i o : Nat) (w : Word) : (s.setReg i o w).lanes = s.lanes := rfl
@[simp] theorem State.setReg_framers (s : State) (i o : Nat) (w : Word) : (s.setReg i o w).framers = s.framers := rfl
@[simp] theorem State.setReg_trees (s : State) (i o : Nat) (w : Word) : (s.setReg i o w).trees = s.trees := rfl
@[simp] theorem State.setReg_cls (s : State) (i o : Nat) (w : Word) : (s.setReg i o w).cls = s.cls := rfl
@[simp] theorem State.setReg_store (s : State) (i o : Nat) (w : Word) : (s.setReg i o w).store = s.store := rfl
@[simp] theorem State.setReg_egress (s : State) (i o : Nat) (w : Word) : (s.setReg i o w).egress = s.egress := rfl
@[simp] theorem State.setReg_pegs (s : State) (i o : Nat) (w : Word) : (s.setReg i o w).pegs = s.pegs := rfl
@[simp] theorem State.setReg_host (s : State) (i o : Nat) (w : Word) : (s.setReg i o w).host = s.host := rfl
@[simp] theorem State.setReg_mem (s : State) (i o : Nat) (w : Word) : (s.setReg i o w).mem = s.mem := rfl
@[simp] theorem State.setReg_tds (s : State) (i o : Nat) (w : Word) : (s.setReg i o w).tds = s.tds := rfl
@[simp] theorem State.setReg_twin (s : State) (i o : Nat) (w : Word) : (s.setReg i o w).twin = s.twin := rfl
@[simp] theorem State.setReg_img (s : State) (i o : Nat) (w : Word) : (s.setReg i o w).img = s.img := rfl
@[simp] theorem State.setReg_pwr (s : State) (i o : Nat) (w : Word) : (s.setReg i o w).pwr = s.pwr := rfl
@[simp] theorem State.setReg_flt (s : State) (i o : Nat) (w : Word) : (s.setReg i o w).flt = s.flt := rfl
@[simp] theorem State.setReg_out (s : State) (i o : Nat) (w : Word) : (s.setReg i o w).out = s.out := rfl
@[simp] theorem State.setReg_rdata (s : State) (i o : Nat) (w : Word) : (s.setReg i o w).rdata = s.rdata := rfl
@[simp] theorem State.setReg_free (s : State) (i o : Nat) (w : Word) : (s.setReg i o w).free = s.free := rfl
@[simp] theorem State.setReg_pending (s : State) (i o : Nat) (w : Word) : (s.setReg i o w).pending = s.pending := rfl

@[simp] theorem State.setShadow_eff (s : State) (i o : Nat) (w : Word) : (s.setShadow i o w).eff = s.eff := rfl
@[simp] theorem State.setShadow_snap (s : State) (i o : Nat) (w : Word) : (s.setShadow i o w).snap = s.snap := rfl
@[simp] theorem State.setShadow_same (s : State) (i o : Nat) (w : Word) : (s.setShadow i o w).same = s.same := rfl
@[simp] theorem State.setShadow_eng (s : State) (i o : Nat) (w : Word) : (s.setShadow i o w).eng = s.eng := rfl
@[simp] theorem State.setShadow_lanes (s : State) (i o : Nat) (w : Word) : (s.setShadow i o w).lanes = s.lanes := rfl
@[simp] theorem State.setShadow_framers (s : State) (i o : Nat) (w : Word) : (s.setShadow i o w).framers = s.framers := rfl
@[simp] theorem State.setShadow_trees (s : State) (i o : Nat) (w : Word) : (s.setShadow i o w).trees = s.trees := rfl
@[simp] theorem State.setShadow_cls (s : State) (i o : Nat) (w : Word) : (s.setShadow i o w).cls = s.cls := rfl
@[simp] theorem State.setShadow_store (s : State) (i o : Nat) (w : Word) : (s.setShadow i o w).store = s.store := rfl
@[simp] theorem State.setShadow_egress (s : State) (i o : Nat) (w : Word) : (s.setShadow i o w).egress = s.egress := rfl
@[simp] theorem State.setShadow_pegs (s : State) (i o : Nat) (w : Word) : (s.setShadow i o w).pegs = s.pegs := rfl
@[simp] theorem State.setShadow_host (s : State) (i o : Nat) (w : Word) : (s.setShadow i o w).host = s.host := rfl
@[simp] theorem State.setShadow_mem (s : State) (i o : Nat) (w : Word) : (s.setShadow i o w).mem = s.mem := rfl
@[simp] theorem State.setShadow_tds (s : State) (i o : Nat) (w : Word) : (s.setShadow i o w).tds = s.tds := rfl
@[simp] theorem State.setShadow_twin (s : State) (i o : Nat) (w : Word) : (s.setShadow i o w).twin = s.twin := rfl
@[simp] theorem State.setShadow_img (s : State) (i o : Nat) (w : Word) : (s.setShadow i o w).img = s.img := rfl
@[simp] theorem State.setShadow_pwr (s : State) (i o : Nat) (w : Word) : (s.setShadow i o w).pwr = s.pwr := rfl
@[simp] theorem State.setShadow_flt (s : State) (i o : Nat) (w : Word) : (s.setShadow i o w).flt = s.flt := rfl
@[simp] theorem State.setShadow_out (s : State) (i o : Nat) (w : Word) : (s.setShadow i o w).out = s.out := rfl
@[simp] theorem State.setShadow_rdata (s : State) (i o : Nat) (w : Word) : (s.setShadow i o w).rdata = s.rdata := rfl
@[simp] theorem State.setShadow_free (s : State) (i o : Nat) (w : Word) : (s.setShadow i o w).free = s.free := rfl
@[simp] theorem State.setShadow_pending (s : State) (i o : Nat) (w : Word) : (s.setShadow i o w).pending = s.pending := rfl

@[simp] theorem State.emit_eff (s : State) (o : Out) : (s.emit o).eff = s.eff := rfl
@[simp] theorem State.emit_shd (s : State) (o : Out) : (s.emit o).shd = s.shd := rfl
@[simp] theorem State.emit_snap (s : State) (o : Out) : (s.emit o).snap = s.snap := rfl
@[simp] theorem State.emit_same (s : State) (o : Out) : (s.emit o).same = s.same := rfl
@[simp] theorem State.emit_eng (s : State) (o : Out) : (s.emit o).eng = s.eng := rfl
@[simp] theorem State.emit_lanes (s : State) (o : Out) : (s.emit o).lanes = s.lanes := rfl
@[simp] theorem State.emit_framers (s : State) (o : Out) : (s.emit o).framers = s.framers := rfl
@[simp] theorem State.emit_trees (s : State) (o : Out) : (s.emit o).trees = s.trees := rfl
@[simp] theorem State.emit_cls (s : State) (o : Out) : (s.emit o).cls = s.cls := rfl
@[simp] theorem State.emit_store (s : State) (o : Out) : (s.emit o).store = s.store := rfl
@[simp] theorem State.emit_egress (s : State) (o : Out) : (s.emit o).egress = s.egress := rfl
@[simp] theorem State.emit_pegs (s : State) (o : Out) : (s.emit o).pegs = s.pegs := rfl
@[simp] theorem State.emit_host (s : State) (o : Out) : (s.emit o).host = s.host := rfl
@[simp] theorem State.emit_mem (s : State) (o : Out) : (s.emit o).mem = s.mem := rfl
@[simp] theorem State.emit_tds (s : State) (o : Out) : (s.emit o).tds = s.tds := rfl
@[simp] theorem State.emit_twin (s : State) (o : Out) : (s.emit o).twin = s.twin := rfl
@[simp] theorem State.emit_img (s : State) (o : Out) : (s.emit o).img = s.img := rfl
@[simp] theorem State.emit_pwr (s : State) (o : Out) : (s.emit o).pwr = s.pwr := rfl
@[simp] theorem State.emit_flt (s : State) (o : Out) : (s.emit o).flt = s.flt := rfl
@[simp] theorem State.emit_rdata (s : State) (o : Out) : (s.emit o).rdata = s.rdata := rfl
@[simp] theorem State.emit_free (s : State) (o : Out) : (s.emit o).free = s.free := rfl
@[simp] theorem State.emit_pending (s : State) (o : Out) : (s.emit o).pending = s.pending := rfl
@[simp] theorem State.emit_out (s : State) (o : Out) : (s.emit o).out = o :: s.out := rfl

@[simp] theorem State.setLane_eff (s : State) (l : Nat) (x : Lane) : (s.setLane l x).eff = s.eff := rfl
@[simp] theorem State.setLane_shd (s : State) (l : Nat) (x : Lane) : (s.setLane l x).shd = s.shd := rfl
@[simp] theorem State.setLane_snap (s : State) (l : Nat) (x : Lane) : (s.setLane l x).snap = s.snap := rfl
@[simp] theorem State.setLane_same (s : State) (l : Nat) (x : Lane) : (s.setLane l x).same = s.same := rfl
@[simp] theorem State.setLane_eng (s : State) (l : Nat) (x : Lane) : (s.setLane l x).eng = s.eng := rfl
@[simp] theorem State.setLane_framers (s : State) (l : Nat) (x : Lane) : (s.setLane l x).framers = s.framers := rfl
@[simp] theorem State.setLane_trees (s : State) (l : Nat) (x : Lane) : (s.setLane l x).trees = s.trees := rfl
@[simp] theorem State.setLane_cls (s : State) (l : Nat) (x : Lane) : (s.setLane l x).cls = s.cls := rfl
@[simp] theorem State.setLane_store (s : State) (l : Nat) (x : Lane) : (s.setLane l x).store = s.store := rfl
@[simp] theorem State.setLane_egress (s : State) (l : Nat) (x : Lane) : (s.setLane l x).egress = s.egress := rfl
@[simp] theorem State.setLane_pegs (s : State) (l : Nat) (x : Lane) : (s.setLane l x).pegs = s.pegs := rfl
@[simp] theorem State.setLane_host (s : State) (l : Nat) (x : Lane) : (s.setLane l x).host = s.host := rfl
@[simp] theorem State.setLane_mem (s : State) (l : Nat) (x : Lane) : (s.setLane l x).mem = s.mem := rfl
@[simp] theorem State.setLane_tds (s : State) (l : Nat) (x : Lane) : (s.setLane l x).tds = s.tds := rfl
@[simp] theorem State.setLane_twin (s : State) (l : Nat) (x : Lane) : (s.setLane l x).twin = s.twin := rfl
@[simp] theorem State.setLane_img (s : State) (l : Nat) (x : Lane) : (s.setLane l x).img = s.img := rfl
@[simp] theorem State.setLane_pwr (s : State) (l : Nat) (x : Lane) : (s.setLane l x).pwr = s.pwr := rfl
@[simp] theorem State.setLane_flt (s : State) (l : Nat) (x : Lane) : (s.setLane l x).flt = s.flt := rfl
@[simp] theorem State.setLane_out (s : State) (l : Nat) (x : Lane) : (s.setLane l x).out = s.out := rfl
@[simp] theorem State.setLane_rdata (s : State) (l : Nat) (x : Lane) : (s.setLane l x).rdata = s.rdata := rfl
@[simp] theorem State.setLane_free (s : State) (l : Nat) (x : Lane) : (s.setLane l x).free = s.free := rfl
@[simp] theorem State.setLane_pending (s : State) (l : Nat) (x : Lane) : (s.setLane l x).pending = s.pending := rfl

@[simp] theorem State.modLane_eff (s : State) (l : Nat) (f : Lane → Lane) : (s.modLane l f).eff = s.eff := rfl
@[simp] theorem State.modLane_shd (s : State) (l : Nat) (f : Lane → Lane) : (s.modLane l f).shd = s.shd := rfl
@[simp] theorem State.modLane_snap (s : State) (l : Nat) (f : Lane → Lane) : (s.modLane l f).snap = s.snap := rfl
@[simp] theorem State.modLane_same (s : State) (l : Nat) (f : Lane → Lane) : (s.modLane l f).same = s.same := rfl
@[simp] theorem State.modLane_eng (s : State) (l : Nat) (f : Lane → Lane) : (s.modLane l f).eng = s.eng := rfl
@[simp] theorem State.modLane_framers (s : State) (l : Nat) (f : Lane → Lane) : (s.modLane l f).framers = s.framers := rfl
@[simp] theorem State.modLane_trees (s : State) (l : Nat) (f : Lane → Lane) : (s.modLane l f).trees = s.trees := rfl
@[simp] theorem State.modLane_cls (s : State) (l : Nat) (f : Lane → Lane) : (s.modLane l f).cls = s.cls := rfl
@[simp] theorem State.modLane_store (s : State) (l : Nat) (f : Lane → Lane) : (s.modLane l f).store = s.store := rfl
@[simp] theorem State.modLane_egress (s : State) (l : Nat) (f : Lane → Lane) : (s.modLane l f).egress = s.egress := rfl
@[simp] theorem State.modLane_pegs (s : State) (l : Nat) (f : Lane → Lane) : (s.modLane l f).pegs = s.pegs := rfl
@[simp] theorem State.modLane_host (s : State) (l : Nat) (f : Lane → Lane) : (s.modLane l f).host = s.host := rfl
@[simp] theorem State.modLane_mem (s : State) (l : Nat) (f : Lane → Lane) : (s.modLane l f).mem = s.mem := rfl
@[simp] theorem State.modLane_tds (s : State) (l : Nat) (f : Lane → Lane) : (s.modLane l f).tds = s.tds := rfl
@[simp] theorem State.modLane_twin (s : State) (l : Nat) (f : Lane → Lane) : (s.modLane l f).twin = s.twin := rfl
@[simp] theorem State.modLane_img (s : State) (l : Nat) (f : Lane → Lane) : (s.modLane l f).img = s.img := rfl
@[simp] theorem State.modLane_pwr (s : State) (l : Nat) (f : Lane → Lane) : (s.modLane l f).pwr = s.pwr := rfl
@[simp] theorem State.modLane_flt (s : State) (l : Nat) (f : Lane → Lane) : (s.modLane l f).flt = s.flt := rfl
@[simp] theorem State.modLane_out (s : State) (l : Nat) (f : Lane → Lane) : (s.modLane l f).out = s.out := rfl
@[simp] theorem State.modLane_rdata (s : State) (l : Nat) (f : Lane → Lane) : (s.modLane l f).rdata = s.rdata := rfl
@[simp] theorem State.modLane_free (s : State) (l : Nat) (f : Lane → Lane) : (s.modLane l f).free = s.free := rfl
@[simp] theorem State.modLane_pending (s : State) (l : Nat) (f : Lane → Lane) : (s.modLane l f).pending = s.pending := rfl

@[simp] theorem State.setFramer_eff (s : State) (c : Nat) (x : Framer) : (s.setFramer c x).eff = s.eff := rfl
@[simp] theorem State.setFramer_shd (s : State) (c : Nat) (x : Framer) : (s.setFramer c x).shd = s.shd := rfl
@[simp] theorem State.setFramer_snap (s : State) (c : Nat) (x : Framer) : (s.setFramer c x).snap = s.snap := rfl
@[simp] theorem State.setFramer_same (s : State) (c : Nat) (x : Framer) : (s.setFramer c x).same = s.same := rfl
@[simp] theorem State.setFramer_eng (s : State) (c : Nat) (x : Framer) : (s.setFramer c x).eng = s.eng := rfl
@[simp] theorem State.setFramer_lanes (s : State) (c : Nat) (x : Framer) : (s.setFramer c x).lanes = s.lanes := rfl
@[simp] theorem State.setFramer_trees (s : State) (c : Nat) (x : Framer) : (s.setFramer c x).trees = s.trees := rfl
@[simp] theorem State.setFramer_cls (s : State) (c : Nat) (x : Framer) : (s.setFramer c x).cls = s.cls := rfl
@[simp] theorem State.setFramer_store (s : State) (c : Nat) (x : Framer) : (s.setFramer c x).store = s.store := rfl
@[simp] theorem State.setFramer_egress (s : State) (c : Nat) (x : Framer) : (s.setFramer c x).egress = s.egress := rfl
@[simp] theorem State.setFramer_pegs (s : State) (c : Nat) (x : Framer) : (s.setFramer c x).pegs = s.pegs := rfl
@[simp] theorem State.setFramer_host (s : State) (c : Nat) (x : Framer) : (s.setFramer c x).host = s.host := rfl
@[simp] theorem State.setFramer_mem (s : State) (c : Nat) (x : Framer) : (s.setFramer c x).mem = s.mem := rfl
@[simp] theorem State.setFramer_tds (s : State) (c : Nat) (x : Framer) : (s.setFramer c x).tds = s.tds := rfl
@[simp] theorem State.setFramer_twin (s : State) (c : Nat) (x : Framer) : (s.setFramer c x).twin = s.twin := rfl
@[simp] theorem State.setFramer_img (s : State) (c : Nat) (x : Framer) : (s.setFramer c x).img = s.img := rfl
@[simp] theorem State.setFramer_pwr (s : State) (c : Nat) (x : Framer) : (s.setFramer c x).pwr = s.pwr := rfl
@[simp] theorem State.setFramer_flt (s : State) (c : Nat) (x : Framer) : (s.setFramer c x).flt = s.flt := rfl
@[simp] theorem State.setFramer_out (s : State) (c : Nat) (x : Framer) : (s.setFramer c x).out = s.out := rfl
@[simp] theorem State.setFramer_rdata (s : State) (c : Nat) (x : Framer) : (s.setFramer c x).rdata = s.rdata := rfl
@[simp] theorem State.setFramer_free (s : State) (c : Nat) (x : Framer) : (s.setFramer c x).free = s.free := rfl
@[simp] theorem State.setFramer_pending (s : State) (c : Nat) (x : Framer) : (s.setFramer c x).pending = s.pending := rfl

@[simp] theorem State.modFramer_eff (s : State) (c : Nat) (f : Framer → Framer) : (s.modFramer c f).eff = s.eff := rfl
@[simp] theorem State.modFramer_shd (s : State) (c : Nat) (f : Framer → Framer) : (s.modFramer c f).shd = s.shd := rfl
@[simp] theorem State.modFramer_snap (s : State) (c : Nat) (f : Framer → Framer) : (s.modFramer c f).snap = s.snap := rfl
@[simp] theorem State.modFramer_same (s : State) (c : Nat) (f : Framer → Framer) : (s.modFramer c f).same = s.same := rfl
@[simp] theorem State.modFramer_eng (s : State) (c : Nat) (f : Framer → Framer) : (s.modFramer c f).eng = s.eng := rfl
@[simp] theorem State.modFramer_lanes (s : State) (c : Nat) (f : Framer → Framer) : (s.modFramer c f).lanes = s.lanes := rfl
@[simp] theorem State.modFramer_trees (s : State) (c : Nat) (f : Framer → Framer) : (s.modFramer c f).trees = s.trees := rfl
@[simp] theorem State.modFramer_cls (s : State) (c : Nat) (f : Framer → Framer) : (s.modFramer c f).cls = s.cls := rfl
@[simp] theorem State.modFramer_store (s : State) (c : Nat) (f : Framer → Framer) : (s.modFramer c f).store = s.store := rfl
@[simp] theorem State.modFramer_egress (s : State) (c : Nat) (f : Framer → Framer) : (s.modFramer c f).egress = s.egress := rfl
@[simp] theorem State.modFramer_pegs (s : State) (c : Nat) (f : Framer → Framer) : (s.modFramer c f).pegs = s.pegs := rfl
@[simp] theorem State.modFramer_host (s : State) (c : Nat) (f : Framer → Framer) : (s.modFramer c f).host = s.host := rfl
@[simp] theorem State.modFramer_mem (s : State) (c : Nat) (f : Framer → Framer) : (s.modFramer c f).mem = s.mem := rfl
@[simp] theorem State.modFramer_tds (s : State) (c : Nat) (f : Framer → Framer) : (s.modFramer c f).tds = s.tds := rfl
@[simp] theorem State.modFramer_twin (s : State) (c : Nat) (f : Framer → Framer) : (s.modFramer c f).twin = s.twin := rfl
@[simp] theorem State.modFramer_img (s : State) (c : Nat) (f : Framer → Framer) : (s.modFramer c f).img = s.img := rfl
@[simp] theorem State.modFramer_pwr (s : State) (c : Nat) (f : Framer → Framer) : (s.modFramer c f).pwr = s.pwr := rfl
@[simp] theorem State.modFramer_flt (s : State) (c : Nat) (f : Framer → Framer) : (s.modFramer c f).flt = s.flt := rfl
@[simp] theorem State.modFramer_out (s : State) (c : Nat) (f : Framer → Framer) : (s.modFramer c f).out = s.out := rfl
@[simp] theorem State.modFramer_rdata (s : State) (c : Nat) (f : Framer → Framer) : (s.modFramer c f).rdata = s.rdata := rfl
@[simp] theorem State.modFramer_free (s : State) (c : Nat) (f : Framer → Framer) : (s.modFramer c f).free = s.free := rfl
@[simp] theorem State.modFramer_pending (s : State) (c : Nat) (f : Framer → Framer) : (s.modFramer c f).pending = s.pending := rfl

@[simp] theorem State.setSeq_eff (s : State) (o : Nat) (x : Seq) : (s.setSeq o x).eff = s.eff := rfl
@[simp] theorem State.setSeq_shd (s : State) (o : Nat) (x : Seq) : (s.setSeq o x).shd = s.shd := rfl
@[simp] theorem State.setSeq_snap (s : State) (o : Nat) (x : Seq) : (s.setSeq o x).snap = s.snap := rfl
@[simp] theorem State.setSeq_same (s : State) (o : Nat) (x : Seq) : (s.setSeq o x).same = s.same := rfl
@[simp] theorem State.setSeq_lanes (s : State) (o : Nat) (x : Seq) : (s.setSeq o x).lanes = s.lanes := rfl
@[simp] theorem State.setSeq_framers (s : State) (o : Nat) (x : Seq) : (s.setSeq o x).framers = s.framers := rfl
@[simp] theorem State.setSeq_trees (s : State) (o : Nat) (x : Seq) : (s.setSeq o x).trees = s.trees := rfl
@[simp] theorem State.setSeq_cls (s : State) (o : Nat) (x : Seq) : (s.setSeq o x).cls = s.cls := rfl
@[simp] theorem State.setSeq_store (s : State) (o : Nat) (x : Seq) : (s.setSeq o x).store = s.store := rfl
@[simp] theorem State.setSeq_egress (s : State) (o : Nat) (x : Seq) : (s.setSeq o x).egress = s.egress := rfl
@[simp] theorem State.setSeq_pegs (s : State) (o : Nat) (x : Seq) : (s.setSeq o x).pegs = s.pegs := rfl
@[simp] theorem State.setSeq_host (s : State) (o : Nat) (x : Seq) : (s.setSeq o x).host = s.host := rfl
@[simp] theorem State.setSeq_mem (s : State) (o : Nat) (x : Seq) : (s.setSeq o x).mem = s.mem := rfl
@[simp] theorem State.setSeq_tds (s : State) (o : Nat) (x : Seq) : (s.setSeq o x).tds = s.tds := rfl
@[simp] theorem State.setSeq_twin (s : State) (o : Nat) (x : Seq) : (s.setSeq o x).twin = s.twin := rfl
@[simp] theorem State.setSeq_img (s : State) (o : Nat) (x : Seq) : (s.setSeq o x).img = s.img := rfl
@[simp] theorem State.setSeq_pwr (s : State) (o : Nat) (x : Seq) : (s.setSeq o x).pwr = s.pwr := rfl
@[simp] theorem State.setSeq_flt (s : State) (o : Nat) (x : Seq) : (s.setSeq o x).flt = s.flt := rfl
@[simp] theorem State.setSeq_out (s : State) (o : Nat) (x : Seq) : (s.setSeq o x).out = s.out := rfl
@[simp] theorem State.setSeq_rdata (s : State) (o : Nat) (x : Seq) : (s.setSeq o x).rdata = s.rdata := rfl
@[simp] theorem State.setSeq_free (s : State) (o : Nat) (x : Seq) : (s.setSeq o x).free = s.free := rfl
@[simp] theorem State.setSeq_pending (s : State) (o : Nat) (x : Seq) : (s.setSeq o x).pending = s.pending := rfl

@[simp] theorem State.wr_shd (s : State) (f : Fld) (i v : Nat) : (s.wr f i v).shd = s.shd := rfl
@[simp] theorem State.wr_snap (s : State) (f : Fld) (i v : Nat) : (s.wr f i v).snap = s.snap := rfl
@[simp] theorem State.wr_same (s : State) (f : Fld) (i v : Nat) : (s.wr f i v).same = s.same := rfl
@[simp] theorem State.wr_eng (s : State) (f : Fld) (i v : Nat) : (s.wr f i v).eng = s.eng := rfl
@[simp] theorem State.wr_lanes (s : State) (f : Fld) (i v : Nat) : (s.wr f i v).lanes = s.lanes := rfl
@[simp] theorem State.wr_framers (s : State) (f : Fld) (i v : Nat) : (s.wr f i v).framers = s.framers := rfl
@[simp] theorem State.wr_trees (s : State) (f : Fld) (i v : Nat) : (s.wr f i v).trees = s.trees := rfl
@[simp] theorem State.wr_cls (s : State) (f : Fld) (i v : Nat) : (s.wr f i v).cls = s.cls := rfl
@[simp] theorem State.wr_store (s : State) (f : Fld) (i v : Nat) : (s.wr f i v).store = s.store := rfl
@[simp] theorem State.wr_egress (s : State) (f : Fld) (i v : Nat) : (s.wr f i v).egress = s.egress := rfl
@[simp] theorem State.wr_pegs (s : State) (f : Fld) (i v : Nat) : (s.wr f i v).pegs = s.pegs := rfl
@[simp] theorem State.wr_host (s : State) (f : Fld) (i v : Nat) : (s.wr f i v).host = s.host := rfl
@[simp] theorem State.wr_mem (s : State) (f : Fld) (i v : Nat) : (s.wr f i v).mem = s.mem := rfl
@[simp] theorem State.wr_tds (s : State) (f : Fld) (i v : Nat) : (s.wr f i v).tds = s.tds := rfl
@[simp] theorem State.wr_twin (s : State) (f : Fld) (i v : Nat) : (s.wr f i v).twin = s.twin := rfl
@[simp] theorem State.wr_img (s : State) (f : Fld) (i v : Nat) : (s.wr f i v).img = s.img := rfl
@[simp] theorem State.wr_pwr (s : State) (f : Fld) (i v : Nat) : (s.wr f i v).pwr = s.pwr := rfl
@[simp] theorem State.wr_flt (s : State) (f : Fld) (i v : Nat) : (s.wr f i v).flt = s.flt := rfl
@[simp] theorem State.wr_out (s : State) (f : Fld) (i v : Nat) : (s.wr f i v).out = s.out := rfl
@[simp] theorem State.wr_rdata (s : State) (f : Fld) (i v : Nat) : (s.wr f i v).rdata = s.rdata := rfl
@[simp] theorem State.wr_free (s : State) (f : Fld) (i v : Nat) : (s.wr f i v).free = s.free := rfl
@[simp] theorem State.wr_pending (s : State) (f : Fld) (i v : Nat) : (s.wr f i v).pending = s.pending := rfl

@[simp] theorem State.wrB_shd (s : State) (f : Fld) (i : Nat) (b : Bool) : (s.wrB f i b).shd = s.shd := rfl
@[simp] theorem State.wrB_snap (s : State) (f : Fld) (i : Nat) (b : Bool) : (s.wrB f i b).snap = s.snap := rfl
@[simp] theorem State.wrB_same (s : State) (f : Fld) (i : Nat) (b : Bool) : (s.wrB f i b).same = s.same := rfl
@[simp] theorem State.wrB_eng (s : State) (f : Fld) (i : Nat) (b : Bool) : (s.wrB f i b).eng = s.eng := rfl
@[simp] theorem State.wrB_lanes (s : State) (f : Fld) (i : Nat) (b : Bool) : (s.wrB f i b).lanes = s.lanes := rfl
@[simp] theorem State.wrB_framers (s : State) (f : Fld) (i : Nat) (b : Bool) : (s.wrB f i b).framers = s.framers := rfl
@[simp] theorem State.wrB_trees (s : State) (f : Fld) (i : Nat) (b : Bool) : (s.wrB f i b).trees = s.trees := rfl
@[simp] theorem State.wrB_cls (s : State) (f : Fld) (i : Nat) (b : Bool) : (s.wrB f i b).cls = s.cls := rfl
@[simp] theorem State.wrB_store (s : State) (f : Fld) (i : Nat) (b : Bool) : (s.wrB f i b).store = s.store := rfl
@[simp] theorem State.wrB_egress (s : State) (f : Fld) (i : Nat) (b : Bool) : (s.wrB f i b).egress = s.egress := rfl
@[simp] theorem State.wrB_pegs (s : State) (f : Fld) (i : Nat) (b : Bool) : (s.wrB f i b).pegs = s.pegs := rfl
@[simp] theorem State.wrB_host (s : State) (f : Fld) (i : Nat) (b : Bool) : (s.wrB f i b).host = s.host := rfl
@[simp] theorem State.wrB_mem (s : State) (f : Fld) (i : Nat) (b : Bool) : (s.wrB f i b).mem = s.mem := rfl
@[simp] theorem State.wrB_tds (s : State) (f : Fld) (i : Nat) (b : Bool) : (s.wrB f i b).tds = s.tds := rfl
@[simp] theorem State.wrB_twin (s : State) (f : Fld) (i : Nat) (b : Bool) : (s.wrB f i b).twin = s.twin := rfl
@[simp] theorem State.wrB_img (s : State) (f : Fld) (i : Nat) (b : Bool) : (s.wrB f i b).img = s.img := rfl
@[simp] theorem State.wrB_pwr (s : State) (f : Fld) (i : Nat) (b : Bool) : (s.wrB f i b).pwr = s.pwr := rfl
@[simp] theorem State.wrB_flt (s : State) (f : Fld) (i : Nat) (b : Bool) : (s.wrB f i b).flt = s.flt := rfl
@[simp] theorem State.wrB_out (s : State) (f : Fld) (i : Nat) (b : Bool) : (s.wrB f i b).out = s.out := rfl
@[simp] theorem State.wrB_rdata (s : State) (f : Fld) (i : Nat) (b : Bool) : (s.wrB f i b).rdata = s.rdata := rfl
@[simp] theorem State.wrB_free (s : State) (f : Fld) (i : Nat) (b : Bool) : (s.wrB f i b).free = s.free := rfl
@[simp] theorem State.wrB_pending (s : State) (f : Fld) (i : Nat) (b : Bool) : (s.wrB f i b).pending = s.pending := rfl

@[simp] theorem State.addN_shd (s : State) (f : Fld) (i n : Nat) : (s.addN f i n).shd = s.shd := rfl
@[simp] theorem State.addN_snap (s : State) (f : Fld) (i n : Nat) : (s.addN f i n).snap = s.snap := rfl
@[simp] theorem State.addN_same (s : State) (f : Fld) (i n : Nat) : (s.addN f i n).same = s.same := rfl
@[simp] theorem State.addN_eng (s : State) (f : Fld) (i n : Nat) : (s.addN f i n).eng = s.eng := rfl
@[simp] theorem State.addN_lanes (s : State) (f : Fld) (i n : Nat) : (s.addN f i n).lanes = s.lanes := rfl
@[simp] theorem State.addN_framers (s : State) (f : Fld) (i n : Nat) : (s.addN f i n).framers = s.framers := rfl
@[simp] theorem State.addN_trees (s : State) (f : Fld) (i n : Nat) : (s.addN f i n).trees = s.trees := rfl
@[simp] theorem State.addN_cls (s : State) (f : Fld) (i n : Nat) : (s.addN f i n).cls = s.cls := rfl
@[simp] theorem State.addN_store (s : State) (f : Fld) (i n : Nat) : (s.addN f i n).store = s.store := rfl
@[simp] theorem State.addN_egress (s : State) (f : Fld) (i n : Nat) : (s.addN f i n).egress = s.egress := rfl
@[simp] theorem State.addN_pegs (s : State) (f : Fld) (i n : Nat) : (s.addN f i n).pegs = s.pegs := rfl
@[simp] theorem State.addN_host (s : State) (f : Fld) (i n : Nat) : (s.addN f i n).host = s.host := rfl
@[simp] theorem State.addN_mem (s : State) (f : Fld) (i n : Nat) : (s.addN f i n).mem = s.mem := rfl
@[simp] theorem State.addN_tds (s : State) (f : Fld) (i n : Nat) : (s.addN f i n).tds = s.tds := rfl
@[simp] theorem State.addN_twin (s : State) (f : Fld) (i n : Nat) : (s.addN f i n).twin = s.twin := rfl
@[simp] theorem State.addN_img (s : State) (f : Fld) (i n : Nat) : (s.addN f i n).img = s.img := rfl
@[simp] theorem State.addN_pwr (s : State) (f : Fld) (i n : Nat) : (s.addN f i n).pwr = s.pwr := rfl
@[simp] theorem State.addN_flt (s : State) (f : Fld) (i n : Nat) : (s.addN f i n).flt = s.flt := rfl
@[simp] theorem State.addN_out (s : State) (f : Fld) (i n : Nat) : (s.addN f i n).out = s.out := rfl
@[simp] theorem State.addN_rdata (s : State) (f : Fld) (i n : Nat) : (s.addN f i n).rdata = s.rdata := rfl
@[simp] theorem State.addN_free (s : State) (f : Fld) (i n : Nat) : (s.addN f i n).free = s.free := rfl
@[simp] theorem State.addN_pending (s : State) (f : Fld) (i n : Nat) : (s.addN f i n).pending = s.pending := rfl

@[simp] theorem State.inc_shd (s : State) (f : Fld) (i : Nat) : (s.inc f i).shd = s.shd := rfl
@[simp] theorem State.inc_snap (s : State) (f : Fld) (i : Nat) : (s.inc f i).snap = s.snap := rfl
@[simp] theorem State.inc_same (s : State) (f : Fld) (i : Nat) : (s.inc f i).same = s.same := rfl
@[simp] theorem State.inc_eng (s : State) (f : Fld) (i : Nat) : (s.inc f i).eng = s.eng := rfl
@[simp] theorem State.inc_lanes (s : State) (f : Fld) (i : Nat) : (s.inc f i).lanes = s.lanes := rfl
@[simp] theorem State.inc_framers (s : State) (f : Fld) (i : Nat) : (s.inc f i).framers = s.framers := rfl
@[simp] theorem State.inc_trees (s : State) (f : Fld) (i : Nat) : (s.inc f i).trees = s.trees := rfl
@[simp] theorem State.inc_cls (s : State) (f : Fld) (i : Nat) : (s.inc f i).cls = s.cls := rfl
@[simp] theorem State.inc_store (s : State) (f : Fld) (i : Nat) : (s.inc f i).store = s.store := rfl
@[simp] theorem State.inc_egress (s : State) (f : Fld) (i : Nat) : (s.inc f i).egress = s.egress := rfl
@[simp] theorem State.inc_pegs (s : State) (f : Fld) (i : Nat) : (s.inc f i).pegs = s.pegs := rfl
@[simp] theorem State.inc_host (s : State) (f : Fld) (i : Nat) : (s.inc f i).host = s.host := rfl
@[simp] theorem State.inc_mem (s : State) (f : Fld) (i : Nat) : (s.inc f i).mem = s.mem := rfl
@[simp] theorem State.inc_tds (s : State) (f : Fld) (i : Nat) : (s.inc f i).tds = s.tds := rfl
@[simp] theorem State.inc_twin (s : State) (f : Fld) (i : Nat) : (s.inc f i).twin = s.twin := rfl
@[simp] theorem State.inc_img (s : State) (f : Fld) (i : Nat) : (s.inc f i).img = s.img := rfl
@[simp] theorem State.inc_pwr (s : State) (f : Fld) (i : Nat) : (s.inc f i).pwr = s.pwr := rfl
@[simp] theorem State.inc_flt (s : State) (f : Fld) (i : Nat) : (s.inc f i).flt = s.flt := rfl
@[simp] theorem State.inc_out (s : State) (f : Fld) (i : Nat) : (s.inc f i).out = s.out := rfl
@[simp] theorem State.inc_rdata (s : State) (f : Fld) (i : Nat) : (s.inc f i).rdata = s.rdata := rfl
@[simp] theorem State.inc_free (s : State) (f : Fld) (i : Nat) : (s.inc f i).free = s.free := rfl
@[simp] theorem State.inc_pending (s : State) (f : Fld) (i : Nat) : (s.inc f i).pending = s.pending := rfl

@[simp] theorem State.log_eff (s : State) (code req index : Nat) (data : List Nat) : (s.log code req index data).eff = s.eff := rfl
@[simp] theorem State.log_shd (s : State) (code req index : Nat) (data : List Nat) : (s.log code req index data).shd = s.shd := rfl
@[simp] theorem State.log_snap (s : State) (code req index : Nat) (data : List Nat) : (s.log code req index data).snap = s.snap := rfl
@[simp] theorem State.log_same (s : State) (code req index : Nat) (data : List Nat) : (s.log code req index data).same = s.same := rfl
@[simp] theorem State.log_eng (s : State) (code req index : Nat) (data : List Nat) : (s.log code req index data).eng = s.eng := rfl
@[simp] theorem State.log_lanes (s : State) (code req index : Nat) (data : List Nat) : (s.log code req index data).lanes = s.lanes := rfl
@[simp] theorem State.log_framers (s : State) (code req index : Nat) (data : List Nat) : (s.log code req index data).framers = s.framers := rfl
@[simp] theorem State.log_trees (s : State) (code req index : Nat) (data : List Nat) : (s.log code req index data).trees = s.trees := rfl
@[simp] theorem State.log_cls (s : State) (code req index : Nat) (data : List Nat) : (s.log code req index data).cls = s.cls := rfl
@[simp] theorem State.log_store (s : State) (code req index : Nat) (data : List Nat) : (s.log code req index data).store = s.store := rfl
@[simp] theorem State.log_egress (s : State) (code req index : Nat) (data : List Nat) : (s.log code req index data).egress = s.egress := rfl
@[simp] theorem State.log_pegs (s : State) (code req index : Nat) (data : List Nat) : (s.log code req index data).pegs = s.pegs := rfl
@[simp] theorem State.log_host (s : State) (code req index : Nat) (data : List Nat) : (s.log code req index data).host = s.host := rfl
@[simp] theorem State.log_mem (s : State) (code req index : Nat) (data : List Nat) : (s.log code req index data).mem = s.mem := rfl
@[simp] theorem State.log_tds (s : State) (code req index : Nat) (data : List Nat) : (s.log code req index data).tds = s.tds := rfl
@[simp] theorem State.log_twin (s : State) (code req index : Nat) (data : List Nat) : (s.log code req index data).twin = s.twin := rfl
@[simp] theorem State.log_img (s : State) (code req index : Nat) (data : List Nat) : (s.log code req index data).img = s.img := rfl
@[simp] theorem State.log_pwr (s : State) (code req index : Nat) (data : List Nat) : (s.log code req index data).pwr = s.pwr := rfl
@[simp] theorem State.log_out (s : State) (code req index : Nat) (data : List Nat) : (s.log code req index data).out = s.out := rfl
@[simp] theorem State.log_rdata (s : State) (code req index : Nat) (data : List Nat) : (s.log code req index data).rdata = s.rdata := rfl
@[simp] theorem State.log_free (s : State) (code req index : Nat) (data : List Nat) : (s.log code req index data).free = s.free := rfl
@[simp] theorem State.log_pending (s : State) (code req index : Nat) (data : List Nat) : (s.log code req index data).pending = s.pending := rfl

@[simp] theorem State.withPending_eff (s : State) (l : List Instr) : (s.withPending l).eff = s.eff := rfl
@[simp] theorem State.withPending_shd (s : State) (l : List Instr) : (s.withPending l).shd = s.shd := rfl
@[simp] theorem State.withPending_snap (s : State) (l : List Instr) : (s.withPending l).snap = s.snap := rfl
@[simp] theorem State.withPending_same (s : State) (l : List Instr) : (s.withPending l).same = s.same := rfl
@[simp] theorem State.withPending_eng (s : State) (l : List Instr) : (s.withPending l).eng = s.eng := rfl
@[simp] theorem State.withPending_lanes (s : State) (l : List Instr) : (s.withPending l).lanes = s.lanes := rfl
@[simp] theorem State.withPending_framers (s : State) (l : List Instr) : (s.withPending l).framers = s.framers := rfl
@[simp] theorem State.withPending_trees (s : State) (l : List Instr) : (s.withPending l).trees = s.trees := rfl
@[simp] theorem State.withPending_cls (s : State) (l : List Instr) : (s.withPending l).cls = s.cls := rfl
@[simp] theorem State.withPending_store (s : State) (l : List Instr) : (s.withPending l).store = s.store := rfl
@[simp] theorem State.withPending_egress (s : State) (l : List Instr) : (s.withPending l).egress = s.egress := rfl
@[simp] theorem State.withPending_pegs (s : State) (l : List Instr) : (s.withPending l).pegs = s.pegs := rfl
@[simp] theorem State.withPending_host (s : State) (l : List Instr) : (s.withPending l).host = s.host := rfl
@[simp] theorem State.withPending_mem (s : State) (l : List Instr) : (s.withPending l).mem = s.mem := rfl
@[simp] theorem State.withPending_tds (s : State) (l : List Instr) : (s.withPending l).tds = s.tds := rfl
@[simp] theorem State.withPending_twin (s : State) (l : List Instr) : (s.withPending l).twin = s.twin := rfl
@[simp] theorem State.withPending_img (s : State) (l : List Instr) : (s.withPending l).img = s.img := rfl
@[simp] theorem State.withPending_pwr (s : State) (l : List Instr) : (s.withPending l).pwr = s.pwr := rfl
@[simp] theorem State.withPending_flt (s : State) (l : List Instr) : (s.withPending l).flt = s.flt := rfl
@[simp] theorem State.withPending_out (s : State) (l : List Instr) : (s.withPending l).out = s.out := rfl
@[simp] theorem State.withPending_rdata (s : State) (l : List Instr) : (s.withPending l).rdata = s.rdata := rfl
@[simp] theorem State.withPending_free (s : State) (l : List Instr) : (s.withPending l).free = s.free := rfl
@[simp] theorem State.withPending_pending (s : State) (l : List Instr) : (s.withPending l).pending = l := rfl

end Sys2Proof.Machine
end

