-- ==== Sys2Proof/Laws/Tab.lean ====
section
/-!
SUPPORT. The laws of sparse tables: a read after a write, and that every write keeps the canonical form.
-/

namespace Sys2Proof.Machine

variable {α : Type}

/-- An empty table reads as the default everywhere. -/
@[simp] theorem tget_nil (d : Nat → α) (k : Nat) : tget d [] k = d k := rfl

theorem tfind_tdel_same (t : Tab α) (k : Nat) : tfind (tdel t k) k = none := by
  induction t with
  | nil => rfl
  | cons e t ih =>
    obtain ⟨a, v⟩ := e
    by_cases h : a = k
    · simpa [tdel, h] using ih
    · simpa [tdel, h, tfind] using ih

theorem tdel_cons (e : Nat × α) (t : Tab α) (k : Nat) : tdel (e :: t) k = if e.1 = k then tdel t k else e :: tdel t k := by
  unfold tdel
  by_cases h : e.1 = k <;> simp [h]

theorem tfind_tdel_ne (t : Tab α) {k j : Nat} (h : j ≠ k) : tfind (tdel t k) j = tfind t j := by
  induction t with
  | nil => rfl
  | cons e t ih =>
    rw [tdel_cons]
    obtain ⟨a, v⟩ := e
    by_cases ha : a = k
    · simp [ha, tfind, ih, Ne.symm h]
    · simp [ha, tfind, ih]

variable [DecidableEq α]

theorem tget_tins_same (d : Nat → α) (t : Tab α) (k : Nat) (v : α) (h : tfind t k = none) : tget d (tins d t k v) k = v := by
  induction t with
  | nil =>
    by_cases hv : v = d k
    · simp [tins, tget, tfind, hv]
    · simp [tins, tget, tfind, hv]
  | cons e t ih =>
    obtain ⟨a, w⟩ := e
    by_cases ha : a = k
    · simp [tfind, ha] at h
    · have h' : tfind t k = none := by simpa [tfind, ha] using h
      by_cases hk : k < a
      · by_cases hv : v = d k
        · simp [tins, hk, hv, tget, tfind, ha, h']
        · simp [tins, hk, hv, tget, tfind]
      · have := ih h'
        simpa [tins, hk, tget, tfind, ha] using this

theorem tfind_tins_ne (d : Nat → α) (t : Tab α) {k j : Nat} (v : α) (h : j ≠ k) : tfind (tins d t k v) j = tfind t j := by
  induction t with
  | nil => by_cases hv : v = d k <;> simp [tins, tfind, hv, Ne.symm h]
  | cons e t ih =>
    obtain ⟨a, w⟩ := e
    by_cases hk : k < a
    · by_cases hv : v = d k <;> simp [tins, hk, hv, tfind, Ne.symm h]
    · simp [tins, hk, tfind, ih]

/-- A read of the key just written gives the value written. -/
theorem tget_tput_same (d : Nat → α) (t : Tab α) (k : Nat) (v : α) : tget d (tput d t k v) k = v :=
  tget_tins_same d _ k v (tfind_tdel_same t k)

/-- A write leaves every other key alone. -/
theorem tget_tput_ne (d : Nat → α) (t : Tab α) {k j : Nat} (v : α) (h : j ≠ k) :
    tget d (tput d t k v) j = tget d t j := by
  simp [tput, tget, tfind_tins_ne d _ v h, tfind_tdel_ne _ h]

theorem tget_tput (d : Nat → α) (t : Tab α) (k j : Nat) (v : α) :
    tget d (tput d t k v) j = if j = k then v else tget d t j := by
  split
  · next h => rw [h, tget_tput_same]
  · next h => exact tget_tput_ne d t v h

/-! ### The canonical form -/

theorem rising_mono {b c : Option Nat} {l : List Nat}
    (h : ∀ k, (∀ x, b = some x → x < k) → (∀ x, c = some x → x < k)) (hr : rising b l = true) : rising c l = true := by
  cases l with
  | nil => rfl
  | cons k ks =>
    cases b with
    | none =>
      have := h k (by simp)
      cases c with
      | none => exact hr
      | some c => simp only [rising, Bool.and_eq_true, decide_eq_true_eq]; exact ⟨this c rfl, hr⟩
    | some b =>
      simp only [rising, Bool.and_eq_true, decide_eq_true_eq] at hr
      have := h k (by rintro x ⟨⟩; exact hr.1)
      cases c with
      | none => exact hr.2
      | some c => simp only [rising, Bool.and_eq_true, decide_eq_true_eq]; exact ⟨this c rfl, hr.2⟩

omit [DecidableEq α] in
theorem rising_filter (p : Nat × α → Bool) (b : Option Nat) (t : Tab α)
    (h : rising b (t.map (·.1)) = true) : rising b ((t.filter p).map (·.1)) = true := by
  induction t generalizing b with
  | nil => rfl
  | cons e t ih =>
    have ht : rising (some e.1) (t.map (·.1)) = true := by
      cases b with
      | none => exact h
      | some b => simp only [List.map, rising, Bool.and_eq_true] at h; exact h.2
    simp only [List.filter]
    split
    · cases b with
      | none => exact ih _ ht
      | some b =>
        simp only [List.map, rising, Bool.and_eq_true, decide_eq_true_eq] at h ⊢
        exact ⟨h.1, ih _ ht⟩
    · refine rising_mono ?_ (ih _ ht)
      intro k hk x hx
      subst hx
      simp only [List.map, rising, Bool.and_eq_true, decide_eq_true_eq] at h
      have := hk e.1 rfl
      omega

theorem rising_tins (d : Nat → α) (k : Nat) (v : α) (b : Option Nat) (t : Tab α) (hb : ∀ x, b = some x → x < k)
    (hn : tfind t k = none) (h : rising b (t.map (·.1)) = true) : rising b ((tins d t k v).map (·.1)) = true := by
  induction t generalizing b with
  | nil =>
    by_cases hv : v = d k
    · simpa [tins, hv] using h
    · cases b with
      | none => simp [tins, hv, rising]
      | some b => simpa [tins, hv, rising] using hb b rfl
  | cons e t ih =>
    obtain ⟨a, w⟩ := e
    have ha : a ≠ k := by rintro rfl; simp [tfind] at hn
    have hn' : tfind t k = none := by simpa [tfind, ha] using hn
    have ht : rising (some a) (t.map (·.1)) = true := by
      cases b with
      | none => exact h
      | some b => simp only [List.map, rising, Bool.and_eq_true] at h; exact h.2
    by_cases hk : k < a
    · by_cases hv : v = d k
      · simpa [tins, hk, hv] using h
      · cases b with
        | none => simpa [tins, hk, hv, rising] using ht
        | some b => simpa [tins, hk, hv, rising] using ⟨hb b rfl, ht⟩
    · have hak : a < k := by omega
      have := ih (some a) (by rintro x ⟨⟩; exact hak) hn' ht
      cases b with
      | none => simpa [tins, hk, rising] using this
      | some b =>
        simp only [List.map, rising, Bool.and_eq_true, decide_eq_true_eq] at h
        simpa [tins, hk, rising] using ⟨h.1, this⟩

/-- Leaving entries out keeps the canonical form. -/
theorem twf_filter (d : Nat → α) (t : Tab α) (p : Nat × α → Bool) (h : twf d t = true) : twf d (t.filter p) = true := by
  simp only [twf, Bool.and_eq_true, List.all_eq_true, decide_eq_true_eq] at h ⊢
  exact ⟨rising_filter p none t h.1, fun e he => h.2 e ((List.mem_filter.mp he).1)⟩

theorem twf_tdel (d : Nat → α) (t : Tab α) (k : Nat) (h : twf d t = true) : twf d (tdel t k) = true := twf_filter d t _ h

theorem mem_tins (d : Nat → α) (t : Tab α) (k : Nat) (v : α) (e : Nat × α) (h : e ∈ tins d t k v) :
    e = (k, v) ∧ v ≠ d k ∨ e ∈ t := by
  induction t with
  | nil =>
    by_cases hv : v = d k
    · simp [tins, hv] at h
    · exact .inl ⟨by simpa [tins, hv] using h, hv⟩
  | cons x t ih =>
    by_cases hk : k < x.1
    · by_cases hv : v = d k
      · exact .inr (by simpa [tins, hk, hv] using h)
      · simp only [tins, hk, hv, if_true, if_false, List.mem_cons] at h
        rcases h with h | h
        · exact .inl ⟨h, hv⟩
        · exact .inr (List.mem_cons.mpr h)
    · simp only [tins, hk, if_false, List.mem_cons] at h
      rcases h with h | h
      · exact .inr (by simp [h])
      · rcases ih h with h | h
        · exact .inl h
        · exact .inr (List.mem_cons_of_mem _ h)

/-- Every write keeps the canonical form. -/
theorem twf_tput (d : Nat → α) (t : Tab α) (k : Nat) (v : α) (h : twf d t = true) : twf d (tput d t k v) = true := by
  have h' := twf_tdel d t k h
  simp only [twf, Bool.and_eq_true, List.all_eq_true, decide_eq_true_eq] at h' ⊢
  refine ⟨rising_tins d k v none _ (by simp) (tfind_tdel_same t k) h'.1, fun e he => ?_⟩
  rcases mem_tins _ _ _ _ _ he with ⟨he, hv⟩ | he
  · rw [he]; exact hv
  · exact h'.2 e he

theorem twf_nil (d : Nat → α) : twf d ([] : Tab α) = true := rfl

end Sys2Proof.Machine
end

