-- ==== Sys2Proof/Laws/Ops.lean ====
section
/-!
SUPPORT. What the shared operations over registers do: fields read back as written, and a write leaves every other
register alone.
-/

namespace Sys2Proof.Machine

/-- A field lies within its register. -/
def Fld.ok (f : Fld) : Prop := f.lo ≤ f.hi ∧ f.hi < 32

theorem getF_lt (w : Word) (f : Fld) : getF w f < 2 ^ f.width := Nat.mod_lt _ (Nat.two_pow_pos _)

/-- A field of a word with that field replaced. -/
theorem getF_setF (w : Word) (f : Fld) (v : Nat) (h : f.ok) : getF (setF w f v) f = v % 2 ^ f.width := by
  obtain ⟨h1, h2⟩ := h
  have hw : f.lo + f.width = f.hi + 1 := by unfold Fld.width; omega
  have hlt := w.isLt
  obtain ⟨n, hn⟩ : ∃ n, n = w.toNat := ⟨_, rfl⟩
  have hA : 0 < 2 ^ f.lo := Nat.two_pow_pos _
  have hB : 0 < 2 ^ f.width := Nat.two_pow_pos _
  have hAB : 2 ^ f.lo * 2 ^ f.width = 2 ^ (f.hi + 1) := by rw [← Nat.pow_add, hw]
  have hdvd : 2 ^ (f.hi + 1) ∣ 2 ^ 32 := Nat.pow_dvd_pow 2 (by omega)
  have hdec : n = n % 2 ^ f.lo + 2 ^ f.lo * (n / 2 ^ f.lo % 2 ^ f.width) +
      2 ^ f.lo * 2 ^ f.width * (n / 2 ^ f.lo / 2 ^ f.width) := by
    have e1 := Nat.div_add_mod n (2 ^ f.lo)
    have e2 := Nat.div_add_mod (n / 2 ^ f.lo) (2 ^ f.width)
    have e3 : 2 ^ f.lo * (n / 2 ^ f.lo) = 2 ^ f.lo * (2 ^ f.width * (n / 2 ^ f.lo / 2 ^ f.width)) +
        2 ^ f.lo * (n / 2 ^ f.lo % 2 ^ f.width) := by rw [← Nat.mul_add, e2]
    rw [Nat.mul_assoc]
    omega
  have hset : (setF w f v).toNat = (n % 2 ^ f.lo + 2 ^ f.lo * (v % 2 ^ f.width) +
      2 ^ f.lo * 2 ^ f.width * (n / 2 ^ f.lo / 2 ^ f.width)) % 2 ^ 32 := by
    unfold setF getF
    rw [BitVec.toNat_ofNat, ← hn, Nat.mul_comm (n / 2 ^ f.lo % 2 ^ f.width), Nat.mul_comm (v % 2 ^ f.width)]
    congr 1
    omega
  unfold getF
  rw [hset]
  have hmod : ∀ x, x % 2 ^ 32 / 2 ^ f.lo % 2 ^ f.width = x / 2 ^ f.lo % 2 ^ f.width := by
    intro x
    have e : ∀ y, y / 2 ^ f.lo % 2 ^ f.width = y % 2 ^ (f.hi + 1) / 2 ^ f.lo := by
      intro y
      rw [← hAB, Nat.mod_mul_right_div_self]
    rw [e, e, Nat.mod_mod_of_dvd _ hdvd]
  rw [hmod, Nat.mul_assoc, Nat.add_assoc, ← Nat.mul_add, Nat.add_mul_div_left _ _ hA,
    Nat.div_eq_of_lt (Nat.mod_lt _ hA), Nat.zero_add, Nat.add_mul_mod_self_left, Nat.mod_mod]

/-- Another field of the word, above or below, keeps its value. -/
theorem getF_setF_ne (w : Word) (f g : Fld) (v : Nat) (hf : f.ok) (hg : g.ok) (h : f.hi < g.lo ∨ g.hi < f.lo) :
    getF (setF w f v) g = getF w g := by
  obtain ⟨hf1, hf2⟩ := hf
  obtain ⟨hg1, hg2⟩ := hg
  have hw : f.lo + f.width = f.hi + 1 := by unfold Fld.width; omega
  have hwg : g.lo + g.width = g.hi + 1 := by unfold Fld.width; omega
  have hlt := w.isLt
  obtain ⟨n, hn⟩ : ∃ n, n = w.toNat := ⟨_, rfl⟩
  have hA : 0 < 2 ^ f.lo := Nat.two_pow_pos _
  have hB : 0 < 2 ^ f.width := Nat.two_pow_pos _
  have hAB : 2 ^ f.lo * 2 ^ f.width = 2 ^ (f.hi + 1) := by rw [← Nat.pow_add, hw]
  have hdec : n = n % 2 ^ f.lo + 2 ^ f.lo * (n / 2 ^ f.lo % 2 ^ f.width) +
      2 ^ (f.hi + 1) * (n / 2 ^ (f.hi + 1)) := by
    have e1 := Nat.div_add_mod n (2 ^ f.lo)
    have e2 := Nat.div_add_mod (n / 2 ^ f.lo) (2 ^ f.width)
    have e3 : 2 ^ f.lo * (n / 2 ^ f.lo) = 2 ^ f.lo * (2 ^ f.width * (n / 2 ^ f.lo / 2 ^ f.width)) +
        2 ^ f.lo * (n / 2 ^ f.lo % 2 ^ f.width) := by rw [← Nat.mul_add, e2]
    rw [← hAB, Nat.mul_assoc, ← Nat.div_div_eq_div_mul]
    omega
  have hset : (setF w f v).toNat = (n % 2 ^ f.lo + 2 ^ f.lo * (v % 2 ^ f.width) +
      2 ^ (f.hi + 1) * (n / 2 ^ (f.hi + 1))) % 2 ^ 32 := by
    unfold setF getF
    rw [BitVec.toNat_ofNat, ← hn, Nat.mul_comm (n / 2 ^ f.lo % 2 ^ f.width), Nat.mul_comm (v % 2 ^ f.width)]
    congr 1
    omega
  have hlow : n % 2 ^ f.lo + 2 ^ f.lo * (v % 2 ^ f.width) < 2 ^ (f.hi + 1) := by
    rw [← hAB]
    have a := Nat.mod_lt n hA
    have b := Nat.mod_lt v hB
    calc n % 2 ^ f.lo + 2 ^ f.lo * (v % 2 ^ f.width) < 2 ^ f.lo + 2 ^ f.lo * (v % 2 ^ f.width) := by omega
      _ = 2 ^ f.lo * (v % 2 ^ f.width + 1) := by rw [Nat.mul_add, Nat.mul_one, Nat.add_comm]
      _ ≤ 2 ^ f.lo * 2 ^ f.width := Nat.mul_le_mul_left _ b
  have hmod : ∀ x, x % 2 ^ 32 / 2 ^ g.lo % 2 ^ g.width = x / 2 ^ g.lo % 2 ^ g.width := by
    intro x
    have e : ∀ y, y / 2 ^ g.lo % 2 ^ g.width = y % 2 ^ (g.hi + 1) / 2 ^ g.lo := by
      intro y
      rw [← hwg, Nat.pow_add, Nat.mod_mul_right_div_self]
    rw [e, e, Nat.mod_mod_of_dvd _ (Nat.pow_dvd_pow 2 (by omega))]
  unfold getF
  rw [hset, hmod, ← hn]
  rcases h with h | h
  · have hg' : 2 ^ g.lo = 2 ^ (f.hi + 1) * 2 ^ (g.lo - (f.hi + 1)) := by rw [← Nat.pow_add]; congr 1; omega
    rw [hg', ← Nat.div_div_eq_div_mul, ← Nat.div_div_eq_div_mul, Nat.add_mul_div_left _ _ (Nat.two_pow_pos _),
      Nat.div_eq_of_lt hlow, Nat.zero_add]
  · have e : ∀ y, y / 2 ^ g.lo % 2 ^ g.width = y % 2 ^ f.lo / 2 ^ g.lo % 2 ^ g.width := by
      intro y
      have e1 : ∀ z, z / 2 ^ g.lo % 2 ^ g.width = z % 2 ^ (g.hi + 1) / 2 ^ g.lo := by
        intro z
        rw [← hwg, Nat.pow_add, Nat.mod_mul_right_div_self]
      rw [e1, e1, Nat.mod_mod_of_dvd _ (Nat.pow_dvd_pow 2 (by omega))]
    rw [e, e n]
    congr 2
    have : 2 ^ (f.hi + 1) = 2 ^ f.lo * 2 ^ f.width := hAB.symm
    rw [this, Nat.mul_assoc, Nat.add_assoc, ← Nat.mul_add, Nat.add_mul_mod_self_left, Nat.mod_mod]

theorem Fld.width_pos (f : Fld) (h : f.ok) : 0 < f.width := by
  obtain ⟨h1, _⟩ := h
  unfold Fld.width
  omega

/-! ### Registers -/

theorem rkey_inj {i j o p : Nat} (ho : o < 0x100000) (hp : p < 0x100000) : rkey i o = rkey j p ↔ i = j ∧ o = p := by
  unfold rkey
  omega

@[simp] theorem State.reg_setReg_same (s : State) (i o : Nat) (w : Word) : (s.setReg i o w).reg i o = w :=
  tget_tput_same _ _ _ _

theorem State.reg_setReg_ne (s : State) {i j o p : Nat} (w : Word) (h : rkey j p ≠ rkey i o) :
    (s.setReg i o w).reg j p = s.reg j p := tget_tput_ne _ _ _ h

@[simp] theorem State.shadow_setReg (s : State) (i j o p : Nat) (w : Word) : (s.setReg i o w).shadow j p = s.shadow j p := rfl

@[simp] theorem State.reg_setShadow (s : State) (i j o p : Nat) (w : Word) : (s.setShadow i o w).reg j p = s.reg j p := rfl

/-- A field reads back as written, within its width. -/
theorem State.rd_wr_same (s : State) (f : Fld) (i v : Nat) (h : f.ok) : (s.wr f i v).rd f i = v % 2 ^ f.width := by
  unfold State.rd State.wr
  rw [State.reg_setReg_same, getF_setF _ _ _ h]

/-- A write to a field of another register leaves a field alone. -/
theorem State.rd_wr_reg (s : State) {f g : Fld} {i j : Nat} (v : Nat) (h : rkey j g.off ≠ rkey i f.off) :
    (s.wr f i v).rd g j = s.rd g j := by
  unfold State.rd State.wr
  rw [State.reg_setReg_ne _ _ h]

/-- A write to another field of the same register leaves a field alone. -/
theorem State.rd_wr_fld (s : State) {f g : Fld} (i v : Nat) (hf : f.ok) (hg : g.ok) (ho : g.off = f.off)
    (h : f.hi < g.lo ∨ g.hi < f.lo) : (s.wr f i v).rd g i = s.rd g i := by
  unfold State.rd State.wr
  rw [ho, State.reg_setReg_same, getF_setF_ne _ _ _ _ hf hg h]

/-- Every write keeps the canonical form of the register table. -/
theorem State.setReg_twf (s : State) (i o : Nat) (w : Word) (h : twf regReset s.eff = true) :
    twf regReset (s.setReg i o w).eff = true := twf_tput _ _ _ _ h

end Sys2Proof.Machine
end

