-- ==== Sys2Proof/Laws/Finish.lean ====
section
/-!
SUPPORT. What `done`, `doneWrite` and `doneAlways` answer: an engine that is held leaves the state, one that runs ends its
command, and a write before RUN is ignored.
-/

namespace Sys2Proof.Machine
open Host (Outcome)

theorem done_held {s t : State} (h : s.isHeld = true) : done s t = .next s := by
  unfold done
  rw [if_pos h]

theorem done_runs {s t : State} (h : s.Runs) : done s t = .next (s.after t) := by
  unfold done
  rw [if_neg (by rw [h]; decide)]

theorem doneWrite_takes {s t : State} {req : Fin 19} (h : s.Takes req) : doneWrite req s t = .next (s.after t) := by
  unfold doneWrite
  rw [if_pos (by simpa using h.2)]
  exact done_runs h.1

theorem doneWrite_ignored {s t : State} {req : Nat} (h : s.Runs) (h1 : req ≠ 17) (h2 : s.rd F.IMG_STAT_PHASE 0 ≠ 4) :
    doneWrite req s t = .next (s.after s) := by
  unfold doneWrite
  rw [if_neg (by simp [h1, h2])]
  exact done_runs h

theorem doneWrite_held {s t : State} {req : Nat} (h : s.isHeld = true) : doneWrite req s t = .next s := by
  unfold doneWrite
  exact done_held h

/-- What a command leaves in the queue is what it found there. -/
@[simp] theorem State.after_pending (s t : State) : (s.after t).pending = s.pending := rfl

end Sys2Proof.Machine
end

