-- ==== Sys2Proof/Laws/Memory.lean ====
section
/-!
SUPPORT. The memory operations keep the canonical form: the master tables (R173), service-core memory (R286) and the
register tables; and a read of service-core memory after a write.
-/

namespace Sys2Proof.Machine

/-- Every write of one byte keeps the canonical form of a memory. -/
theorem Memory.wf_tput (t : Tab Byte) (a : Nat) (b : Byte) (h : Memory.wf t = true) :
    Memory.wf (tput (fun _ => 0) t a b) = true := twf_tput _ t a b h

theorem setReg_wf (s : State) (i off : Nat) (w : Word) (h : twf regReset s.eff = true) :
    twf regReset (s.setReg i off w).eff = true := twf_tput _ _ _ _ h

theorem setShadow_wf (s : State) (i off : Nat) (w : Word) (h : twf regReset s.shd = true) :
    twf regReset (s.setShadow i off w).shd = true := twf_tput _ _ _ _ h

theorem wr_wf (s : State) (f : Fld) (i v : Nat) (h : twf regReset s.eff = true) :
    twf regReset (s.wr f i v).eff = true := setReg_wf s i f.off _ h

theorem addN_wf (s : State) (f : Fld) (i n : Nat) (h : twf regReset s.eff = true) :
    twf regReset (s.addN f i n).eff = true := wr_wf s f i _ h

/-- A run of bytes stored from an address keeps the canonical form. -/
theorem storeRun_wf (bs : List Byte) (t : Tab Byte) (a : Nat) (h : Memory.wf t = true) :
    Memory.wf (bs.foldl (fun (p : Tab Byte × Nat) b => (tput (fun _ => 0) p.1 p.2 b, p.2 + 1)) (t, a)).1 = true := by
  induction bs generalizing t a with
  | nil => exact h
  | cons b bs ih => exact ih _ _ (Memory.wf_tput t a b h)

/-- Bytes put into the master tables keep their canonical form. -/
theorem tblPut_wf (s : State) (a : Nat) (bs : List Byte) (h : Memory.wf s.cls.tbl = true) :
    Memory.wf (s.tblPut a bs).cls.tbl = true := storeRun_wf bs s.cls.tbl a h

theorem fold_tbl (s : State) (k r i o : Nat) (d : List Byte) : (s.fold k r i o d).cls.tbl = s.cls.tbl := by
  unfold State.fold
  split <;> rfl

/-- A word written into the aperture keeps the canonical form of the master tables. -/
theorem tableWord_wf (s : State) (req ofs : Nat) (data : List (Option Byte)) (h : Memory.wf s.cls.tbl = true) :
    Memory.wf (s.tableWord req ofs data).cls.tbl = true := by
  unfold State.tableWord
  split
  · exact h
  · next base size _ =>
    have h' : ∀ c : Bool, Memory.wf (if c = true then s else s.inc F.CLS_STAGE_ABORT 0).cls.tbl = true := by
      intro c; cases c <;> exact h
    dsimp only
    split
    · exact h' _
    · rw [fold_tbl]
      exact tblPut_wf _ _ _ (h' _)

theorem storeIdx_wf (es : List (Byte × Nat)) (t : Tab Byte) (a : Nat) (h : Memory.wf t = true) :
    Memory.wf (es.foldl (fun t e => tput (fun _ => 0) t (a + e.2) e.1) t) = true := by
  induction es generalizing t with
  | nil => exact h
  | cons e es ih => exact ih _ (Memory.wf_tput t _ _ h)

/-- Bytes put into service-core memory keep its canonical form. -/
theorem putCoreBytes_wf (s : State) (a : Nat) (bs : List Byte) (h : Memory.wf s.tds.coreMem = true) :
    Memory.wf (s.putCoreBytes a bs).tds.coreMem = true := storeIdx_wf _ _ a h

theorem storeIdx_get (bs : List Byte) (t : Tab Byte) (a k j : Nat) :
    tget (fun _ => 0) ((bs.zipIdx k).foldl (fun t (e : Byte × Nat) => tput (fun _ => 0) t (a + e.2) e.1) t) j =
      if a + k ≤ j ∧ j < a + k + bs.length then bs.getD (j - (a + k)) 0 else tget (fun _ => 0) t j := by
  induction bs generalizing t k with
  | nil =>
    have : ¬(a + k ≤ j ∧ j < a + k + ([] : List Byte).length) := by simp
    rw [if_neg this]; rfl
  | cons b bs ih =>
    simp only [List.zipIdx_cons, List.foldl_cons, List.length_cons]
    rw [ih, tget_tput]
    by_cases h1 : a + (k + 1) ≤ j ∧ j < a + (k + 1) + bs.length
    · have e : j - (a + k) = (j - (a + (k + 1))) + 1 := by omega
      rw [if_pos h1, if_pos (by omega), e, List.getD_cons_succ]
    · rw [if_neg h1]
      by_cases h2 : j = a + k
      · rw [if_pos h2, if_pos (by omega), h2, Nat.sub_self, List.getD_cons_zero]
      · rw [if_neg h2, if_neg (by omega)]

/-- Service-core memory after a write: the bytes written where they were written, every other byte as before. -/
theorem putCoreBytes_get (s : State) (a : Nat) (bs : List Byte) (j : Nat) :
    tget (fun _ => 0) (s.putCoreBytes a bs).tds.coreMem j =
      if a ≤ j ∧ j < a + bs.length then bs.getD (j - a) 0 else tget (fun _ => 0) s.tds.coreMem j := by
  simpa [State.putCoreBytes] using storeIdx_get bs s.tds.coreMem a 0 j

end Sys2Proof.Machine
end

