-- ==== Sys2Proof/Laws/Writes.lean ====
section
/-!
SUPPORT. Writes of one device cycle (R37) and their folds (R362): what noting a write and folding one leave alone, and what a write
that no higher requester overrules leaves; and the memories of the service cores and of the frame store keep their canonical form.
-/

namespace Sys2Proof.Machine

/-- Noting a write changes nothing but the record of the cycle's writes. -/
theorem State.noteWrite_frame (s : State) (req key mask : Nat) :
    s.noteWrite req key mask = { s with same := (s.noteWrite req key mask).same } := rfl

/-- A new access changes nothing but the record of the cycle's writes. -/
theorem State.newAccess_frame (s : State) (req : Nat) : s.newAccess req = { s with same := (s.newAccess req).same } := rfl

@[simp] theorem State.newAccess_eff (s : State) (req : Nat) : (s.newAccess req).eff = s.eff := rfl
@[simp] theorem State.noteWrite_eff (s : State) (req key mask : Nat) : (s.noteWrite req key mask).eff = s.eff := rfl

/-- A fold changes nothing but the digest, its count and the record of the cycle's writes. -/
theorem State.fold_frame (s : State) (kind req index ofs : Nat) (data : List Byte) :
    s.fold kind req index ofs data = { s with same := (s.fold kind req index ofs data).same,
                                              img := (s.fold kind req index ofs data).img } := by
  unfold State.fold
  split <;> rfl

/-- The fold of a write changes nothing but the digest, its count and the record of the cycle's writes. -/
theorem State.foldWritten_frame (s : State) (req key : Nat) (rec : List Byte) :
    s.foldWritten req key rec = { s with same := (s.foldWritten req key rec).same, img := (s.foldWritten req key rec).img } := by
  unfold State.foldWritten
  split <;> rfl

theorem State.foldValue_frame (s : State) (req k : Nat) (data : List Byte) :
    s.foldValue req k data = { s with same := (s.foldValue req k data).same, img := (s.foldValue req k data).img } := by
  unfold State.foldValue
  split
  · rfl
  · exact s.foldWritten_frame _ _ _

/-- The fold of a write changes no register: it goes into the digest, or waits with a sleeping octant. -/
@[simp] theorem State.foldWrite_eff (s : State) (req k : Nat) : (s.foldWrite req k).eff = s.eff := by
  unfold State.foldWrite
  split
  · rfl
  · rw [State.foldValue_frame]

/-- Folds after a digest change as many digests as there are, and none where there is none. -/
theorem foldChain_length (d : List Byte) (l : List (CycWrite × List Byte)) : (foldChain d l).1.length = l.length := by
  induction l generalizing d with
  | nil => rfl
  | cons x l ih => simp [foldChain, ih]

theorem foldl_or_none (l : List CycWrite) (h : l = []) : l.foldl (fun m (x : CycWrite) => m ||| x.mask) 0 = 0 := by
  subst h; rfl

/-- No bit is claimed where no higher requester has written in the device cycle. -/
theorem State.claimed_alone {s : State} {req : Fin 19} (h : s.Alone req) (key : Nat) : s.claimed req key = 0 := by
  unfold State.claimed
  apply foldl_or_none
  rw [List.filter_eq_nil_iff]
  intro x hx
  simp only [Bool.and_eq_true, beq_iff_eq, decide_eq_true_eq, not_and]
  intro hc
  have := h x hx hc.1
  omega

/-- An access of its own leaves a requester alone where it was alone before. -/
theorem State.newAccess_alone {s : State} {req : Fin 19} (h : s.Alone req) : (s.newAccess req).Alone req := by
  intro x hx hc
  have hx' : x ∈ (if s.same.any (fun x => x.req == req.val || x.cyc != s.pegs.cyc) then [] else s.same) := hx
  split at hx'
  · cases hx'
  · exact h x hx' hc

/-- A write that no higher requester overrules has its effect, and is noted. -/
theorem State.ordered_alone {s : State} {req : Fin 19} (h : s.Alone req) (off : Nat) (insts : List Nat) (effect : State → State) :
    s.ordered req off insts effect =
      insts.foldl (fun u i => u.noteWrite req (rkey i off) 0xFFFFFFFF) (effect (s.newAccess req)) := by
  unfold State.ordered
  have hc : ∀ i, ((s.newAccess req).claimed req (rkey i off) == 0xFFFFFFFF) = false := by
    intro i; rw [State.claimed_alone (State.newAccess_alone h)]; rfl
  rw [if_neg]
  cases insts with
  | nil => simp
  | cons i l => simp [hc]

/-! ### Memories -/

/-- Bytes stored into the SRAM of a core keep its canonical form. -/
theorem sramPut_wf (s : State) (core a : Nat) (d : List (Option Byte)) (h : Memory.wf s.tds.sram = true) :
    Memory.wf (s.sramPut core a d).tds.sram = true := by
  show Memory.wf (d.zipIdx.foldl _ s.tds.sram) = true
  generalize d.zipIdx = es
  generalize s.tds.sram = t at h
  induction es generalizing t with
  | nil => exact h
  | cons e es ih =>
    refine ih _ ?_
    dsimp only
    split
    · exact h
    · exact Memory.wf_tput t _ _ h

/-- The part of a store that lies in a granule keeps the canonical form of service-core memory. -/
theorem storeGranule_wf (s : State) (core a g : Nat) (d : List (Option Byte)) (h : Memory.wf s.tds.coreMem = true) :
    Memory.wf (s.storeGranule core a g d).tds.coreMem = true := by
  show Memory.wf (d.zipIdx.foldl _ s.tds.coreMem) = true
  generalize d.zipIdx = es
  generalize s.tds.coreMem = t at h
  induction es generalizing t with
  | nil => exact h
  | cons e es ih =>
    refine ih _ ?_
    dsimp only
    split
    · exact h
    · split
      · exact Memory.wf_tput t _ _ h
      · exact h

/-- Cells taken from a slice keep the canonical form of the table of cells in use. -/
theorem allocFs_wf (s : State) (o n : Nat) (h : twf (fun _ => false) s.store.fsUsed = true) :
    twf (fun _ => false) (s.allocFs o n).2.store.fsUsed = true := by
  have key : ∀ (xs : List Nat) (t : Tab Bool), twf (fun _ => false) t = true →
      twf (fun _ => false) (xs.foldl (fun t x => tput (fun _ => false) t x true) t) = true := by
    intro xs
    induction xs with
    | nil => intro t ht; exact ht
    | cons x xs ih => intro t ht; exact ih _ (twf_tput _ t x true ht)
  exact key _ _ h

end Sys2Proof.Machine
end

