-- ==== Sys2Proof/WellFormed.lean ====
section
/-!
DEFINITION. Which commands are well formed: an operand that the type admits and the spec does not is refused here by a
check with a name. An ill-formed command still has a meaning; no statement rests on one.
-/

namespace Sys2Proof

/-- A bridge is 512 bytes (R70). -/
def wfView (v : BridgeView) : Bool := v.bytes.length == 512

/-- A burst's header is 32 bytes and its message slot 64 (R139). -/
def wfBurst (b : BurstRx) : Bool :=
  match b.head with
  | .read _ h m => h.length == 32 && m.length == 64
  | .codeword _ => true

/-- A frame holds at least its addresses, EtherType and FCS (R86, R263). -/
def wfFrame (f : List Byte) : Bool := decide (18 ≤ f.length) && decide (f.length ≤ 16391)

/-- A write carries 1 to 512 bytes, the largest PCI Express payload, and a read asks for at most 4,096 (R269, R444). -/
def wfData (n : Nat) (d : List (Option Byte)) : Bool := decide (0 < d.length) && decide (d.length ≤ n)

/-- Transmit descriptors are 32 bytes (R277). -/
def wfDescs (ds : List (List Byte × List Byte)) : Bool := ds.all (fun d => d.1.length == 32)

/-- A slot that can be read has a header of 256 bytes, a certificate of 9,827 and a manifest of at most 8 + 80 × 64 (R353). -/
def wfSlot (z : SlotImage) : Bool :=
  !z.readable || (z.header.length == 256 && z.cert.length == 9827 && decide (z.manifest.length ≤ 5128))

/-- The check of every command. -/
def Instr.wf : Instr → Bool
  | .registerWrite _ _ d => wfData 512 d
  | .readClear _ _ len => decide (0 < len.val)
  | .bridgeReceived _ a b c => wfView a && wfView b && wfView c
  | .surokBridgeReceived _ a b c => wfView a && wfView b && wfView c
  | .burstReceived _ b => wfBurst b
  | .treeFrameReceived _ (.cut f) _ _ _ => wfFrame f
  | .treeFrameReceived _ (.blocks bs) _ _ _ => decide (0 < bs.length)
  | .alignmentMarkerLock a => a.arrival.length == 16
  | .clientFrameReceived _ f _ => wfFrame f
  | .surokFrameReceived _ (.cut f) _ => wfFrame f
  | .surokFrameReceived _ (.blocks bs) _ => decide (0 < bs.length)
  | .tableWordWrite _ _ d => wfData 512 d
  | .hostTxFetch ds => wfDescs ds
  | .headerChecked z => wfSlot z
  | .imgVerifyDone z => wfSlot z
  | .sectionsChecked _ _ cs => decide (cs.length ≤ 64)
  | _ => true

end Sys2Proof
end

