-- ==== Sys2Proof/Tests/Slice0.lean ====
section
/-!
SUPPORT. Own tests. `witness_<Statement>` shows states and operands that meet the hypotheses of a statement's clauses, at the
edges of their ranges; `test_wf_…` shows for each check of WellFormed a command that it refuses; `test_…` holds one step or one
operation against a value worked out from the spec.
-/

namespace Sys2Proof.Tests
open Sys2Proof.Machine
set_option Elab.async false

/-! ### Small states -/

/-- A running engine: as after reset, with PHASE RUN. -/
def run : State := State.reset.wr F.IMG_STAT_PHASE 0 4
/-- An engine in device standby. -/
def held : State := { run with pwr := { run.pwr with standby := true } }
/-- A channel in a role, its lane ON. -/
def withRole (s : State) (c r : Nat) : State := ((s.wr F.CH_ROLE_ROLE_NOW c r).wrP (lanePWR c) pwrOn)
/-- An engine whose strap pairs it. -/
def paired : State := run.wr F.TWN_STAT_STRAP 0 1
/-- A lane locked up to stage 2. -/
def locked (s : State) (l : Nat) : State := ((s.wrP (laneSIG l) 1).wrP (laneCDR l) 1).wrP (laneCWL l) 1
def zeros (n : Nat) : List Byte := List.replicate n 0
/-- A bridge of zero bytes. -/
def view0 : BridgeView := { block0 := 0, bytes := zeros 512, ago := 0 }
def rd0 : FsRead := { corrected := [], uncorrectable := [] }
/-- The state that an outcome holds. -/
def nextOf (s : State) : Host.Outcome State Fault Refusal → State
  | .next t => t
  | _ => s
/-- The state after a command. -/
def after (c : Instr) (s : State) : State := nextOf s (exec c s)

/-! ### The queue and the block as a whole -/

theorem witness_HeldIgnores : held.isHeld = true ∧ actsHeld (.lineTickWork 0) = false ∧ isRead (.lineTickWork 0) = false ∧
    actsHeld (.readClear 0 (.reg 0) 4) = false ∧ actsHeld (.devTickLoRead 18) = false := by decide +kernel

theorem witness_HeldStaysHeld : let s : State := { held with pending := [.lineTickWork 0, .clear 3] }
    (s.isHeld = true ∧ s.pending.all (fun c => !actsHeld c) = true ∧ s.pending.all (fun c => !isRead c) = true) ∧
      ∃ t, step s = .next t := ⟨by decide +kernel, ⟨_, rfl⟩⟩

theorem witness_WritesBeforeRun : writerOf (.clear 0) = some 0 ∧ State.reset.Runs ∧ (0 : Fin 19).val ≠ 17 ∧
    State.reset.rd F.IMG_STAT_PHASE 0 ≠ 4 := by decide +kernel

theorem witness_EndOfCommand : run.holdLow = run.twin.fence ∧ run.tds.joins = [] ∧ run.copying = false := by decide +kernel

theorem witness_EntriesWritten : State.reset.flt.cycle = [] ∧ ∃ t, step State.reset = .next t := ⟨rfl, ⟨_, rfl⟩⟩

theorem witness_QueueKept : ∃ t, exec .commitCutoff run = .next t := ⟨_, rfl⟩

/-! ### The register map -/

theorem witness_ReservedReadsZero : findRow 0xFFFFC = none ∧ 0xFFFFC % 4 = 0 ∧ 0xFFFFC / 0x10000 ≠ 0xE := by decide +kernel

theorem witness_PartialWrite : (findRow 0x100).any (fun r => accMask r.flds (· == .rw) == 0) = true ∧
    fullWord [some 1] = false ∧ fullWord [some 1, some 1, none, some 1] = false ∧ 0x100 / 0x10000 ≠ 0xE := by decide +kernel

theorem witness_Reads : run.Runs ∧
    (findRow 0x40200).any (fun r => run.readInst 5 r == some 0 && rcCleared r 0 0 == 0) = true := by decide +kernel

theorem witness_SelectsAreBanked : run.Takes 0 ∧ run.Takes 18 ∧ State.reset.Takes 17 ∧ run.Alone 0 ∧ run.Alone 18 ∧ run.same = [] ∧
    (0 : Fin 19).val < (18 : Fin 19).val ∧ F.OCTSEL ∈ [F.PEGSEL, F.OCTSEL, F.QSEL, F.MEMSEL, F.RINGSEL, F.CHSEL_CH] := by decide +kernel

/-! ### Commits and the core tick -/

/-- A state past the cutoff. -/
def late : State := { run with eng := { run.eng with past := true } }

theorem witness_CommitScopeCaptured : run.Takes 5 ∧ late.Takes 5 ∧ late.eng.past = true ∧ run.eng.past = false ∧
    (getF 0 F.TICK_COMMIT_CH_BY_MASK = 0 ∧ getF 0 F.TICK_COMMIT_CH_BY_OCT = 0 ∧ getF 0 F.TICK_COMMIT_OCT_MASK = 0 ∧
      getF 0 F.TICK_COMMIT_DEV = 0) ∧ getF 1 F.TICK_COMMIT_DEV ≠ 0 := by decide +kernel

theorem witness_CutoffSnapshots : run.Runs ∧ late.Runs := by decide +kernel

/-- A commit of octant 0 and all its channels that is due. -/
def octCommit : Commit := { req := 3, wait := 1, dev := false, octs := 1, chs := 0xFF }
/-- Octant 0 with every channel in head-end role, at PL0. -/
def crowded : State := (List.range 8).foldl (fun s c => withRole (s.setShadow c F.CH_ROLE.off 1) c 1)
  (run.setOctPwr 0 { OctPwr.reset with level := 0 })

theorem witness_CommitParts :
    (findRow (F.CH_SB_CFG.off % 0x100000)).isSome = true ∧
    (run.partFor [octCommit] 0).reqs ≠ [] ∧ (run.seqOf 0).backlog = 0 ∧ run.octRuns 0 = true ∧
    run.rolesAfter 0 (run.partFor [octCommit] 0) ≤ levelMax (run.octPwr 0).level ∧
    { run with eng := { run.eng with seq := [(0, { backlog := 1, work := 0 })] } }.seqOf 0 ≠ { backlog := 0, work := 0 } ∧
    (run.wr F.OCT_PWR_STAT_STATE 0 stS2).octRuns 0 = false ∧
    (let s := { crowded with snap := crowded.shd }
     (s.partFor [octCommit] 0).reqs ≠ [] ∧ s.octRuns 0 = true ∧
      levelMax (s.octPwr 0).level < s.rolesAfter 0 (s.partFor [octCommit] 0)) := by decide +kernel

/-- A peg with a request pending. -/
def stepping (p : Nat) (r : PegReq) : State :=
  { run with pegs := { run.pegs with servo := tput (fun _ => Servo.reset) run.pegs.servo p { Servo.reset with req := some r } } }

theorem witness_CoreTickBegins : run.Runs ∧ run.stepSize 0 = none ∧ run.eng.nextB = (run.eng.tick + 1) * unitTick ∧
    run.eng.tick + 1 < 2 ^ 48 ∧ (stepping 0 (.step (-5))).stepSize 0 ≠ none ∧ (stepping 0 (.step (-5))).Runs := by decide +kernel

/-- A head end's channel 9 with one line tick due. -/
def headDue : State := (withRole run 9 roleHead).modFramer 9 (fun f => { f with due := 1 })

theorem witness_TickWork : headDue.Runs ∧ (headDue.framer (9 : Fin 64)).due ≠ 0 ∧ headDue.role 9 ≠ roleOff ∧
    headDue.octRuns (octOf 9) = true ∧ (run.framer 0).due = 0 ∧ run.eng.tick % 64 = 0 ∧
    { run with eng := { run.eng with tick := 63 } }.eng.tick % 64 ≠ 0 := by decide +kernel

/-! ### Lanes -/

theorem witness_LaneStages : (withRole run 3 roleTerm).Runs ∧ (withRole run 3 roleTerm).rxPowered (3 : Fin 72) = true ∧
    (withRole run 3 roleTerm).laneRole 3 ≠ roleHead ∧ ((withRole run 3 roleClient).wrP (laneCDR 3) 1).onP (laneCDR 3) = true ∧
    (withRole run 3 roleClient).role 3 = roleClient ∧
    (∀ a ∈ [0, skewBits], ∀ b ∈ [0, skewBits], a ≤ b + skewBits) ∧ (run.wrP (lanePWR 71) pwrExiting).rdP (lanePWR 71) = pwrExiting := by
  decide +kernel

theorem witness_LaneLosses : (locked run 71).Runs ∧ (locked run 71).onP (laneCWL 71) = true ∧
    (locked (withRole run 0 roleClient) 0).onP (laneCWL 0) = true ∧ (locked (withRole run 0 roleClient) 0).role 0 = roleClient ∧
    ((locked run 0).wrP (laneLoss 0) 255).onP (laneCWL 0) = true := by decide +kernel

theorem gfMul_zero (x : Nat) : gfMul 0 x = 0 := by
  unfold gfMul
  suffices h : ∀ l : List Nat, (l.foldl (fun (acc : Nat × Nat) i =>
      (if x / 2 ^ i % 2 = 1 then acc.1 ^^^ acc.2 else acc.1, gfX acc.2)) (0, 0)) = (0, 0) by rw [h]
  intro l
  induction l with
  | nil => rfl
  | cons i l ih =>
    simp only [List.foldl_cons]
    have : (if x / 2 ^ i % 2 = 1 then 0 ^^^ 0 else 0, gfX 0) = ((0, 0) : Nat × Nat) := by simp [gfX]
    rw [this, ih]

/-- Zero symbols in front do not count. -/
theorem wordEval_zeros (n : Nat) (w : List Nat) (x : Nat) : wordEval (List.replicate n 0 ++ w) x = wordEval w x := by
  induction n with
  | zero => rfl
  | succ n ih =>
    rw [List.replicate_succ, List.cons_append]
    show List.foldl _ (gfMul 0 x ^^^ 0) _ = _
    rw [gfMul_zero]
    exact ih

theorem syndromes_zeros (n par : Nat) (w : List Nat) : syndromes par (List.replicate n 0 ++ w) = syndromes par w := by
  unfold syndromes
  simp only [wordEval_zeros]

/-- A codeword of bits. -/
def cw (bits : Nat) : BitVec 5440 := BitVec.ofNat 5440 bits

/-- The word that holds a multiple of every root of R42 but α^15: no error of at most eight symbols explains it. -/
def badSyms : List Nat := (rsGenerator 15).reverse
def badCw : BitVec 5440 := cw ((badSyms.zipIdx).foldl (fun v e => v + e.1 * 1024 ^ (528 + e.2)) 0)

theorem cw0 : cwSymbols (cw 0).toNat = List.replicate 528 0 ++ List.replicate 16 0 := by decide +kernel
theorem cwBad : cwSymbols badCw.toNat = List.replicate 528 0 ++ badSyms := by decide +kernel

theorem witness_CodewordReceived_decoded : (rsDecode 16 (cwSymbols ((withRole run 5 roleHead).polarised 5 (cw 0).toNat))).isSome = true := by
  have : (syndromes 16 (List.replicate 16 0)).all (· == 0) = true := by decide +kernel
  have e : (withRole run 5 roleHead).polarised 5 (cw 0).toNat = (cw 0).toNat := by decide +kernel
  unfold rsDecode
  rw [e, cw0, syndromes_zeros]
  simp only [this, if_true]
  rfl

theorem witness_CodewordReceived_uncorrectable : rsDecode 16 (cwSymbols ((withRole run 5 roleHead).polarised 5 badCw.toNat)) = none := by
  have h : ((syndromes 16 badSyms).all (· == 0)) = false ∧ 16 / 2 < (locator (syndromes 16 badSyms)).2 := by decide +kernel
  have e : (withRole run 5 roleHead).polarised 5 badCw.toNat = badCw.toNat := by decide +kernel
  unfold rsDecode
  rw [e, cwBad, syndromes_zeros]
  simp only [h.1, Bool.false_eq_true, if_false]
  rw [if_pos (by simp [h.2])]

theorem witness_CodewordReceived : run.Runs ∧ run.rxPowered 0 = false ∧
    ((withRole run 5 roleTerm).testable 5 = false ∧ (withRole run 5 roleOff).testable 5 = true ∧ (withRole run 5 roleOff).laneRole 5 ≠ roleHead ∧
      ((withRole run 5 roleOff).wr F.TST_LOOP_FAR 5 1).on F.TST_LOOP_FAR 5 = true ∧
      (withRole run 5 roleOff).on F.TST_LOOP_NEAR 5 = false ∧ (withRole run 5 roleClient).laneRole 5 = roleClient) ∧
    ((withRole run 5 roleHead).rxPowered 5 = true ∧ (withRole run 5 roleHead).laneRole 5 = roleHead) ∧
    (let s : State := { locked (withRole run 5 roleTerm) 5 with lanes := [(5, { Lane.reset with badHdr := 3 })] }
     s.rxPowered 5 = true ∧ s.laneRole 5 = roleTerm ∧ s.onP (laneCDR 5) = true ∧ s.onP (laneCWL 5) = true ∧
      (s.lane 5).badHdr = 3 ∧
      validHeaders (((s.lane 5).prev + s.polarised 5 (cw 0).toNat * 2 ^ 5440) / 2 ^ (2 * (s.lane 5).hunt) % 2 ^ 5440) < 78) := by
  decide +kernel

theorem witness_TestFacilities : run.Runs ∧
    ((run.wr F.TST_PRBS_CFG_CHK_EN 71 1).on F.TST_PRBS_CFG_CHK_EN 71 = true ∧ run.rd F.TST_PRBS_CFG_CHK_PAT 71 < 2) ∧
    (run.wr F.TST_PRBS_STAT_CHK_LOCK 0 1).on F.TST_PRBS_STAT_CHK_LOCK 0 = true ∧
    ((run.wr F.TST_INJ_CONT 71 1).on F.TST_INJ_CONT 71 = true ∧ (run.wr F.TST_INJ_CONT 71 1).injectionDue 71 1 = true ∧ isSurok 71 = true) ∧
    ((locked run 0).wrP (laneFEC 0) 1).onP (laneFEC 0) = true ∧ (((locked run 71).wrP (laneFEC 71) 1).onP (laneFEC 71) = true) ∧
    ({ run with lanes := [(63, { Lane.reset with scan := true })] }.lane 63).scan = true ∧
    (withRole run 63 roleHead).role 63 = roleHead := by decide +kernel

theorem witness_TestStarts : run.Takes 2 ∧
    (run.wr F.TST_INJ_CONT 0 1).on F.TST_INJ_CONT 0 = true ∧
    (run.on F.TST_INJ_CONT 63 = false ∧ (withRole run 63 roleTerm).role 63 = roleTerm) ∧ run.role 63 ≠ roleTerm ∧
    (withRole run 63 roleHead).role 63 ≠ roleOff ∧
    ((withRole run 63 roleOff).role 63 = roleOff ∧ (withRole run 63 roleOff).rd F.CH_LANE_STAT_PWR 63 = pwrOn) ∧
    (let s := withRole run 0 roleOff
     s.Alone 2 ∧ s.on F.TST_TARGET_SUROK 2 = false ∧ s.rd F.CHSEL_BCAST 2 ∉ [1, 2] ∧ s.rd F.CHSEL_CH 2 = 0 ∧ s.octServes (octOf 0) = true ∧
      s.role 0 = roleOff ∧ s.rd F.CH_LANE_STAT_PWR 0 = pwrOn ∧
      getF (setF 0 F.TST_PRBS_CFG_GEN_EN 1) F.TST_PRBS_CFG_GEN_EN ≠ 0) := by decide +kernel

/-! ### Tick frames, tuning and frets -/

/-- A head end that sends a bridge. -/
def head9 : State := withRole run 9 roleHead

theorem witness_BridgeLaunch : run.Runs ∧ run.role 0 ≠ roleHead ∧
    ((head9.wr F.OCT_PWR_STAT_STATE 1 stS1).role 9 = roleHead ∧ (head9.wr F.OCT_PWR_STAT_STATE 1 stS1).octRuns (octOf 9) = false) ∧
    (head9.role 9 = roleHead ∧ head9.octRuns (octOf 9) = true) ∧
    (paired.paired = true ∧ (paired.wrP (lanePWR 71) pwrOn).rdP (lanePWR 71) = pwrOn) ∧ run.paired = false := by decide +kernel

/-- The bytes of the bridge that the head end sends. -/
def sentBytes : List Byte := (((after (.bridgeLaunch 9) head9).out.filterMap (fun o => match o with | .bridge _ _ b => some b | _ => none)).headD [])
/-- That bridge as received: with the frame alignment word in block 0. -/
def sent : BridgeView := { block0 := BitVec.ofNat 64 fawPayload, bytes := sentBytes, ago := 0 }
/-- A terminal on channel 9, its receiver powered, its framer in a state. -/
def term9 (al : Nat) : State := ((withRole run 9 roleTerm).wrP (tfAlign 9) al)

theorem test_bridge_512 : sentBytes.length = 512 ∧ Br.hcrcOk sentBytes = true := by decide +kernel

theorem witness_BridgesReceived :
    (term9 alPresync).Runs ∧ (term9 alPresync).role 9 = roleTerm ∧ (term9 alPresync).octRuns (octOf 9) = true ∧
    (term9 alPresync).rxPowered (9 : Fin 64) = true ∧ (term9 alPresync).rdP (tfAlign 9) = alPresync ∧
    ((term9 alPresync).presync 9 view0 view0 view0).2 = false ∧
    Br.hcrcOk view0.bytes = false ∧
    (let s := (term9 alPresync).modFramer 9 (fun f => { f with pre := 2, pLtn := (Br.ltn sentBytes + 2 ^ 32 - 1) % 2 ^ 32 })
     (s.presync 9 sent sent sent).2 = true ∧ (s.framer 9).pre ≠ 0) ∧
    (let s := (term9 alSync).modFramer 9 (fun f => { f with j := jZero })
     s.rdP (tfAlign 9) = alSync ∧ (s.framer 9).j ≠ jUndecided) ∧ run.role 9 ≠ roleTerm ∧
    (let s := ((paired.wrP (lanePWR 71) pwrOn).wrP (tfAlign 71) alSync).modFramer 71 (fun f => { f with j := jZero })
     s.paired = true ∧ s.rxPowered (64 + (7 : Fin 8)) = true ∧ s.rdP (tfAlign (64 + (7 : Fin 8))) = alSync ∧
      (s.framer (64 + (7 : Fin 8))).j ≠ jUndecided) ∧ run.paired = false ∧
    ((term9 alSync).modFramer 9 (fun f => { f with j := jUndecided })).framer 9 = { (term9 alSync).framer 9 with j := jUndecided } ∧
    (let s := (paired.wrP (lanePWR 71) pwrOn).wrP (tfAlign 71) alPresync
     let t := s.modFramer 71 (fun f => { f with pre := 2, pLtn := (Br.ltn sentBytes + 2 ^ 32 - 1) % 2 ^ 32 })
     s.rxPowered (64 + (7 : Fin 8)) = true ∧ (s.presync 71 view0 view0 view0).2 = false ∧ t.rdP (tfAlign 71) = alPresync ∧
      (t.presync 71 sent sent sent).2 = true ∧ ((t.wrP (tfAlign 71) alSync).modFramer 71 (fun f => { f with j := jUndecided })).rdP (tfAlign 71) = alSync) ∧
    (paired.rxPowered (64 + (7 : Fin 8)) = false) := by decide +kernel

theorem witness_MessageQueues : run.Takes 4 ∧ run.rd F.CHSEL_BCAST 4 ∉ [1, 2] ∧ run.rd F.CHSEL_CH 4 = 0 ∧
    run.octServes (octOf 0) = true ∧
    ((run.modFramer 0 (fun f => { f with bmTx := List.replicate 15 (zeros 64) })).framer 0).bmTx.length < 16 ∧
    16 ≤ ((run.modFramer 0 (fun f => { f with bmTx := List.replicate 16 (zeros 64) })).framer 0).bmTx.length := by decide +kernel

/-- A frame with link header for terminal 5, or for all, of 64 bytes, spoilt nowhere. -/
def lineFrame (bc tid : Nat) : List Byte :=
  let h := toBytes ([8 * tid + 4 * bc, 0] ++ bytesBE 2 64 ++ [0, 0])
  h ++ toBytes (bytesBE 2 (crc16 h)) ++ zeros 64

def synced : State := (term9 alSync).modFramer 9 (fun f => { f with deliver := true })

theorem witness_TreeFrames : run.Runs ∧ run.takesFrames 0 = false ∧ synced.takesFrames 9 = true ∧
    (fieldBE (zeros 72) 6 2 ≠ crc16 ((zeros 72).take 6)) ∧
    (let f := lineFrame 0 5
     fieldBE f 6 2 = crc16 (f.take 6) ∧ 64 ≤ hdrLen f ∧ hdrLen f ≤ synced.rd F.CH_TF_CFG_MAX_LEN 9 ∧ f.length = 8 + hdrLen f ∧
      synced.role 9 = roleTerm ∧ hdrBc f = false ∧ synced.rd F.CH_TF_CFG_TID 9 ≠ hdrTid f) ∧
    (let f := lineFrame 1 0
     fieldBE f 6 2 = crc16 (f.take 6) ∧ f.length = 8 + hdrLen f ∧ hdrBc f = true ∧ hdrProt f = false) ∧
    7 ≤ (lineFrame 0 5).length ∧ synced.inBadCodeword 9 0 0 (frameBlocks 64) = false ∧
    (synced.modLane 9 (fun l => { l with unc := List.range 2 })).inBadCodeword 9 0 0 (frameBlocks 64) = true ∧
    (let s := ((withRole run 9 roleHead).modTree 9 (fun t => { t with maps := [(7, (7, [{ MapEnt.none with tid := 5, start := 10, len := 200 }]))] })).wr
       (F.CH_TREC_STATE_STATE 5) 9 hOperate
     s.role 9 = roleHead ∧ s.takesFrames 9 = true ∧ s.grantedAt 9 7 (16 * 30) = some 5 ∧ s.recState 9 5 = hOperate ∧
      s.grantedAt 9 7 0 ≠ some 5 ∧ s.on (F.CH_PP_REQUIRE 5) 9 = false ∧ (s.wr (F.CH_PP_REQUIRE 5) 9 1).on (F.CH_PP_REQUIRE 5) 9 = true) ∧
    (hdrProt (lineFrame 0 5 |>.set 0 (8 * 5 + 2)) = true ∨ hdrProt (lineFrame 0 5 |>.set 0 (8 * 5 + 1)) = true) ∧
    run.payKey 9 0 0 0 = [] ∧ (run.setKey 9 0 0 0 (zeros 32)).payKey 9 0 0 0 ≠ [] := by decide +kernel

theorem witness_TuningWrites : run.Takes 1 ∧ run.Alone 1 ∧ run.rd F.CHSEL_BCAST 1 ∉ [1, 2] ∧ run.rd F.CHSEL_CH 1 = 0 ∧
    (let w := setF 0 (F.CH_TREC_STATE_STATE 31) hOperate
     getF w (F.CH_TREC_STATE_STATE 31) = hOperate ∧ run.on (F.CH_TREC_STATE_ATTEST_OK 31) 0 = false ∧
      (run.wr F.CH_TREE_CFG_ATTEST_REQ 0 1).on F.CH_TREE_CFG_ATTEST_REQ 0 = true ∧
      (run.wr F.CH_TREE_CFG_ATTEST_REQ 0 0).on F.CH_TREE_CFG_ATTEST_REQ 0 = false) := by decide +kernel

def arr0 : Arr := { ltn := 7, pos := 0, stamp0 := 0, stampB := 0, blocks := 100, eqd := 5, took := false, late := false }
def frame0 : Frame :=
  { body := zeros 64, fcs := zeros 4, fcsNew := false, stamp := 0, cyc := 0, src := 0, entry := 0, tid := 0, bc := false, prot := false,
    flow := 0, place := 0, epoch := 0, pass := 0, start := 0, node := 0, meta16 := 0, pay := 0, labels := 0, kprev := 0, kv := false,
    kchord := 0, kflags := 0, korigin := 0, arrLen := 68 }
def qframe0 : QFrame :=
  { f := frame0, dp := 0, kind := 0, dest := 0, tid := 0, bc := false, prot := false, reason := 0, copy := false, act := 0, ameta := 0,
    hash := 0, member := 0, late := false, expired := false, restaged := false, slice := 0, cells := [0], deep := 0 }
def plan0 : Plan :=
  { u := 7, ent := MapEnt.none, frames := [{ queue := 576, ix := 0, gap := 0, lob := false }], report := [], keep := [], keepAt := 0,
    run := none }
/-- A terminal with an upstream line tick, a plan, and its frame still in the deep store. -/
def upstream : State :=
  { ((withRole run 9 roleTerm).modTree 9 (fun t => { t with arr := [arr0], todo := 1, up := some 7, plans := [plan0] })) with
    store := { run.store with queues := [(576, [.one { qframe0 with deep := 3 }])] } }
def burst0 : BurstRx :=
  { u := 7, start := 10, signal := true, delim := .found 0, head := .read true (zeros 32) (zeros 64), blocks := 0, extra := 0,
    phase := 0, baseline := 0 }
/-- A head end that expects a burst in line tick 7 at fret 10. -/
def mapped : State :=
  (withRole run 9 roleHead).modTree 9 (fun t => { t with maps := [(7, (7, [{ MapEnt.none with start := 10, len := 20 }]))] })

/-- A channel of a valid pair, in STANDBY. -/
def pairIn (s : State) (c : Nat) : State := ((s.wr F.TWN_STAT_STRAP 0 1).wr (F.TWN_PAIR_VALID c) 0 1).wr (F.TWN_PAIR_STATE c) 0 0

theorem witness_UpstreamSide : upstream.Runs ∧ run.role 9 ≠ roleTerm ∧ (run.tree 9).plans = [] ∧
    (upstream.role 9 = roleTerm ∧ upstream.octRuns (octOf 9) = true ∧ (upstream.tree 9).todo ≠ 0 ∧
      (upstream.tree 9).arr[(upstream.tree 9).todo - 1]? = some arr0 ∧ arr0.took = false) ∧
    ((upstream.tree 9).plans = [plan0] ∧ (upstream.tree 9).up = some 7 ∧ ltnLe plan0.u 7 = true ∧
      upstream.on F.CH_BOW_STAT_PANIC 9 = false ∧ upstream.pairValid 9 = false ∧
      (upstream.modTree 9 (fun t => { t with plans := [] })).arrOf 9 plan0.u = some arr0) ∧ upstream.unstaged 9 ≠ [] ∧
    plan0.run = none ∧ upstream.launchOf 9 plan0 = some 12 ∧ 12 ≤ upstream.now16 + 16000 * upstream.rd F.CH_BOW_CFG_PANIC_US 9 ∧
    upstream.panicHolds 9 = true ∧ run.panicHolds 9 = false ∧ (run.wr F.CH_BOW_STAT_PANIC 9 1).on F.CH_BOW_STAT_PANIC 9 = true ∧
    (let s := { upstream with store := run.store }
     let p := { plan0 with run := some { arr := arr0, rd := rd0, next := 0, taken := 0 } }
     p.run ≠ none ∧ (s.unstaged 9 = []) ∧ { arr0 with took := true }.took = true) ∧
    (let s := pairIn upstream 9
     s.role 9 = roleTerm ∧ s.pairActive 9 = false ∧ upstream.pairActive 9 = true) ∧
    (mapped.Runs ∧ mapped.takesBursts 9 = true ∧ ((mapped.mapOf 9 burst0.u.toNat).find? (fun e => e.start == burst0.start.toNat)).isSome = true ∧
      (mapped.mapOf 9 burst0.u.toNat).all (fun e => e.start != (11 : BitVec 13).toNat) = true) ∧ run.takesBursts 9 = false := by decide +kernel

/-! ### Classification -/

def piped : State := run.setPipe 16 [frame0]
def onHold : State := run.setHold 16 [{ f := frame0, w := { lay := [], pay := 0, labels := 0, fv := [], prof := 0 }, act := 0 }]

theorem witness_ParseStages : run.Runs ∧ run.pipe 0 = [] ∧ piped.pipe 16 = [frame0] ∧ (run.setPipe 7 [frame0]).asleep 7 = false ∧
    (let s := run.setPipe 7 [frame0, { frame0 with flow := 1 }, frame0]
     s.asleep 7 = false ∧ (s.pipe 7)[(1 : Fin 3).val]? = some { frame0 with flow := 1 } ∧ (∀ x ∈ (s.pipe 7).take 1, x.flow ≠ 1) ∧
      (s.pipe 7)[(2 : Fin 3).val]? = some frame0 ∧ (∃ x ∈ (s.pipe 7).take 2, x.flow = frame0.flow)) ∧
    (run.holdOf 3).length ≤ 0 ∧ ((onHold.holdOf 16)[0]?).isSome = true ∧
    (∀ x ∈ onHold.holdOf 16, x.f.flow = frame0.flow → frame0.place ≤ x.f.place) ∧
    (let s := onHold.setHold 16 (onHold.holdOf 16 ++ (onHold.holdOf 16).map (fun h => { h with f := { h.f with place := 9 } }))
     (s.holdOf 16)[1]?.map (·.f.place) = some 9 ∧ (s.holdOf 16).any (fun x => x.f.flow == frame0.flow && x.f.place < 9) = true ∧
      frame0.flow ≠ unordered) ∧
    (run.recqOf (recqKey 16) = [] ∧ run.waiting = [] ∧ run.holdOf 16 = []) ∧
    (let s : State := { run with cls := { run.cls with former := 8 } }
     bit s.cls.former 3 = true ∧ s.rd F.CLS_EPOCH_NOW 0 ≠ 3 ∧ s.inEpoch 3 = 0) ∧ run.rd F.CLS_EPOCH_NOW 0 = 0 ∧
    ((run.setRecq 8 [{ frame0 with epoch := 3, pass := 1 }]).inEpoch 3 ≠ 0) := by decide +kernel

theorem witness_ClassifierRefills : run.Runs := by decide +kernel

theorem witness_ClassifierWrites : run.Takes 0 ∧ (0x3FFFC : BitVec 26).toNat % 4 = 0 ∧
    (let s := (run.wr F.TWN_STAT_STRAP 0 2).wr F.TWN_CFG_COPY_RULES 0 1
     s.ruleRefused 16 = true ∧ s.Takes 16 ∧ s.on F.CLS_EM_CTL_BUSY 16 = false ∧ s.ruleRefused 17 = false) ∧
    (run.wr F.CLS_EM_CTL_BUSY 18 1).on F.CLS_EM_CTL_BUSY 18 = true ∧ run.on F.CLS_EM_CTL_BUSY 18 = false ∧
    run.ruleRefused 18 = false := by decide +kernel

def emOp : EmOp := { req := 18, op := 0, ctl := 0, actw := 5, key := zeros 64 }

theorem witness_ExactDone : run.Runs ∧ run.cls.emOps = [] ∧ { run with cls := { run.cls with emOps := [emOp] } }.emNext = some emOp ∧
    emOp.req < 19 := by decide +kernel

/-! ### Store, order, queues, shapers and gates -/

/-- A queue of channel 0, a head end, with a run in the deep store. -/
def inDeep : State :=
  { withRole run 0 roleHead with store := { run.store with queues := [(5, [.run [{ qframe0 with deep := 3 }]])] } }

theorem witness_StoreAndShapers : run.Runs ∧ run.restages 0 = false ∧ run.restages 4095 = false ∧ run.restages 4096 = false ∧
    run.restages 4240 = true ∧ run.restages 4247 = true ∧
    (inDeep.restages 5 = true ∧ aheadBytes (inDeep.queue 5) < 1024 * inDeep.rd F.OCT_STORE_RES_RESTAGE_KIB (restageOct 5)) ∧
    (let s : State := { run with egress := { run.egress with shp := [(shpQueue 0, 0)] } }
     shpQueue 0 ∈ s.shpKeys ∧ s.asleep (octOf (shpChannel (shpQueue 0))) = false) ∧
    (let s := inDeep.wr F.OCT_STORE_RES_RESTAGE_KIB (restageOct 5) 0
     s.restages 5 = true ∧ 1024 * s.rd F.OCT_STORE_RES_RESTAGE_KIB (restageOct 5) ≤ aheadBytes (s.queue 5)) ∧
    (run.fsFrom 7 2 2 98303 = [786431, 688128]) ∧ (linkWords [5, 9])[1]? = some (9, 2 ^ 31) ∧
    (let d := { DeepFr.none with cells := [1, 2, 3], desc := zeros 32, runNext := 7 }
     d.desc.length = 32 ∧ d.runNext < 2 ^ 32 ∧ 184 + 248 * 1 ≤ (zeros 432).length ∧ d.cells[1 + 1]? = some 3) := by decide +kernel

theorem witness_Scheduling : run.Runs ∧ (withRole run 63 roleTerm).role (63 : Fin 65) ≠ roleHead ∧
    (withRole run 63 roleTerm).role (63 : Fin 65) ≠ roleClient ∧ run.paired = false ∧
    paired.paired = true ∧
    (head9.role (9 : Fin 65) ≠ roleTerm ∧ (∀ k < 64, head9.dropOversize (64 * 9 + k) (head9.qCount (64 * 9 + k)) = head9) ∧
      head9.canSend 9 = true ∧ head9.role 9 = roleHead) ∧
    ((withRole run 9 roleClient).canSend 9 = true ∧ (withRole run 9 roleClient).role 9 = roleClient) ∧ run.canSend 0 = false := by
  decide +kernel

def gateList (start : Nat) : GateList := { entries := [(0xFF, 1000)], cycle := 1000, start }
def gated (start : Nat) : State :=
  { run with egress := { run.egress with gates := [(63, { Gate.reset with pend := some (gateList start) })] } }

theorem witness_Gates : run.Runs ∧ (run.gate 63).pend = none ∧
    (((gated 1).gate 63).pend = some (gateList 1) ∧ (gated 1).bound100 63 < 100 * (gateList 1).start) ∧
    (((gated 0).gate 63).pend = some (gateList 0) ∧ 100 * (gateList 0).start ≤ (gated 0).bound100 63) := by decide +kernel

/-! ### Pegs -/

theorem witness_PegCapture : run.Takes 18 := by decide +kernel

theorem witness_PegRequests : run.Takes 0 ∧ run.Alone 0 ∧ ((run.servoOf 0).req.isSome = false) ∧ ((stepping 0 (.set 9)).servoOf 0).req.isSome = true ∧
    (let s := (run.wr F.PEG_SRV_CFG_EN 0 1).wr F.PEG_SRV_CFG_SOURCE 0 srcFw; s.source (s.rd F.PEGSEL 0) = srcFw) ∧
    run.source (run.rd F.PEGSEL 0) ≠ srcFw ∧ (stepping 15 (.step (-7))).stepSize 15 = some (-7) := by decide +kernel

theorem witness_HoldoverAndTemperature :
    (let s := ((run.wr F.PEG_SRV_CFG_EN 15 1).wr F.PEG_SRV_CFG_SOURCE 15 1).wr F.PEG_SRV_STAT_STATE 15 svLocked
     let s : State := { s with pegs := { s.pegs with servo := [(15, { Servo.reset with age := s.rd F.PEG_SRV_TMO 15 })] } }
     s.Runs ∧ s.source 15 ≠ 0 ∧ s.rd F.PEG_SRV_STAT_STATE 15 = svLocked ∧ s.rd F.PEG_SRV_TMO 15 ≤ (s.servoOf 15).age) ∧
    (let s := run.wr F.PEG_SRV_TMO 0 1
     (s.servoOf 0).age < s.rd F.PEG_SRV_TMO 0) := by decide +kernel

/-- An edge of input 17 waits to act. -/
def edged : State := { run with flt := { run.flt with ins := [(17, { InSt.reset with acts := 1 })] } }
/-- 1PPS input 1 in use, at a device cycle. -/
def ppsUsed (cyc : Nat) : State :=
  let s := (edged.wr (F.PEG_PPSIN_CFG_EN 1) 0 1).wr (F.PEG_PPSIN_STAT 1) 0 0
  { s with pegs := { s.pegs with cyc } }
/-- 1PPS output 1 asserted at cycle 0. -/
def ppsHigh (cyc : Nat) : State :=
  { run with pegs := { run.pegs with cyc, ppsOut := [(1, { PpsOut.reset with high := true, edge := some 0, told := false })] } }

theorem witness_PulsePerSecond : run.Runs ∧ run.edgeWaits 16 = false ∧ edged.edgeWaits (16 + (1 : Fin 2)) = true ∧
    edged.on (F.PEG_PPSIN_CFG_EN 1) 0 = false ∧
    ((ppsUsed 0).edgeWaits 17 = true ∧ (ppsUsed 0).on (F.PEG_PPSIN_CFG_EN 1) 0 = true ∧ ((ppsUsed 0).ppsIn 1).given = none ∧
      (ppsUsed 0).on (F.PEG_PPSIN_STAT 1) 0 = false) ∧
    (let s : State := { ppsUsed (cycles900ms - 1) with pegs := { (ppsUsed (cycles900ms - 1)).pegs with
        ppsIn := [(1, { PpsIn.reset with given := some 0 })] } }
     (s.ppsIn 1).given = some 0 ∧ s.edgeWaits 17 = true ∧ s.pegs.cyc - 0 < cycles900ms) ∧
    (((ppsUsed (4 * 10 ^ 9)).ppsIn 1).last + 4 * 10 ^ 9 ≤ (ppsUsed (4 * 10 ^ 9)).pegs.cyc ∧
      (ppsUsed (4 * 10 ^ 9 - 1)).pegs.cyc < ((ppsUsed (4 * 10 ^ 9 - 1)).ppsIn 1).last + 4 * 10 ^ 9) ∧
    (let s := (run.wr (F.PEG_PPSOUT_CFG_EN 0) 0 1).wr (F.PEG_PPSOUT_CFG_SQUELCH 0) 0 0
     s.on (F.PEG_PPSOUT_CFG_EN 0) 0 = true ∧ s.squelched 0 = false ∧ s.ppsDue 0 = true) ∧ run.on (F.PEG_PPSOUT_CFG_EN 1) 0 = false ∧
    (let w := 2000 * min 999999 (run.rd (F.PEG_PPSOUT_CFG_WIDTH_US 1) 0)
     ((ppsHigh w).ppsOut 1).high = true ∧ (ppsHigh w).ppsEnd 1 ≤ (ppsHigh w).pegs.cyc ∧
      (ppsHigh (w - 1)).pegs.cyc < (ppsHigh (w - 1)).ppsEnd 1) ∧ (run.ppsOut 0).high = false := by decide +kernel

theorem witness_TimeOfDayAndReference : run.Runs ∧
    (let s (n : Nat) := ((ppsHigh n).wr F.PEG_TOD_CFG_OUT_EN 0 1).wr F.PEG_TOD_CFG_PPSOUT 0 1
     let d := 2000000 * max 1 (run.rd F.PEG_TOD_CFG_OUT_DLY 0)
     (s d).todDue = true ∧ (s d).rd F.PEG_TOD_CFG_PPSOUT 0 = 1 ∧ ((s d).ppsOut 1).edge = some 0 ∧ ((s d).ppsOut 1).told = false ∧
      (s d).on F.PEG_TOD_CFG_OUT_EN 0 = true ∧ (s (d - 1)).todDue = false) ∧
    (let a : RefIn := { present := true, ppb := 30000 }
     let b : RefIn := { present := true, ppb := -30001 }
     let s := run.wr F.PEG_REF_CFG_USE10 0 1
     (a.present && (!true || !s.on F.PEG_REF_CFG_USE10 0 || decide (a.ppb.natAbs ≤ 30000))) = true ∧
      (b.present && (!true || !s.on F.PEG_REF_CFG_USE10 0 || decide (b.ppb.natAbs ≤ 30000))) = false ∧
      (b.present && (!false || !s.on F.PEG_REF_CFG_USE10 0 || decide (b.ppb.natAbs ≤ 30000))) = true) ∧
    run.on F.PEG_TOD_CFG_OUT_EN 0 = false ∧ (run.wr F.PEG_TOD_CFG_IN_EN 0 1).on F.PEG_TOD_CFG_IN_EN 0 = true ∧
    todValid (zeros 16) = false ∧ todValid (run.todMessage 0 5) = true ∧ run.rd F.PEG_REF_CFG_PREFER 0 = 0 ∧
    (run.wr F.PEG_REF_CFG_PREFER 0 1).rd F.PEG_REF_CFG_PREFER 0 = 1 := by decide +kernel

/-! ### Clients and the host -/

def client9 : State := (withRole run 9 roleClient).wrP (laneFEC 9) 1
/-- A frame with its FCS. -/
def fcsFrame (n : Nat) : List Byte := let b := zeros n; b ++ fcsBytes b
/-- A MAC control frame of 64 bytes. -/
def ctrlFrame (da : List Byte) (op : Nat) : List Byte :=
  let b := da ++ zeros 6 ++ toBytes (bytesBE 2 0x8808 ++ bytesBE 2 op) ++ zeros 44
  b ++ fcsBytes b

theorem witness_ClientSide : run.Runs ∧ run.clientReceives 0 = false ∧ client9.clientReceives 9 = true ∧
    fcsOk (zeros 64) = false ∧ (fcsOk (fcsFrame 59) = true ∧ (fcsFrame 59).length < 64) ∧
    (fcsOk (fcsFrame 60) = true ∧ 64 ≤ (fcsFrame 60).length ∧ (fcsFrame 60).length ≤ client9.maxFrame 9 ∧ fieldBE (fcsFrame 60) 12 2 ≠ 0x8808) ∧
    (let s := client9.wr F.CH_MAC_CFG_OBEY 9 1; s.on F.CH_MAC_CFG_OBEY 9 = true ∧ s.clientReceives 9 = true) ∧
    (let s := client9.wr F.CH_MAC_STAT_PAUSED 9 1
     let t : State := { s with egress := { s.egress with pauseEnd := [(9, 1)] } }
     s.on F.CH_MAC_STAT_PAUSED 9 = true ∧ s.pauseHolds 9 = false ∧ t.pauseHolds 9 = true) ∧ client9.on F.CH_MAC_STAT_PAUSED 9 = false ∧
    client9.codewordsBad 9 ((client9.lane 9).cws - 1 - 0) 1 = false ∧
    (client9.modLane 9 (fun l => { l with cws := 5, unc := [3] })).codewordsBad 9 (5 - 1 - 1) 2 = true ∧
    (let f := ctrlFrame pauseDa 1
     fcsOk f = true ∧ 64 ≤ f.length ∧ f.length ≤ client9.maxFrame 9 ∧ fieldBE f 12 2 = 0x8808 ∧ fieldBE f 14 2 = 1 ∧ f.take 6 = pauseDa) ∧
    (let f := ctrlFrame pauseDa 2
     fcsOk f = true ∧ fieldBE f 12 2 = 0x8808 ∧ fieldBE f 14 2 ≠ 1) := by decide +kernel

theorem witness_ClientSide_long : fcsOk (fcsFrame 61) = true ∧ 64 ≤ (fcsFrame 61).length ∧
    (let s := client9.wr F.CH_MAC_CFG_MAX_FRAME 9 64; s.maxFrame 9 < (fcsFrame 61).length ∧ s.clientReceives 9 = true) := by decide +kernel

def hosted : State := { run with host := { run.host with link := true, bme := true } }
/-- A host that can receive on ring 127, one frame waiting. -/
def ringed : State :=
  { hosted with store := { hosted.store with queues := [(4096 + 127, [.one qframe0])] }, host := { hosted.host with rxTok := 1 } }

theorem witness_HostTransfers : run.Runs ∧ run.hostUp = false ∧
    (let s := ((hosted.wr F.HDMA_RING_CFG_EN 255 1).wr F.HDMA_RING_TAIL 255 1)
     let s : State := { s with host := { s.host with txTok := 1 } }
     s.hostUp = true ∧ 0 < s.host.txTok ∧ s.nextTx = some 255) ∧ hosted.nextTx = none ∧
    hosted.deliverable (qRing 127) = none ∧ ringed.deliverable (qRing (127 : Fin 128)) = some qframe0 ∧
    { ringed with host := run.host }.hostUp = false ∧ ringed.hostUp = true ∧ ringed.on F.HDMA_RING_CFG_EN 127 = false ∧
    (let s := ringed.wr F.HDMA_RING_CFG_EN 127 1
     s.on F.HDMA_RING_CFG_EN 127 = true ∧ s.deliverable (qRing 127) = some qframe0 ∧ 0 < s.host.rxTok ∧
      (s.wr F.HDMA_RING_STAT_EMPTY 127 1).on F.HDMA_RING_STAT_EMPTY 127 = true ∧
      (s.wr F.HDMA_RING_STAT_EMPTY 127 0).on F.HDMA_RING_STAT_EMPTY 127 = false) := by decide +kernel

theorem witness_RingControl : run.Runs ∧ run.Takes 0 ∧ run.Alone 0 ∧ (run.wr F.RINGSEL 0 255).rd F.RINGSEL 0 = 255 ∧
    (run.wr F.RINGSEL 0 255).Takes 0 ∧ (let s := run.wr F.HDMA_RING_CFG_SIZE 255 6; (63 : BitVec 16).toNat < s.ringSize 255 ∧ s.ringSize 255 ≤ (64 : BitVec 16).toNat) ∧
    run.on F.HDMA_RING_CFG_EN 0 = false ∧ (run.wr F.HDMA_RING_CFG_EN 0 1).on F.HDMA_RING_CFG_EN 0 = true ∧
    (let s := (run.wr F.HDMA_RING_IRQ_EN 0 1).wr F.HDMA_RING_IRQ_TIME_US 0 1
     let s : State := { s with host := { s.host with unsig := [(0, 1)] }, pegs := { s.pegs with cyc := 2000 } }
     s.on F.HDMA_RING_IRQ_EN 0 = true ∧ s.rd F.HDMA_RING_IRQ_TIME_US 0 ≠ 0 ∧ s.unsig 0 ≠ 0 ∧
      tget (fun _ => 0) s.host.unsigAt 0 + 2000 * s.rd F.HDMA_RING_IRQ_TIME_US 0 ≤ s.pegs.cyc ∧
      { s with pegs := { s.pegs with cyc := 1999 } }.pegs.cyc < tget (fun _ => 0) s.host.unsigAt 0 + 2000 * s.rd F.HDMA_RING_IRQ_TIME_US 0) := by
  decide +kernel

theorem witness_PciExpress : 0xA0000 < 0x100000 ∧ 0xA0000 / 0x10000 = 0xA ∧ run.host.msixPend = [] := by decide +kernel

/-! ### The deep store's memory -/

def chan (m : Nat) (s : State) (x : MCh) : State := { s with mem := { s.mem with chans := tput (fun _ => MCh.reset) s.mem.chans m x } }
/-- Memory channel 63 in use. -/
def mem63 : State := run.wr F.MEM_CH_STAT_USE 63 useIn
def panicRead : MReq := { who := 0, cell := 0, gran := 0, write := false, frame := 0, panic := true, bank := 0, row := 0 }

theorem witness_MemoryChannels : run.Runs ∧ (run.wr F.MEM_CH_STAT_USE 0 useOut).rd F.MEM_CH_STAT_USE 0 ≠ useIn ∧
    (mem63.rd F.MEM_CH_STAT_USE 63 = useIn ∧ mem63.rd F.MEM_CH_STAT_DEBT 63 + 1 < 16 ∧ mem63.memPanic = false) ∧
    (let s := mem63.wr F.CH_BOW_STAT_PANIC 3 1
     s.memPanic = true ∧ (s.wr F.MEM_CH_STAT_DEBT 63 (s.postponeMax - 1)).rd F.MEM_CH_STAT_DEBT 63 + 1 ≤ s.postponeMax ∧
      s.postponeMax < (s.wr F.MEM_CH_STAT_DEBT 63 s.postponeMax).rd F.MEM_CH_STAT_DEBT 63 + 1) ∧
    (mem63.wr F.MEM_CH_STAT_DEBT 63 1).rd F.MEM_CH_STAT_DEBT 63 ≠ 0 ∧
    ((chan 63 mem63 { MCh.reset with refPend := 1 }).mch 63).refPend ≠ 0 ∧
    (let s := chan 63 mem63 { MCh.reset with queue := [panicRead] }
     (s.mch 63).refPend = 0 ∧ (s.mch 63).pick (0xFFFF : BitVec 16).toNat (fun r => r.panic && !r.write) = some panicRead ∧
      s.isPoisoned panicRead.cell panicRead.gran = false ∧ s.rd F.MEM_CH_STAT_USE 63 = useIn) ∧
    (mem63.rd F.MEM_REF_CFG_HOT_ON 0 : Int) < degrees (127 : BitVec 8).toNat ∧
    degrees (0 : BitVec 8).toNat ≤ min (mem63.rd F.MEM_REF_CFG_HOT_OFF 0 : Int) ((mem63.rd F.MEM_REF_CFG_HOT_ON 0 : Int) - 1) ∧
    (let s := chan 63 mem63 { MCh.reset with slotEnd := mem63.pegs.cyc + 1 }
     s.inSlot 63 = true ∧ mem63.inSlot 63 = false ∧ s.rd F.MEM_CH_STAT_USE 63 = useIn) ∧
    (let q := { panicRead with panic := false }
     let s := chan 63 mem63 { MCh.reset with queue := [q] }
     (s.mch 63).pick 0xFFFF (fun r => r.panic && !r.write) = none ∧ s.refreshBanks 63 0xFFFF = [] ∧
      { s.mch 63 with drain := s.drains (s.mch 63) }.pickNormal 0xFFFF = some q ∧
      { s.mch 63 with drain := s.drains (s.mch 63) }.pickNormal 0xFFFE = none ∧
      (s.wr F.MEM_CH_STAT_DEBT 63 1).refreshBanks 63 0xFFFE ≠ [] ∧ (s.mch 63).pick 0xFFFE (fun r => r.panic && !r.write) = none) ∧
    run.slotMayStart 63 = false ∧
    (let s := mem63.wr F.MEM_CH_STAT_RETRAIN 63 1
     s.slotMayStart 63 = true ∧ (s.wr F.MEM_CH_TEMP_SLOTS 63 6).rd F.MEM_CH_TEMP_SLOTS 63 + 1 < 8 ∧
      8 ≤ (s.wr F.MEM_CH_TEMP_SLOTS 63 7).rd F.MEM_CH_TEMP_SLOTS 63 + 1 ∧ (s.wr F.MEM_CH_TEMP_SLOTS 63 7).slotMayStart 63 = true) := by
  decide +kernel

def okRes : DeepRes := { corr := 0, retries := 0, err := none }

/-- The request of core 15 for the granule at byte 64, issued, of its access number 5. -/
def coreReq : MReq := { panicRead with who := whoCore, cell := run.coreCell 64, gran := 1, frame := 5, panic := false }
def coreDoes (op : CoreOp) (todo : List Nat) : State :=
  let s := chan 0 run { MCh.reset with fly := [coreReq] }
  { s with tds := { s.tds with accs := [(5, some { core := 15, addr := 64, op, todo, wait := false, bad := false })] } }

theorem witness_CoreMemory : run.Runs ∧ (run.mch 0).fly.length ≤ 0 ∧
    ((chan 0 run { MCh.reset with fly := [panicRead] }).mch 0).fly[0]? = some panicRead ∧ panicRead.who ≠ whoCore ∧ panicRead.who ≠ whoPort ∧
    { panicRead with who := whoPort }.who = whoPort ∧ okRes.err = none ∧ { okRes with err := some 2 }.err ≠ none ∧
    (let d : List (Option Byte) := [some 7]
     let s := coreDoes (.write d) [64]
     (s.mch 0).fly[0]? = some coreReq ∧ coreReq.who = whoCore ∧ (s.accOf coreReq.frame).map (·.op) = some (.write d) ∧
      (s.accOf coreReq.frame).map (·.todo.contains (coreByte coreReq.cell coreReq.gran)) = some true ∧ d[0]? = some (some 7) ∧
      (64 + 0) / 64 * 64 = coreByte coreReq.cell coreReq.gran) ∧
    ((coreDoes (.read 8) [64]).accOf 5).map (fun x => (x.todo, x.bad)) = some ([64], false) ∧
    ((coreDoes (.amo .sc true (zeros 8)) [64]).resvOf 15 ≠ some (64 / 64 * 64)) ∧
    (let s := coreDoes (.amo .sc false (zeros 4)) [64]
     (s.setResv 15 (some 64)).resvOf 15 = some (64 / 64 * 64)) ∧
    run.poisonRoom (2 ^ 24 - 1) = true := by decide +kernel

def moSt (st : Nat) : State := run.wr F.MEM_MAPOUT_STATE 0 st
def deepFr : DeepFr := { DeepFr.none with cells := [0] }

theorem witness_MapOut : run.Runs ∧ run.Takes 0 ∧ (moSt moIn).rd F.MEM_MAPOUT_STATE 0 = moIn ∧
    ((moSt moOut).rd F.MEM_MAPOUT_STATE 0 = moOut ∧ (moSt moOut).mem.mdev < 16 ∧ (moSt moOut).Takes 0) ∧
    (moSt moDrain).rd F.MEM_MAPOUT_STATE 0 = moDrain ∧ (moSt moDrain).mem.deep.all (fun e => !e.2.held.any (moSt moDrain).cellClosed) = true ∧
    (let s : State := { moSt moDrain with mem := { (moSt moDrain).mem with deep := [(1, deepFr)] } }
     (s.mem.deep.find? (fun e => e.2.wr == 0 && !e.2.reading && e.2.evac.isNone && e.2.held.any s.cellClosed)) = some (1, deepFr)) ∧
    (let s : State := { moSt moDrain with mem := { (moSt moDrain).mem with deep := [(1, { deepFr with wr := 1 })] } }
     (s.mem.deep.find? (fun e => e.2.wr == 0 && !e.2.reading && e.2.evac.isNone && e.2.held.any s.cellClosed)) = none) ∧
    (moSt moIn).rd F.MEM_MAPOUT_STATE 0 ≠ moOut ∧
    (moSt moDrain).evacLeft = 0 ∧ (moSt moCopy).rd F.MEM_MAPOUT_STATE 0 = moCopy ∧ (moSt moTrain).rd F.MEM_MAPOUT_STATE 0 = moTrain ∧
    (moSt moReturn).rd F.MEM_MAPOUT_STATE 0 = moReturn := by decide +kernel

/-! ### Services -/

/-- Task record 255, selected by requester 0, in a state. -/
def task (st : Nat) : State := (run.wr F.TDS_TASK_SEL 0 255).wr T.state 255 st

theorem witness_TaskCommands : (∀ st ∈ [tsFree, tsIdle, tsReady, tsRunning, tsDelayed, tsSuspended],
      (task st).Takes 0 ∧ (task st).Alone 0 ∧ (task st).rd F.TDS_TASK_SEL 0 = 255 ∧ (task st).rd T.state 255 = st) ∧
    (Instr.arm 0, tsIdle) ∉ [(Instr.arm 0, tsFree), (.kick 0, tsIdle), (.kick 0, tsDelayed), (.suspend 0, tsIdle), (.suspend 0, tsReady),
        (.suspend 0, tsDelayed), (.suspend 0, tsRunning), (.resume 0, tsSuspended), (.free 0, tsSuspended)] ∧
    (task tsFree).armable 255 = true ∧
    (let s := ((run.wr F.TDS_TASK_SEL 0 256).wr T.state 256 tsFree).wr T.affinity 256 0
     s.rd F.TDS_TASK_SEL 0 = 256 ∧ s.rd T.state 256 = tsFree ∧ s.armable 256 = false) := by decide +kernel

/-- Core 15 online; and with task 255 running on it. -/
def online15 : State := run.wr (F.TDS_CORE_STAT_ONLINE 15) 0 1
def running15 : State :=
  (((online15.wr (F.TDS_CORE_STAT_RUN 15) 0 1).wr (F.TDS_CORE_STAT_TASK 15) 0 255).wr T.state 255 tsRunning).wr T.core 255 15

theorem witness_TaskRuns : (16 : Fin 19).val = (15 : Fin 16).val + 1 ∧ online15.Runs ∧ online15.Takes 16 ∧
    (let s := (online15.wr T.affinity 255 0x8000).wr T.state 255 tsReady
     { s with tds := { s.tds with ready := [(31, [255])] } }.nextTask 15 = some 255) ∧ online15.nextTask 15 = none ∧
    (online15.wr (F.TDS_CORE_STAT_PREEMPT 15) 0 1).on (F.TDS_CORE_STAT_PREEMPT 15) 0 = true ∧
    (let s := (run.wr T.state 255 tsDelayed).wr T.wake 255 0; s.dueTasks = [255]) ∧
    online15.on (F.TDS_CORE_STAT_RUN 15) 0 = false ∧
    (running15.on (F.TDS_CORE_STAT_RUN 15) 0 = true ∧ running15.rd (F.TDS_CORE_STAT_TASK 15) 0 = 255 ∧
      running15.tds.suspend.contains 255 = false ∧ running15.coreOnline 15 = true ∧ running15.Takes 16) ∧
    (let s : State := { running15 with tds := { running15.tds with suspend := [255] } }
     s.tds.suspend.contains 255 = true ∧ s.on (F.TDS_CORE_STAT_RUN 15) 0 = true) ∧
    (findRow F.CHSEL_CH.off).any (fun r => r.bank == .req) = true ∧
    (0 < 2 ^ 32 ∧ 2 ^ 16 - 1 < 2 ^ 16 ∧ 2 ^ 32 - 1 < 2 ^ 32) := by decide +kernel

def boxed (n : Nat) : State :=
  { run with tds := { run.tds with mboxIn := List.replicate n [1, 2, 3, 4], mboxOut := List.replicate n [5, 6, 7, 8] } }
/-- Core 15 with a frame waiting. -/
def coreFrame : State := { run with store := { run.store with queues := [(4224 + 15, [.one qframe0])] } }

theorem witness_MailboxesAndCoreFrames : run.Takes 0 ∧ (boxed 63).tds.mboxIn.length < 64 ∧ 64 ≤ (boxed 64).tds.mboxIn.length ∧
    (boxed 63).tds.mboxOut.length < 64 ∧ 64 ≤ (boxed 64).tds.mboxOut.length ∧ run.boundTasks (64 * 14 + 63) = [] ∧
    (let s := (run.wr F.TDS_EV_BIND_TASK0 959 7).wr F.TDS_EV_BIND_EN0 959 1
     s.boundTasks (64 * 14 + 63) = [7] ∧ (s.wr T.state 7 tsIdle).rd T.state 7 = tsIdle ∧
      ((s.wr T.state 7 tsDelayed).wr T.evwake 7 1).on T.evwake 7 = true ∧ (s.wr T.state 7 tsRunning).rd T.state 7 ≠ tsIdle ∧
      ((s.wr F.TDS_EV_BIND_TASK1 959 5).wr F.TDS_EV_BIND_EN1 959 1).boundTasks (64 * 14 + 63) = [5, 7]) ∧
    (let s (a : Nat) : State := { run with tds := { run.tds with inj := [(15, some (a, 64))] } }
     tget (fun _ => none) (s 0).tds.inj 15 = some (0, 64) ∧ corePlace 0 = .sram 0 ∧ corePlace 0x3FFFF = .sram 0x3FFFF ∧
      corePlace 0x40000000 = .mem 0 ∧ (s 0x40000000).corePoisoned 0 (min 64 16379) = false ∧
      ((s 0x40000000).poison (run.coreCell 0) 0 0 0).corePoisoned 0 (min 64 16379) = true ∧ corePlace 0x40000 = .none ∧
      corePlace 0x10000000 = .place (.reg 0)) ∧ tget (fun _ => none) run.tds.inj 15 = none ∧
    run.Takes 16 ∧ run.Takes 1 ∧ run.on F.TDS_INJ_CTL_BUSY 16 = false ∧ (run.wr F.TDS_INJ_CTL_BUSY 16 1).on F.TDS_INJ_CTL_BUSY 16 = true ∧
    (let s := ((run.wr (F.TDS_IN_HEAD 15) 0 511).wr (F.TDS_IN_TAIL 15) 0 0)
     (s.rd (F.TDS_IN_HEAD 15) 0 + 1) % 512 = s.rd (F.TDS_IN_TAIL 15) 0) ∧ run.deliverable (qCore 0) = none ∧
    ((coreFrame.rd (F.TDS_IN_HEAD 15) 0 + 1) % 512 ≠ coreFrame.rd (F.TDS_IN_TAIL 15) 0 ∧
      coreFrame.deliverable (qCore 15) = some qframe0 ∧
      ((coreFrame.takeDelivery (qCore 15) qframe0).readWords rd0 0 qframe0.slice).2 = false ∧
      ((coreFrame.takeDelivery (qCore 15) qframe0).readWords { rd0 with uncorrectable := [0] } 0 qframe0.slice).2 = true) := by decide +kernel

/-! ### The twin -/

/-- Surok lane 7 in service. -/
def link7 : State := (paired.wrP (tfAlign 71) alSync).modFramer 71 (fun f => { f with deliver := true })
/-- An edge of TWIN_ALIVE input 1 waits to act. -/
def aliveEdged (s : State) : State := { s with flt := { s.flt with ins := [(19, { InSt.reset with acts := 1 })] } }
/-- A Surok frame of 64 bytes: a link header with its second byte, and a queue. -/
def surokFr (b1 q : Nat) : List Byte :=
  let h := toBytes ([0, b1] ++ bytesBE 2 64 ++ bytesBE 2 q)
  h ++ toBytes (bytesBE 2 (crc16 h)) ++ zeros 64
def hbOk (m : Nat) : State := let s := paired.wr F.TWN_STAT_HB_OK 0 1; { s with twin := { s.twin with miss := m } }

theorem witness_TwinLink : run.Runs ∧ run.paired = false ∧ paired.laneRx 7 = false ∧ fieldBE (zeros 72) 6 2 ≠ crc16 ((zeros 72).take 6) ∧
    (let f := surokFr 4 0
     link7.paired = true ∧ link7.laneRx (7 : Fin 8) = true ∧ (link7.framer (64 + (7 : Fin 8))).deliver = true ∧
      link7.codewordsBad (64 + (7 : Fin 8)) 0 1 = false ∧
      (link7.modLane 71 (fun l => { l with unc := [0] })).codewordsBad (64 + (7 : Fin 8)) (0 / 80)
        ((0 + frameBlocks (f.length - 8) - 1) / 80 + 1 - 0 / 80) = true ∧ fieldBE f 6 2 = crc16 (f.take 6) ∧ 64 ≤ hdrLen f ∧ hdrLen f ≤ 16383 ∧
      f.length = 8 + hdrLen f ∧ surokCopy f = true) ∧
    (let f := surokFr 0x40 4095
     let s := ((link7.wr (F.TWN_PAIR_VALID 63) 0 1).wr F.CH_ROLE_ROLE_NOW 63 1).wr (F.TWN_PAIR_STATE 63) 0 0
     fieldBE f 6 2 = crc16 (f.take 6) ∧ surokCopy f = false ∧ surokFwd f = true ∧ s.pairActive (surokQueue f / 64) = false ∧
      s.laneRx 7 = true ∧ s.paired = true) ∧
    ((hbOk 2).paired = true ∧ (hbOk 2).twin.miss < 3) ∧
    (let s := (hbOk 3).wr F.TWN_STAT_PARTNER 0 ptUp
     3 ≤ s.twin.miss ∧ s.on F.TWN_STAT_HB_OK 0 = true ∧ s.partner = ptUp) ∧
    ((hbOk 3).wr F.TWN_STAT_PARTNER 0 ptUnheard).partner ≠ ptUp ∧ run.twin.since = none ∧
    (let s := paired.wr F.TWN_STAT_PARTNER 0 ptUnheard
     let w := 64 * max 1 (s.rd F.TWN_CFG_WAIT_SF 0)
     let s : State := { s with twin := { s.twin with since := some 0 }, eng := { s.eng with tick := w } }
     s.paired = true ∧ s.partner = ptUnheard ∧ 0 + 64 * max 1 (s.rd F.TWN_CFG_WAIT_SF 0) ≤ s.eng.tick) ∧
    (let s := (paired.wr F.TWN_STAT_PARTNER 0 ptFailed).wr F.TWN_STAT_ALIVE1 0 1
     let g (n : Nat) : State := { s with twin := { s.twin with good := n } }
     s.declared = true ∧ (g 63).twin.good < 64 ∧ 64 ≤ (g 64).twin.good ∧ s.aliveAny = true) ∧
    (let s : State := { paired with twin := { paired.twin with alive := [(1, { last := some 0, run := 3 })] } }
     let s := aliveEdged s
     let at_ (n : Nat) : State := { s with pegs := { s.pegs with cyc := n } }
     s.edgeWaits (18 + (1 : Fin 2)) = true ∧ run.edgeWaits 19 = false ∧ (s.aliveIn 1).last = some 0 ∧ 3 ≤ (s.aliveIn 1).run ∧ 0 + 30000 ≤ (at_ 30000).pegs.cyc ∧ (at_ 34000).pegs.cyc ≤ 0 + 34000 ∧
      (at_ 29999).pegs.cyc < 0 + 30000 ∧ 0 + 34000 < (at_ 34001).pegs.cyc ∧ s.on (F.FLT_IN_STAT_CHATTER (18 + (1 : Fin 2))) 0 = false) ∧
    run.on (aliveFld 0) 0 = false ∧
    (let s := paired.wr (aliveFld 1) 0 1
     let s (n : Nat) : State := { s with twin := { s.twin with alive := [(1, { last := some n, run := 4 })] } }
     (s 0).on (aliveFld 1) 0 = true ∧ (s 0).on (F.FLT_IN_STAT_CHATTER 19) 0 = false ∧ ((s 0).aliveIn 1).last = some 0 ∧
      (s 0).pegs.cyc + (s 0).cyclesTo (s 0).eng.nextB < 0 + 48000 ∧
      { s 0 with pegs := { (s 0).pegs with cyc := 48000 } }.pegs.cyc = 0 + 48000) ∧
    (let s := ((run.wr (aliveFld 0) 0 1).wr (aliveFld 1) 0 1).wr (F.FLT_IN_STAT_CHATTER 18) 0 1
     s.on (aliveFld (0 : Fin 2)) 0 = true ∧ s.on (F.FLT_IN_STAT_CHATTER (18 + (0 : Fin 2))) 0 = true ∧
      s.on (aliveFld (1 - (0 : Fin 2).val)) 0 = true) := by decide +kernel

/-- Channel 63, a head end of a valid pair, in STANDBY. -/
def pair63 : State := ((paired.wr (F.TWN_PAIR_VALID 63) 0 1).wr F.CH_ROLE_ROLE_NOW 63 1).wr (F.TWN_PAIR_STATE 63) 0 0

theorem witness_TwinSwitching : run.Takes 3 ∧ run.Alone 3 ∧ pair63.Takes 3 ∧ run.pairValid 0 = false ∧ pair63.pairValid 63 = true ∧
    pair63.pairActive 63 = false ∧ (pair63.wr F.TWN_STAT_PARTNER 0 ptFailed).partner ≠ ptUp ∧
    (pair63.wr F.TWN_STAT_PARTNER 0 ptUp).partner = ptUp ∧ (pair63.wr F.TWN_STAT_PARTNER 0 ptUp).pairValid 63 = true ∧
    2 < popCount 8 (7 : Byte).toNat ∧ popCount 8 (0x81 : Byte).toNat ≤ 2 := by decide +kernel

/-! ### Image and security -/

def phaseIs (p : Nat) : State := State.reset.wr F.IMG_STAT_PHASE 0 p
/-- The least image: header, certificate, manifest of a LANES and a FIRMWARE section, signature, and the two sections. -/
def header0 (svn : Nat) : List Byte :=
  toBytes ([0x4D, 0x52, 0x49, 0x4D] ++ bytesLE 2 1 ++ bytesLE 2 256 ++ bytesLE 4 20000 ++ bytesLE 4 svn ++ bytesLE 4 77 ++
    bytesLE 2 0x6440 ++ [0, 0] ++ bytesLE 4 256 ++ bytesLE 4 9827 ++ bytesLE 4 10084 ++ bytesLE 4 168 ++ bytesLE 4 10252) ++ zeros 212
def entry0 (type ofs len : Nat) : List Byte :=
  toBytes ([type, 0, 0, 0] ++ bytesLE 4 ofs ++ bytesLE 4 len ++ bytesLE 4 0) ++ zeros 64
def manifest0 : List Byte := toBytes (bytesLE 8 2) ++ entry0 7 14880 1152 ++ entry0 8 16032 64
def slot0 (svn : Nat) : SlotImage :=
  { readable := true, header := header0 svn, cert := [], manifest := manifest0, rootOk := true, certOk := true, sigOk := true, digestsOk := true }

theorem witness_StartPhases_layout : (phaseIs phHeader).slotCause (slot0 64) = 0 ∧ (phaseIs phHeader).slotCause (slot0 65) = 2 ∧
    (phaseIs phHeader).slotCause { slot0 64 with readable := false } = 1 ∧
    (phaseIs phHeader).slotCause { slot0 64 with manifest := toBytes (bytesLE 8 2) ++ entry0 7 14880 1152 ++ entry0 8 16031 64 } = 2 ∧
    (phaseIs phHeader).slotCause { slot0 64 with manifest := toBytes (bytesLE 8 2) ++ entry0 7 14880 1156 ++ entry0 8 16032 64 } = 2 ∧
    ((phaseIs phHeader).wr F.IMG_STAT_FUSE_SVN 0 2).slotCause (slot0 2) = 0 ∧
    ((phaseIs phHeader).wr F.IMG_STAT_FUSE_SVN 0 2).slotCause (slot0 1) = 6 := by decide +kernel

theorem witness_StartPhases : (phaseIs phReset).Runs ∧ (phaseIs phReset).phase = phReset ∧ (phaseIs phReset).phase ≠ phHeader ∧
    (phaseIs phHeader).phase = phHeader ∧
    (phaseIs phHeader).rd (imgCause (1 - (phaseIs phHeader).rd F.IMG_STAT_SLOT 0)) 0 = 9 ∧
    (let s := (phaseIs phHeader).wr (imgCause 1) 0 8
     s.rd (imgCause (1 - s.rd F.IMG_STAT_SLOT 0)) 0 ≠ 9 ∧ s.phase = phHeader) ∧
    ((phaseIs phSections).phase = phSections ∧ (phaseIs phSections).img.checked = false ∧ (phaseIs phSections).img.trained = false) ∧
    { phaseIs phSections with img := { Img.reset with checked := true } }.img.checked = true ∧
    ((0b10001 : BitVec 64).toNat / 2 ^ (4 * (0 : Fin 16).val) % 16 ≠ 0 ∧ (0b10001 : BitVec 64).toNat / 2 ^ (4 * (1 : Fin 16).val) % 16 ≠ 0) ∧
    ((phaseIs phApply).phase = phApply ∧ (phaseIs phApply).eng.commits.any (fun x => x.req == 17) = false ∧ (phaseIs phApply).img.sections = []) ∧
    (0xA4#8 ≠ 0xA5#8) ∧ keptReg false 0x40200 = false ∧ 0x40200 ∉ [F.IMG_STAT.off, F.TWN_STAT.off] := by decide +kernel

theorem witness_ImageServices : run.Runs ∧ run.on F.IMG_VERIFY_BUSY 0 = false ∧ (run.wr F.IMG_VERIFY_BUSY 0 1).on F.IMG_VERIFY_BUSY 0 = true ∧
    run.img.verify = none ∧ { run with img := { run.img with verify := some 1 } }.img.verify = some 1 ∧
    run.verifyCause (slot0 0) = 0 ∧ run.verifyCause { slot0 0 with digestsOk := false } = 8 ∧
    run.on F.IMG_FL_CTL_BUSY 0 = false ∧ (run.wr F.IMG_FL_CTL_BUSY 0 1).on F.IMG_FL_CTL_BUSY 0 = true ∧ run.startReads = false ∧
    (phaseIs phHeader).startReads = true ∧ run.img.flash = none ∧
    ({ run with img := { run.img with flash := some { op := 0, addr := 0, bytes := [] } } }.img.flash).isSome = true ∧
    run.on F.IMG_FUSE_CTL_BUSY 0 = false ∧ (run.wr F.IMG_FUSE_CTL_BUSY 0 1).on F.IMG_FUSE_CTL_BUSY 0 = true ∧ run.img.otherSvn = none ∧
    (let s := run.wr F.IMG_STAT_SVN 0 3
     let s : State := { s with img := { s.img with otherSvn := some 3 } }
     s.phase = phRun ∧ s.rd F.IMG_STAT_FUSE_SVN 0 < s.rd F.IMG_STAT_SVN 0 ∧ s.img.otherSvn = some 3 ∧ s.rd F.IMG_STAT_SVN 0 ≤ 3) ∧
    run.on F.IMG_ATT_CTL_BUSY 18 = false ∧ (run.wr F.IMG_ATT_CTL_BUSY 18 1).on F.IMG_ATT_CTL_BUSY 18 = true ∧ run.img.attQ = [] ∧
    ({ run with img := { run.img with attQ := [2, 5] } }.img.attQ = [2, 5] ∧ 2 < unheard ∧ unheard ≤ 32 + 2) ∧
    (run.Takes 4 ∧ run.ppChans 4 = [0] ∧ run.ppTid 4 0 = 0 ∧ run.rd F.CH_PP_CTL_SLOT (ppInst 4 0) = 0) ∧
    ((run.wr F.CHSEL_CH 4 63).ppChans 4 = [63]) := by decide +kernel

/-! ### Power -/

def feeds (a b : Nat) : State := (run.wr F.PWR_FEED_STAT_A_OK 0 a).wr F.PWR_FEED_STAT_B_OK 0 b
def holdup (g : Bool) : State :=
  let s := run.wr F.PWR_FEED_STAT_HOLDUP 0 1
  { s with pwr := { s.pwr with gasped := g } }
def offSt (a : Nat) : State := let s := feeds a 0; { s with pwr := { s.pwr with off := true } }

theorem witness_Feeds : (let s := (feeds 1 1).wr F.PWR_FEED_STAT_USE 0 0
      s.feedOk (0 : Fin 2) = true ∧ s.feedUse = (0 : Fin 2).val ∧ s.feedOk (1 - (0 : Fin 2)) = true) ∧
    (let s := (feeds 1 0).wr F.PWR_FEED_STAT_USE 0 0; s.feedOk (1 - (0 : Fin 2)) = false) ∧
    (let s := ((feeds 0 0).wr F.PWR_FEED_STAT_HOLDUP 0 1)
     s.feedOk (1 : Fin 2) = false ∧ s.pwr.off = false ∧ s.on F.PWR_FEED_STAT_HOLDUP 0 = true ∧ s.pwr.gasped = false) ∧ run.Runs ∧
    ((run.wr F.PWR_FEED_STAT_USE 0 0).feedUse = (run.wr F.PWR_FEED_STAT_MAIN 0 0).feedMain) ∧
    (let s := (((feeds 1 1).wr F.PWR_FEED_STAT_USE 0 1).wr F.PWR_FEED_STAT_MAIN 0 0).wr F.PWR_FEED_CFG 0 1
     let s : State := { s with pegs := { s.pegs with cyc := 2000000000 } }
     s.feedUse ≠ s.feedMain ∧ s.feedOk s.feedMain = true ∧ s.on F.PWR_FEED_STAT_HOLDUP 0 = false ∧ max 1 (s.rd F.PWR_FEED_CFG 0) ≤ s.mainOkS) ∧
    run.on F.PWR_FEED_STAT_HOLDUP 0 = false ∧ (holdup true).pwr.gasped = true ∧
    ((holdup false).on F.PWR_FEED_STAT_HOLDUP 0 = true ∧ (holdup false).pwr.gasped = false ∧ (holdup false).Runs) ∧
    run.pwr.off = false ∧ ((offSt 0).feedOk 0 = false ∧ (offSt 0).feedOk 1 = false) ∧ ((offSt 1).pwr.off = true ∧ (offSt 1).feedOk 0 = true) ∧
    run.pwr.tripped = false ∧ { run with pwr := { run.pwr with tripped := true } }.pwr.tripped = true := by decide +kernel

def octIs (o : Nat) (x : OctPwr) : State := run.setOctPwr o x

theorem witness_OctantPower : run.Takes 0 ∧ (run.wr F.OCTSEL 0 7).rd F.OCTSEL 0 = 7 ∧ (run.wr F.OCTSEL 0 7).Takes 0 ∧
    7 < (8 : Fin 16).val ∧ (7 : Fin 16).val ≤ 7 ∧
    (((octIs 7 { OctPwr.reset with step := .raising, target := 2 }).octPwr 7).step ≠ .idle ∧
      ((octIs 7 { OctPwr.reset with step := .raising, target := 2 }).octPwr 7).test = false) ∧
    ((run.octPwr 7).step = .idle ∧ run.octState 7 ≤ 3 ∧ (run.octPwr 7).queued = none) ∧
    ((octIs 7 { OctPwr.reset with step := .lowering, ticks := 12 }).octPwr 7).step = .lowering ∧
    ((octIs 7 { OctPwr.reset with step := .raising, ticks := 11 }).octPwr 7).ticks < 12 ∧
    12 ≤ ((octIs 7 { OctPwr.reset with step := .raising, ticks := 12 }).octPwr 7).ticks ∧
    (((octIs 7 { OctPwr.reset with step := .save }).octPwr 7).step = .save ∧
      ((octIs 7 { OctPwr.reset with step := .save }).octPwr 7).wake = none) ∧
    (let s := (run.wr F.CH_PWR_STAT_DOZING 63 1).wr F.CH_PWR_CTL_WAKE_SIG 63 1
     octOf (63 : Fin 64) = (7 : Fin 8).val ∧ s.on F.CH_PWR_STAT_DOZING 63 = true ∧ s.on F.CH_PWR_CTL_WAKE_SIG 63 = true ∧ s.octRuns 7 = true) ∧
    run.rd F.OCT_PWR_TIMER 0 = run.tick32 ∧
    (let s := run.wr F.OCT_PWR_STAT_STATE 7 stS1
     s.wakeEnabled 7 wkRequest = true ∧ s.asleep 7 = true ∧ (s.octPwr 7).wake = none ∧ wkRequest < 8) ∧ run.octRuns 7 = true ∧
    (let x := { OctPwr.reset with step := .save, wake := some wkRequest }
     ((octIs 7 x).octPwr 7).wake ≠ none ∧ ((octIs 7 x).octPwr 7).test = false ∧ ((octIs 7 { x with test := true }).octPwr 7).test = true) ∧
    (let s := ((run.wr F.CH_PWR_STAT_DOZING 63 1).wr F.CH_PWR_CTL_WAKE_PAT 63 1).wr F.OCT_PWR_STAT_STATE 7 stS1
     s.on F.CH_PWR_STAT_DOZING 63 = true ∧ s.on F.CH_PWR_CTL_WAKE_PAT 63 = true ∧ s.octRuns 7 = false ∧ octOf (63 : Fin 64) = 7) := by
  decide +kernel

/-- Channel 63, a client, dozing, with pattern 0 that matches every frame. -/
def dozing : State :=
  let s := (withRole run 63 roleClient).wr F.CH_PWR_STAT_DOZING 63 1
  ((s.wr F.CH_PWR_CTL_WAKE_PAT 63 0).wr ⟨0x41A80, 31, 31⟩ 63 1).wr ⟨0x41A80, 15, 0⟩ 63 (crc16 [])

theorem witness_DozeAndStandby_doze : run.Takes 0 ∧ (run.wr F.CHSEL_CH 0 63).ppChans 0 = [63] ∧ run.Runs ∧
    dozing.on F.CH_PWR_STAT_DOZING 63 = true ∧ run.pwr.waking.contains 63 = false ∧
    { run with pwr := { run.pwr with waking := [63] } }.pwr.waking.contains 63 = true ∧
    (run.wr F.CH_LANE_STAT_PWR 63 pwrRxOnly).rd F.CH_LANE_STAT_PWR 63 = pwrRxOnly ∧ run.on F.CH_PWR_STAT_DOZING 63 = false := by
  decide +kernel

theorem witness_DozeAndStandby_pattern : dozing.Runs ∧ dozing.detects 63 (fcsFrame 60) false = true ∧ dozing.role 63 ≠ roleTerm ∧
    (List.range 8).find? (fun n => dozing.patMatches 63 n (fcsFrame 60) false) = some 0 ∧
    dozing.on F.CH_PWR_CTL_WAKE_PAT 63 = false := by decide +kernel

theorem witness_DozeAndStandby_standby : (run.wr F.PWR_VETO 0 255).dsRefuser 1 = some rfVeto ∧ rfVeto < 8 ∧
    (run.wr F.PWR_VETO 0 255).Takes 1 ∧ run.dsRefuser 0 = none ∧ run.pwr.standby = false ∧
    (held.pwr.standby = true ∧ held.pwr.off = false ∧ held.pwr.tripped = false ∧ held.pwr.input = false ∧ held.inStandby = true) ∧
    (held.wr F.CH_PWR_STAT_DOZING 63 1).on F.CH_PWR_STAT_DOZING 63 = true ∧
    (held.wr F.CH_PWR_STAT_DOZING 63 1).pwr.standby = true := by decide +kernel

theorem test_octant_save_sizes : (run.queueSave 4095).length = 46 ∧ (run.meterSave 16383).length = 52 := by decide +kernel

/-! ### Faults, tests and inputs -/

def watched (w : Watch) : State := { run with flt := { run.flt with watch := [(256 * 15 + 255, w)] } }
def inputIs (i : Nat) (x : InSt) : State := { run with flt := { run.flt with ins := [(i, x)] } }
def bisting : State := { run with flt := { run.flt with bist := some (4, 15, 2) } }

theorem witness_FaultsAndInputs : run.Runs ∧ run.Takes 0 ∧ (run.watchOf 0 0).lasting = false ∧
    (let s := watched { Watch.none with lasting := true }
     (s.watchOf (15 : Fin 16) (255 : Fin 256)).ticks.any (s.within 15) = false ∧ (s.watchOf 15 255).lasting = true) ∧
    (let s := watched { Watch.none with lasting := true, ticks := [0] }
     (s.watchOf 15 255).ticks.any (s.within 15) = true) ∧ run.flt.bist = none ∧ bisting.flt.bist = some (4, (15 : Fin 16).val, 2) ∧
    (run.inputOf 19).level = false ∧ (run.inputOf 19).level ≠ true ∧
    run.on (F.FLT_IN_CFG_EN 0) (inputInst 0) = false ∧ (inputIs 0 { InSt.reset with level := true }).inputOf 0 ≠ InSt.reset ∧
    (let s := (inputIs 19 { InSt.reset with quiet := 2 }).wr (F.FLT_IN_STAT_CHATTER 19) (inputInst 19) 1
     s.on (F.FLT_IN_STAT_CHATTER 19) (inputInst 19) = true ∧ (s.inputOf 19).quiet = 2) ∧
    ((inputIs 19 { InSt.reset with quiet := 1 }).inputOf 19).quiet ≠ 2 ∧
    (let s := (((inputIs 19 { InSt.reset with level := true }).wr (F.FLT_IN_CFG_EN 19) (inputInst 19) 1).wr (F.FLT_IN_CFG_LEVEL 19)
       (inputInst 19) 1).wr (F.FLT_IN_CFG_STUCK_TICKS 19) (inputInst 19) 1
     let s : State := { s with eng := { s.eng with tick := 16 * max 1 (s.rd (F.FLT_IN_CFG_STUCK_TICKS 19) (inputInst 19)) } }
     s.on (F.FLT_IN_CFG_EN 19) (inputInst 19) = true ∧ s.on (F.FLT_IN_CFG_LEVEL 19) (inputInst 19) = true ∧ (s.inputOf 19).level = true ∧
      s.on (F.FLT_IN_STAT_STUCK 19) (inputInst 19) = false ∧
      (s.inputOf 19).since + 16 * max 1 (s.rd (F.FLT_IN_CFG_STUCK_TICKS 19) (inputInst 19)) ≤ s.eng.tick) ∧
    (let s := run.wr F.FLT_SRC_SEL_SRC 0 15; s.rd F.FLT_SRC_SEL_SRC 0 = 15 ∧ s.rd F.FLT_SRC_SEL_INST 0 = 0 ∧ s.Takes 0) ∧
    16 ≤ (run.wr F.FLT_SRC_SEL_SRC 0 16).rd F.FLT_SRC_SEL_SRC 0 ∧
    (run.wr F.FLT_SRC_SEL_SRC 0 fsLockLoss).rd F.FLT_SRC_SEL_SRC 0 = fsLockLoss ∧
    (run.wr F.FLT_BIST_STAT_BUSY 0 1).on F.FLT_BIST_STAT_BUSY 0 = true ∧
    (run.bistRefuser 0 0 8 = some rfBusy ∧ run.bistRefuser 0 7 0 = some rfBusy ∧ rfBusy < 8) ∧
    { run with flt := { run.flt with bist := some (2, 7, 2) } }.flt.bist = some (2, 7, 2) ∧
    { run with flt := { run.flt with bist := some (2, 7, 1) } }.flt.bist = some (2, 7, 1) ∧
    (inputIs 0 { InSt.reset with level := true }).on (F.FLT_IN_STAT_CHATTER 0) (inputInst 0) = false ∧
    (run.on F.FLT_BIST_STAT_BUSY 0 = false ∧ (4 : Fin 8).val = 4 ∧ run.coreOnline (15 : Fin 16) = false ∧
      run.on (F.TDS_CORE_STAT_RUN (15 : Fin 16)) 0 = false) := by decide +kernel


/-! ### Well-formed commands: each check refuses what it is for -/

theorem test_wf_registerWrite : (Instr.registerWrite 0 (.reg 0) []).wf = false ∧
    (Instr.registerWrite 0 (.reg 0) (List.replicate 513 (some 0))).wf = false ∧ (Instr.registerWrite 0 (.reg 0) (List.replicate 8 none)).wf = true := by
  decide +kernel

theorem test_wf_readClear : (Instr.readClear 0 (.reg 0) 0).wf = false ∧ (Instr.readClear 0 (.reg 0) 8).wf = true := by decide +kernel

theorem test_wf_view : let short : BridgeView := { view0 with bytes := zeros 511 }
    (Instr.bridgeReceived 0 short view0 view0).wf = false ∧ (Instr.bridgeReceived 0 view0 short view0).wf = false ∧
    (Instr.bridgeReceived 0 view0 view0 short).wf = false ∧ (Instr.surokBridgeReceived 0 view0 view0 short).wf = false ∧
    (Instr.bridgeReceived 0 view0 view0 view0).wf = true := by decide +kernel

theorem test_wf_burst : (Instr.burstReceived 0 { burst0 with head := .read true (zeros 31) (zeros 64) }).wf = false ∧
    (Instr.burstReceived 0 { burst0 with head := .read true (zeros 32) (zeros 65) }).wf = false := by decide +kernel

theorem test_wf_frame : (Instr.treeFrameReceived 0 (.cut (zeros 17)) 0 0 ⟨0, 0⟩).wf = false ∧
    (Instr.treeFrameReceived 0 (.blocks []) 0 0 ⟨0, 0⟩).wf = false ∧ (Instr.surokFrameReceived 0 (.blocks []) ⟨0, 0, 0⟩).wf = false ∧
    (Instr.clientFrameReceived 0 (zeros 17) ⟨false, 0, 0⟩).wf = false ∧ (Instr.surokFrameReceived 0 (.cut (zeros 17)) ⟨0, 0, 0⟩).wf = false ∧
    (Instr.clientFrameReceived 0 (zeros 16392) ⟨false, 0, 0⟩).wf = false ∧ (Instr.clientFrameReceived 0 (zeros 18) ⟨false, 0, 0⟩).wf = true ∧
    (Instr.alignmentMarkerLock ⟨0, List.replicate 15 0⟩).wf = false := by decide +kernel

theorem test_wf_table : (Instr.tableWordWrite 0 0 []).wf = false ∧
    (Instr.tableWordWrite 0 0 (List.replicate 513 (some 0))).wf = false := by decide +kernel

theorem test_wf_descriptors : (Instr.hostTxFetch [(zeros 32, []), (zeros 31, [])]).wf = false := by decide +kernel

theorem test_wf_slot : (Instr.headerChecked { slot0 1 with header := zeros 255 }).wf = false ∧
    (Instr.headerChecked { slot0 1 with cert := zeros 9826 }).wf = false ∧
    (Instr.imgVerifyDone { slot0 1 with manifest := zeros 5129 }).wf = false := by decide +kernel

theorem test_wf_sections : (Instr.sectionsChecked true true (List.replicate 65 [])).wf = false := by decide +kernel

/-! ### Values worked out in the spec -/

/-- The check values of the CRCs over the bytes 31 to 39 (R96, R263). -/
theorem test_crc_check_values : let b := toBytes [0x31, 0x32, 0x33, 0x34, 0x35, 0x36, 0x37, 0x38, 0x39]
    crc16 b = 0x29B1 ∧ crc32 b = 0xFC891918 ∧ fcsBytes b = toBytes [0x26, 0x39, 0xF4, 0xCB] := by decide +kernel

/-- The engine's example of windowed access (17): requester 0 selects channel 14H, requester 4 octant 6. -/
def write32 (req : Fin 19) (off v : Nat) (s : State) : State :=
  after (.registerWrite req (.reg (BitVec.ofNat 20 off)) (wholeWord (BitVec.ofNat 32 v))) s
def selected : State := write32 4 F.OCTSEL.off 6 (write32 0 F.CHSEL_CH.off 0x14 run)

theorem test_window_write : (write32 0 0x41410 0x3D090 selected).shadow 20 0x41410 = 0x3D090 ∧
    (write32 0 0x41410 0x3D090 selected).reg 20 0x41410 = 0xF4240 := by decide +kernel

/-- A register that clears when read answers its count once (17). -/
theorem test_read_clears : let s := (write32 4 0x50400 5 selected).addN ⟨0x50420, 31, 0⟩ 12293 77
    let t := after (.readClear 4 (.reg 0x50420) 4) s
    fieldLE (tget (fun _ => []) t.rdata 4) 0 4 = 77 ∧
    fieldLE (tget (fun _ => []) (after (.readClear 4 (.reg 0x50420) 4) t).rdata 4) 0 4 = 0 := by decide +kernel

/-- The spec's gate (08): cycle 250 µs, base 1,000 s, list length 3; the clock is at 1,000.007648 s. -/
def gateLate : State :=
  let s := (((run.wr F.CH_GATE_CYCLE 20 250000).wr F.CH_GATE_CFG_LEN 20 3).wr F.CH_GATE_BASE_SL 20 1000).wr F.CH_GATE_CFG_EN 20 1
  ((s.setPegTime 0 ((1000 * 10 ^ 9 + 7648000) * unitNs)).setGate 20 { Gate.reset with
    snap := [(0x08, 30000), (0xF7, 200000), (0, 20000)]
    oper := some { entries := [(0xFF, 1000000)], cycle := 1000000, start := 0 } }).gateActivate 20

theorem test_gate_starts_late : gateLate.rd F.CH_GATE_N 20 = 31 ∧ gateLate.rd F.CH_GATE_LATE 20 = 1 ∧
    gateLate.rd F.CH_GATE_S_SL 20 = 1000 ∧ gateLate.rd F.CH_GATE_S_NS 20 = 7750000 := by decide +kernel

/-- A Sync that takes 5,212 − 2,000 beats through a transparent clock (09). -/
def syncFrame : List Byte :=
  toBytes ([0xFF, 1, 2, 3, 4, 5, 6, 7, 8, 9, 10, 11, 0x88, 0xF7, 0x00, 0x02] ++ bytesBE 2 44 ++ [0, 0, 0, 0] ++ bytesBE 8 0x100000) ++ zeros 30

theorem test_transparent_clock :
    fieldBE ((run.wr F.CH_PTP_CFG_TC_EN 16 1).ptpExit 16 { frame0 with body := syncFrame, stamp := 32000, entry := 3 } syncFrame (5212 * 16 + 4)).1 22 8 =
      0x0C9C4000 := by decide +kernel

/-- The spec's lasting fault (16): fifteen events; the sixteenth declares the row. -/
def atTick (s : State) (t : Nat) : State := { s with eng := { s.eng with tick := t } }
def events15 : State :=
  [8000, 10000, 12000, 14000, 16000, 18000, 20000, 22000, 24000, 26000, 28000, 30000, 40000, 50000, 63000].foldl
    (fun s t => (atTick s t).watchRow 3 1234) run

theorem test_lasting : (events15.watchOf 0 96).lasting = false ∧ (((atTick events15 63400).watchRow 3 1234).watchOf 0 96).lasting = true := by
  decide +kernel

/-- The spec's preemption (12): of two events of one task the second only counts. -/
def preempting : State :=
  let s := (run.wr (F.TDS_CORE_STAT_ONLINE 0) 0 1).wr (F.TDS_CORE_STAT_ONLINE 1) 0 1
  let s := ((((s.wr (F.TDS_CORE_STAT_RUN 0) 0 1).wr (F.TDS_CORE_STAT_TASK 0) 0 40).wr T.state 40 tsRunning).wr T.core 40 0).wr T.prio 40 20
  let s := ((((s.wr (F.TDS_CORE_STAT_RUN 1) 0 1).wr (F.TDS_CORE_STAT_TASK 1) 0 70).wr T.state 70 tsRunning).wr T.core 70 1).wr T.prio 70 12
  let s := ((((s.wr T.affinity 40 1).wr T.affinity 70 2).wr T.prio 10 30).wr T.affinity 10 3).wr T.state 10 tsIdle
  [2 * 64 + 16, 2 * 64 + 17].foldl (fun s e => (s.wr F.TDS_EV_BIND_TASK0 e 10).wr F.TDS_EV_BIND_EN0 e 1) s

theorem test_preemption : let s := ((preempting.raise 2 16).raise 2 17).readyAll
    s.on (F.TDS_CORE_STAT_PREEMPT 1) 0 = true ∧ s.on (F.TDS_CORE_STAT_PREEMPT 0) 0 = false ∧ s.rd T.evpend 10 = 2 := by decide +kernel

end Sys2Proof.Tests
end

section
/-!
PROOF. The register map as a whole (R5 to R7, R37): what a read of a register answers and clears, what an offset without a
register does, and what a write that does not enable every byte leaves. Settles O10, O11 and O12.
-/

namespace Sys2Proof.Machine

/-! ### The bits of a register's fields -/

theorem testBit_foldl_or {α : Type} (g : α → Nat) (l : List α) (a i : Nat) :
    (l.foldl (fun m x => m ||| g x) a).testBit i = (a.testBit i || l.any (fun x => (g x).testBit i)) := by
  induction l generalizing a with
  | nil => simp
  | cons x l ih => simp [ih, Bool.or_assoc]

/-- A bit lies in fields of some access types if one of these fields has it. -/
theorem testBit_accMask (flds : List (Nat × Nat × Acc)) (p : Acc → Bool) (i : Nat) :
    (accMask flds p).testBit i =
      flds.any (fun f => p f.2.2 && ((2 ^ (f.1 + 1 - f.2.1) - 1) <<< f.2.1).testBit i) := by
  unfold accMask
  rw [testBit_foldl_or, List.any_filter, Nat.zero_testBit, Bool.false_or]

/-- No field of whatever access type has a reserved bit. -/
theorem accMask_and_reserved (flds : List (Nat × Nat × Acc)) (p : Acc → Bool) :
    BitVec.ofNat 32 (accMask flds p) &&& ~~~(BitVec.ofNat 32 (accMask flds (fun _ => true))) = 0#32 := by
  apply BitVec.eq_of_getLsbD_eq
  intro i hi
  have hsub : (accMask flds p).testBit i = true → (accMask flds (fun _ => true)).testBit i = true := by
    simp only [testBit_accMask, List.any_eq_true, Bool.and_eq_true, Bool.true_and]
    rintro ⟨f, hf, -, hb⟩
    exact ⟨f, hf, hb⟩
  simpa [← BitVec.getLsbD_eq_getElem, BitVec.getLsbD_ofNat, hi] using hsub

/-- What a read returns has 0 in every reserved bit: each part of it is masked with fields. -/
theorem State.readWord_reserved (s : State) (req off i : Nat) (r : RegRow) :
    s.readWord req off i r &&& ~~~(BitVec.ofNat 32 (accMask r.flds (fun _ => true))) = 0#32 := by
  simp only [State.readWord, BitVec.and_or_distrib_right, BitVec.and_assoc, accMask_and_reserved, BitVec.and_zero,
    BitVec.or_zero]

/-! ### Offsets without a register -/

theorem State.readRegister_of_no_row (s : State) (req lo hi : Nat) {off : Nat} (h : findRow off = none) :
    s.readRegister req off lo hi = ([], s) := by
  simp [State.readRegister, h]

/-- Past the pending bits the MSI-X region holds nothing. -/
theorem State.readMsix_beyond (s : State) {off : Nat} (h : 0x1020 ≤ off % 0x10000) : s.readMsix off = [] := by
  unfold State.readMsix
  dsimp only
  rw [if_neg (by omega), if_neg (by omega)]

/-- The n bytes that a list is brought to are all of them. -/
theorem slice_exactly (n : Nat) (l : List Byte) : slice (exactly n l) 0 n = exactly n l := by
  simp only [slice, exactly, List.drop_zero, List.take_take, Nat.min_self]

/-- A read of the four bytes at an aligned offset is one read: of the MSI-X region for the host, elsewhere of a register. -/
theorem State.readBytes_aligned (s : State) (req : Nat) {off : Nat} {p : List Byte × State} (ha : off % 4 = 0)
    (hp : (if off / 0x10000 = 0xE then (if req = 0 then s.readMsix off else [], s) else s.readRegister req off 0 3) = p) :
    s.readBytes req off 4 = (exactly 4 p.1, p.2) := by
  have hoff : off / 4 * 4 = off := by omega
  subst hp
  simp only [State.readBytes, hoff, ha, ite_self, Nat.zero_add, Nat.add_one_sub_one, Nat.sub_le, Nat.min_eq_right,
    Nat.sub_zero, Nat.reduceAdd, Nat.reduceDiv, List.range_succ, List.range_zero, List.nil_append, List.foldl_cons,
    Nat.mul_zero, Nat.add_zero, slice_exactly, List.foldl_nil]

/-- An aligned offset that holds no register, in the MSI-X region past its pending bits too, reads 0. -/
theorem State.readBytes_of_no_row (s : State) (req : Nat) {off : Nat} (ha : off % 4 = 0) (h : findRow off = none)
    (hr : off < 0xE0000 ∨ 0xE1020 ≤ off) : s.readBytes req off 4 = (List.replicate 4 0, s) := by
  by_cases hm : off / 0x10000 = 0xE
  · rw [s.readBytes_aligned req ha (if_pos hm), s.readMsix_beyond (by omega), ite_self]
    rfl
  · rw [s.readBytes_aligned req ha (if_neg hm), s.readRegister_of_no_row _ _ _ h]
    rfl

/-- A write to an offset that holds no register, in the MSI-X region past its table too, is ignored. -/
theorem State.writeRegister_of_no_row (s : State) (req : Nat) (d : List (Option Byte)) {off : Nat}
    (h : findRow off = none) (hr : off < 0xE0000 ∨ 0xE1020 ≤ off) : s.writeRegister req off d = s := by
  have hk : off / 0x10000 = 0xE → ¬ off % 0x10000 / 4 < 1024 := by omega
  unfold State.writeRegister
  simp only [h]
  split
  · rfl
  · split
    · next hm => simp [hk hm]
    · rfl

/-! ### Writes that do not enable every byte -/

/-- Where a higher requester has written every byte of a register, no write has it whole. -/
theorem fullWord_unclaimed_all (d : List (Option Byte)) : fullWord (unclaimed 0xFFFFFFFF d) = false := by
  have hlow : byteMask (unclaimed 0xFFFFFFFF d) % 256 = 0 := by
    cases d with
    | nil => rfl
    | cons b d => simp [unclaimed, List.zipIdx_cons, byteMask]
  simp only [fullWord, beq_eq_false_iff_ne]
  omega

/-- The words of a terminal's record that are copied to the partner when written have RW fields. -/
theorem recordWord_has_rw : ∀ k : Fin 1024, [4, 12, 16].contains (k.val % 32) = true →
    (findRow (0x40500 + k.val)).all (fun r => accMask r.flds (· == .rw) != 0) = true := by decide +kernel

/-- So have the other registers whose writes have something follow, whole or not. -/
theorem followed_has_rw : ∀ off ∈ [0x404A0, 0x40300, 0x404A8, 0x30150, 0x60020],
    (findRow off).all (fun r => accMask r.flds (· == .rw) != 0) = true := by decide +kernel

/-- Nothing follows a write that does not enable every byte of a register without RW fields. -/
theorem State.afterWrite_partial (s : State) (req i : Nat) {off : Nat} {r : RegRow} (h : findRow off = some r)
    (hrw : accMask r.flds (· == .rw) = 0) : s.afterWrite req off i false = s := by
  have hno : ¬ (findRow off).all (fun r => accMask r.flds (· == .rw) != 0) = true := by simp [h, hrw]
  have hne : off ∉ [0x404A0, 0x40300, 0x404A8, 0x30150, 0x60020] := fun hm => hno (followed_has_rw off hm)
  have hrec : ¬ (0x40500 ≤ off ∧ off < 0x40900 ∧ [4, 12, 16].contains (off % 32) = true) := by
    rintro ⟨hlo, hhi, hc⟩
    have hk := recordWord_has_rw ⟨off - 0x40500, by omega⟩
    rw [show 0x40500 + (off - 0x40500) = off by omega, show (off - 0x40500) % 32 = off % 32 by omega] at hk
    exact hno (hk hc)
  simp only [List.mem_cons, List.not_mem_nil, or_false, not_or] at hne
  obtain ⟨h1, h2, h3, h4, h5⟩ := hne
  simp only [State.afterWrite, if_neg h4, if_neg h5]
  split
  · rfl
  · rw [if_neg (by simp [h1, h2, h3]), if_neg (by simpa using hrec), if_neg (by simp)]

/-- On an instance of a register without RW fields, a write that does not enable every byte is only noted. -/
theorem State.writeInst_partial (s : State) (req i : Nat) {off : Nat} {r : RegRow} {d : List (Option Byte)}
    (h : findRow off = some r) (hrw : accMask r.flds (· == .rw) = 0) (hd : fullWord d = false) :
    s.writeInst req off i r d = s.noteWrite req (rkey i off) (byteMask d) := by
  have hfull : fullWord (if s.claimed req (rkey i off) = 0xFFFFFFFF then unclaimed (s.claimed req (rkey i off)) d else d) =
      false := by
    split
    · next hc => rw [hc]; exact fullWord_unclaimed_all d
    · exact hd
  simp [State.writeInst, hrw, hfull, State.afterWrite_partial _ req i h hrw]

/-- Noting writes of several instances changes nothing but the record of the cycle's writes. -/
theorem State.noteWrites_frame (s : State) (req off mask : Nat) (insts : List Nat) (l : List CycWrite) :
    { insts.foldl (fun u i => u.noteWrite req (rkey i off) mask) s with same := l } = { s with same := l } := by
  induction insts generalizing s with
  | nil => rfl
  | cons i insts ih => exact ih (s.noteWrite req (rkey i off) mask)

/-- On a register without RW fields, a write that does not enable every byte is at most noted for its device cycle. -/
theorem State.writeRegister_partial (s : State) (req : Nat) {off : Nat} {r : RegRow} {d : List (Option Byte)}
    (h : findRow off = some r) (hm : off / 0x10000 ≠ 0xE) (hrw : accMask r.flds (· == .rw) = 0) (hd : fullWord d = false) :
    s.writeRegister req off d = if s.takesWrite req off then
      (s.writeInsts req r).foldl (fun u i => u.noteWrite req (rkey i off) (byteMask d)) s else s := by
  cases ht : s.takesWrite req off with
  | false => simp [State.writeRegister, ht]
  | true => simp [State.writeRegister, ht, hm, h, hd, State.writeInst_partial _ req _ h hrw hd]

/-! ### Reads -/

/-- Every field of the register map lies in its word. -/
theorem regionRows_fields_fit (n : Nat) : (regionRows n).all (fun r => r.flds.all (fun f => decide (f.1 < 32))) = true := by
  unfold regionRows
  split <;> decide +kernel

/-- A read of the whole register covers every RC field of it. -/
theorem rcCleared_whole {off : Nat} {r : RegRow} (h : findRow off = some r) :
    rcCleared r 0 3 = accMask r.flds (fun a => a == .rc) := by
  have hfit := regionRows_fields_fit (off / 0x10000)
  simp only [List.all_eq_true, decide_eq_true_eq] at hfit
  have hall : r.flds.filter (coversField 0 3) = r.flds := by
    rw [List.filter_eq_self]
    intro f hf
    simpa [coversField] using hfit r (List.mem_of_find?_eq_some h) f hf
  rw [rcCleared, hall]

/-- RC fields of a register instance cleared by a read of bytes lo to hi (R5). -/
def State.clearRc (s : State) (off i lo hi : Nat) (r : RegRow) : State :=
  if rcCleared r lo hi = 0 then s else s.setReg i off (s.reg i off &&& ~~~(BitVec.ofNat 32 (rcCleared r lo hi)))

/-- What a read of a register does whose read latches, pops and dispatches nothing. -/
theorem State.readRegister_plain (s : State) (req lo hi : Nat) {off i : Nat} {r : RegRow} (h : findRow off = some r)
    (hinst : s.readInst req r = some i) (h1 : off ≠ 0x10) (h2 : off ≠ 0x10080) (h3 : off ≠ 0x40494) (h4 : off ≠ 0x60024)
    (h5 : off ≠ 0x90040) :
    s.readRegister req off lo hi = (toBytes (bytesLE 4 (s.readWord req off i r).toNat), s.clearRc off i lo hi r) := by
  have heff : s.readEffect req off = s := by simp [State.readEffect, h1, h2, h3, h4, h5]
  simp [State.readRegister, State.clearRc, h, hinst, heff]

/-- A register after a read: the RC fields covered are 0, no other bit has changed. -/
theorem State.reg_clearRc (s : State) (off i lo hi : Nat) (r : RegRow) :
    (s.clearRc off i lo hi r).reg i off = s.reg i off &&& ~~~(BitVec.ofNat 32 (rcCleared r lo hi)) := by
  unfold State.clearRc
  split
  · next h => rw [h]; exact BitVec.and_allOnes.symm
  · exact s.reg_setReg_same i off _

theorem State.setReg_onlyRegs (s : State) (i off : Nat) (w : Word) : OnlyRegs [rkey i off] s (s.setReg i off w) :=
  ⟨rfl, fun _ hk => tget_tput_ne _ _ _ (by simpa using hk)⟩

theorem State.clearRc_onlyRegs (s : State) (off i lo hi : Nat) (r : RegRow) :
    OnlyRegs [rkey i off] s (s.clearRc off i lo hi r) := by
  unfold State.clearRc
  split
  · exact ⟨rfl, fun _ _ => rfl⟩
  · exact s.setReg_onlyRegs i off _

/-- A read that a running engine answers ends as every command does. -/
theorem doneRead_runs {req n : Nat} {s t : State} (h : s.Runs) : doneRead req n s t = .next (s.after t) := by
  unfold doneRead
  rw [if_neg (by rw [h]; decide)]

/-! ### The statements -/

/-- Settles O10: every part of a word read is masked with fields, and no arm of a read or write finds a row. -/
theorem reservedReadsZero : Obligations.ReservedReadsZero :=
  ⟨fun s req off i r => s.readWord_reserved req off i r, fun s req _ ha h hr =>
    ⟨s.readBytes_of_no_row req ha h hr, fun d => s.writeRegister_of_no_row req d h hr⟩⟩

/-- Settles O11: without RW fields and without every byte, what is left of a write of each instance is its note. -/
theorem partialWrite : Obligations.PartialWrite := by
  refine ⟨fun _ _ _ _ hs => done_runs hs, ?_⟩
  intro s req off r d h hm hrw hd
  rw [s.writeRegister_partial req h hm hrw hd]
  split
  · exact s.noteWrites_frame req off (byteMask d) _ s.same
  · rfl

/-- Settles O12: of a register whose read has no further effect, a read clears the RC fields covered. -/
theorem reads : Obligations.Reads := by
  refine ⟨fun s req hs => ⟨fun _ _ => doneRead_runs hs, doneRead_runs hs⟩, ?_⟩
  intro s req off i lo hi r h hinst h1 h2 h3 h4 h5
  have hread := fun a b => s.readRegister_plain req a b h hinst h1 h2 h3 h4 h5
  rw [hread, hread]
  refine ⟨rfl, fun hz => if_pos hz, ?_, s.clearRc_onlyRegs off i lo hi r⟩
  rw [State.reg_clearRc, rcCleared_whole h]

end Sys2Proof.Machine
end

section
/-!
PROOF. Bridges received and the queues of a channel (R77, R88, R89, R113, R255, R327): the presync check, which framer takes a
bridge, and what a post, a pop and a read of CH_TUNE_MEAS1 leave. Settles O26 and O27.
-/

namespace Sys2Proof.Machine

/-! ### The presync check (R88) and the boundary in SYNC (R89) -/

/-- A candidate whose header CRC fails is rejected. -/
theorem State.presync_of_hcrc_bad (s : State) (l : Nat) (short same long : BridgeView)
    (h : Br.hcrcOk (if (s.framer l).pre = 0 then same else viewFor (s.framer l).pJ short same long).bytes = false) :
    s.presync l short same long = (s.falseCand l, false) := by
  unfold State.presync
  simp [h]

/-- Before two headers have passed, none brings SYNC. -/
theorem State.presync_early {s : State} {l : Nat} (short same long : BridgeView) (h : (s.framer l).pre < 2) :
    (s.presync l short same long).2 = false := by
  unfold State.presync
  simp only [if_pos h]
  generalize (if (s.framer l).pre = 0 then same else viewFor (s.framer l).pJ short same long) = v
  split <;> rfl

/-- A bridge that brings SYNC comes after two that passed, shows FAW, and follows the line tick before. -/
theorem State.presync_passed {s : State} {l : Nat} {short same long : BridgeView} (h : (s.presync l short same long).2 = true) :
    2 ≤ (s.framer l).pre ∧ viewFaw (viewFor (s.framer l).pJ short same long) = true ∧
      Br.ltn (viewFor (s.framer l).pJ short same long).bytes = ((s.framer l).pLtn + 1) % 2 ^ 32 := by
  have hpre : ¬ (s.framer l).pre < 2 := fun hlt => by simp [State.presync_early short same long hlt] at h
  have hne : (s.framer l).pre ≠ 0 := by omega
  simp only [State.presync, if_neg hne, if_neg hpre] at h
  split at h
  · cases h
  next hok =>
    simp only [Bool.not_eq_true', Bool.not_eq_false, Bool.and_eq_true, Bool.or_eq_true, beq_iff_eq, hne, false_or] at hok
    obtain ⟨⟨-, hfaw, hltn⟩, -⟩ := hok
    exact ⟨Nat.le_of_not_lt hpre, hfaw, hltn⟩

/-- Where the J of the line tick before is decided, the boundary is looked for at one position. -/
theorem State.boundary_of_decided (s : State) (l : Nat) (short same long : BridgeView) (h : (s.framer l).j ≠ jUndecided) :
    s.boundary l short same long =
      (viewFor (s.framer l).j short same long, viewFaw (viewFor (s.framer l).j short same long), (s.framer l).j) := if_neg h

theorem alSync_ne_alPresync : alSync ≠ alPresync := by decide

/-! ### BRIDGE_RECEIVED -/

theorem bridgeReceived_finishes {s : State} (h : s.Runs) (c : Fin 64) (short same long : BridgeView) :
    Finishes (.bridgeReceived c short same long) s (bridgeReceived c short same long s) := done_runs h

section
variable {s : State} {c : Nat} (short same long : BridgeView)

/-- A framer that is no terminal's, or of a stopped octant or an unpowered receiver, or that is neither in PRESYNC nor in SYNC,
takes no bridge. -/
theorem bridgeReceived_ignored (h : s.role c ≠ roleTerm ∨ s.octRuns (octOf c) = false ∨ s.rxPowered c = false ∨
    (s.rdP (tfAlign c) ≠ alPresync ∧ s.rdP (tfAlign c) ≠ alSync)) : bridgeReceived c short same long s = s := by
  unfold bridgeReceived
  split
  · rfl
  next hgate =>
    simp only [Bool.or_eq_true, bne_iff_ne, Bool.not_eq_true', not_or] at hgate
    obtain ⟨⟨hrole, hoct⟩, hrx⟩ := hgate
    rcases h with h | h | h | ⟨hpre, hsync⟩
    · exact absurd h hrole
    · exact absurd h hoct
    · exact absurd h hrx
    · simp only [if_neg hpre, if_neg hsync]

variable (hrole : s.role c = roleTerm) (hoct : s.octRuns (octOf c) = true) (hrx : s.rxPowered c = true)
include hrole hoct hrx

/-- In PRESYNC a terminal's framer takes what the presync check leaves, and with a check passed the bridge as that of its first
line tick in SYNC. -/
theorem bridgeReceived_presync (hal : s.rdP (tfAlign c) = alPresync) :
    bridgeReceived c short same long s =
      if (s.presync c short same long).2 = false then (s.presync c short same long).1
      else ((((((s.presync c short same long).1.wrP (tfAlign c) alSync).modFramer c (fun f =>
        { f with noWrap := true, miss := 0 })).srqReset c).rejoin c).syncBridge c
          (Br.ltn (viewFor (s.framer c).pJ short same long).bytes) (viewFor (s.framer c).pJ short same long) true
          false).defectsChanged c (s.defWords c) := by
  simp [bridgeReceived, hrole, hoct, hrx, hal]

/-- In SYNC a terminal's framer takes the bridge of its boundary; where the J of the line tick before was undecided, that line
tick's length is known from now on. -/
theorem bridgeReceived_sync (hal : s.rdP (tfAlign c) = alSync) :
    bridgeReceived c short same long s =
      ((if (s.framer c).j = jUndecided then s.fixLength c (s.boundary c short same long).2.2 else s).syncBridge c
        ((s.rd F.CH_LTICK_NUM c + 1) % 2 ^ 32) (s.boundary c short same long).1 (s.boundary c short same long).2.1
        true).defectsChanged c (s.defWords c) := by
  have hnum : (if (s.framer c).j = jUndecided then s.fixLength c (s.boundary c short same long).2.2 else s).rd
      F.CH_LTICK_NUM c = s.rd F.CH_LTICK_NUM c := by split <;> rfl
  simp [bridgeReceived, hrole, hoct, hrx, hal, alSync_ne_alPresync, hnum]

end

/-! ### SUROK_BRIDGE_RECEIVED -/

theorem surokBridgeReceived_finishes {s : State} (h : s.Runs) (i : Fin 8) (short same long : BridgeView) :
    Finishes (.surokBridgeReceived i short same long) s (surokBridgeReceived i short same long s) := done_runs h

section
variable {s : State} {i : Nat} (short same long : BridgeView)

/-- A Surok lane of an unpaired engine, without power, or neither in PRESYNC nor in SYNC takes no bridge. -/
theorem surokBridgeReceived_ignored (h : s.paired = false ∨ s.rxPowered (64 + i) = false ∨
    (s.rdP (tfAlign (64 + i)) ≠ alPresync ∧ s.rdP (tfAlign (64 + i)) ≠ alSync)) :
    surokBridgeReceived i short same long s = s := by
  unfold surokBridgeReceived
  dsimp only
  split
  · rfl
  next hgate =>
    simp only [Bool.or_eq_true, Bool.not_eq_true', not_or] at hgate
    rcases h with h | h | ⟨hpre, hsync⟩
    · exact absurd h hgate.1
    · exact absurd h hgate.2
    · rw [if_neg hpre, if_neg hsync]

variable (hpair : s.paired = true) (hrx : s.rxPowered (64 + i) = true)
include hpair hrx

/-- In PRESYNC a Surok lane's framer takes what the presync check leaves, and with a check passed the bridge as its first in
SYNC. -/
theorem surokBridgeReceived_presync (hal : s.rdP (tfAlign (64 + i)) = alPresync) :
    surokBridgeReceived i short same long s =
      if (s.presync (64 + i) short same long).2 = false then (s.presync (64 + i) short same long).1
      else (((s.presync (64 + i) short same long).1.wrP (tfAlign (64 + i)) alSync).modFramer (64 + i)
        (fun f => { f with miss := 0 })).surokSync i (Br.ltn (viewFor (s.framer (64 + i)).pJ short same long).bytes)
          (viewFor (s.framer (64 + i)).pJ short same long) true := by
  simp [surokBridgeReceived, hpair, hrx, hal]

/-- In SYNC a Surok lane's framer takes the bridge of its boundary. -/
theorem surokBridgeReceived_sync (hal : s.rdP (tfAlign (64 + i)) = alSync) :
    surokBridgeReceived i short same long s =
      s.surokSync i (((s.framer (64 + i)).pLtn + 1) % 2 ^ 32) (s.boundary (64 + i) short same long).1
        (s.boundary (64 + i) short same long).2.1 := by
  simp [surokBridgeReceived, hpair, hrx, hal, alSync_ne_alPresync]

end

/-! ### Queues of a channel -/

@[simp] theorem State.framer_modFramer_same (s : State) (c : Nat) (f : Framer → Framer) :
    (s.modFramer c f).framer c = f (s.framer c) := tget_tput_same _ _ _ _

@[simp] theorem State.tree_modTree_same (s : State) (c : Nat) (f : Tree → Tree) : (s.modTree c f).tree c = f (s.tree c) :=
  tget_tput_same _ _ _ _

@[simp] theorem State.stqOf_stqPop_same (s : State) (c : Nat) : (s.stqPop c).stqOf c = (s.stqOf c).drop 1 :=
  tget_tput_same _ _ _ _

theorem State.chSel_one {s : State} {req c : Nat} (hb : s.rd F.CHSEL_BCAST req ∉ [1, 2]) (hc : s.rd F.CHSEL_CH req = c) :
    s.chSel req = [c] := by
  simp only [List.mem_cons, List.not_mem_nil, or_false, not_or] at hb
  unfold State.chSel
  split
  · next h => exact absurd h hb.1
  · next h => exact absurd h hb.2
  · rw [hc]

/-- A command on the selected channels of serving octants acts once, where one channel is selected and its octant serves. -/
theorem State.foldl_chSel_one {s : State} {req c : Nat} (f : State → Nat → State) (hb : s.rd F.CHSEL_BCAST req ∉ [1, 2])
    (hc : s.rd F.CHSEL_CH req = c) (ho : s.octServes (octOf c) = true) :
    ((s.chSel req).filter (fun c => s.octServes (octOf c))).foldl f s = f s c := by
  simp [State.chSel_one hb hc, ho]

/-- The 16 words of CH_BM_TXBUF of a channel, as the 64 bytes of a message. -/
def State.bmTxBytes (s : State) (c : Nat) : List Byte :=
  (List.range 16).flatMap (fun k => toBytes (bytesLE 4 (s.rd (F.CH_BM_TXBUF k) c)))

/-- A number laid out in n bytes takes n bytes. -/
theorem length_toBytes_bytesLE (n v : Nat) : (toBytes (bytesLE n v)).length = n := by
  rw [toBytes, List.length_map, bytesLE, List.length_map, List.length_range]

theorem State.bmTxBytes_length (s : State) (c : Nat) : (s.bmTxBytes c).length = 64 :=
  calc (s.bmTxBytes c).length
    _ = ((List.range 16).map (fun _ => 4)).sum := by
      simp only [State.bmTxBytes, List.length_flatMap, length_toBytes_bytesLE]
    _ = 64 := by decide

theorem State.txPost_of_room {s : State} {c : Nat} (h : (s.framer c).bmTx.length < 16) :
    s.txPost c = s.modFramer c (fun f => { f with bmTx := f.bmTx ++ [s.bmTxBytes c] }) := if_neg (Nat.not_le.mpr h)

theorem State.txPost_of_full {s : State} {c : Nat} (h : 16 ≤ (s.framer c).bmTx.length) :
    s.txPost c = s.inc F.CH_BM_CTL_TX_FULL c := if_pos h

theorem txPost_finishes {s : State} {req : Fin 19} (h : s.Takes req) :
    Finishes (.txPost req) s (((s.chSel req).filter (fun c => s.octServes (octOf c))).foldl State.txPost s) := doneWrite_takes h

theorem rxPop_finishes {s : State} {req : Fin 19} (h : s.Takes req) :
    Finishes (.rxPop req) s (((s.chSel req).filter (fun c => s.octServes (octOf c))).foldl State.rxPop s) := doneWrite_takes h

theorem pop_finishes {s : State} {req : Fin 19} (h : s.Takes req) :
    Finishes (.pop req) s (((s.chSel req).filter (fun c => s.octServes (octOf c))).foldl State.stqPop s) := doneWrite_takes h

/-! ### The measurement queue (R113) -/

@[simp] theorem State.showMeas_rdata (s : State) (c : Nat) : (s.showMeas c).rdata = s.rdata := rfl
@[simp] theorem State.showMeas_tree (s : State) (c : Nat) : (s.showMeas c).tree c = s.tree c := rfl

/-- CH_TUNE_MEAS0 shows the head of the queue. -/
theorem State.showMeas_meas0 (s : State) (c : Nat) :
    (s.showMeas c).reg c F.CH_TUNE_MEAS0.off = ((s.tree c).meas.headD (0, 0)).1 := by
  have h1 : rkey c F.CH_TUNE_MEAS0.off ≠ rkey c F.CH_TUNE_MEAS1.off := by simp [rkey, F.CH_TUNE_MEAS0, F.CH_TUNE_MEAS1]
  have h2 : rkey c F.CH_TUNE_MEAS0.off ≠ rkey c F.CH_TUNE_MSTAT_LEVEL.off := by
    simp [rkey, F.CH_TUNE_MEAS0, F.CH_TUNE_MSTAT_LEVEL]
  unfold State.showMeas State.wr
  rw [State.reg_setReg_ne _ _ h2, State.reg_setReg_ne _ _ h1, State.reg_setReg_same]

theorem State.showMeas_level (s : State) (c : Nat) :
    (s.showMeas c).rd F.CH_TUNE_MSTAT_LEVEL c = (s.tree c).meas.length % 2 ^ F.CH_TUNE_MSTAT_LEVEL.width :=
  State.rd_wr_same _ _ _ _ (by simp [Fld.ok, F.CH_TUNE_MSTAT_LEVEL])

theorem measPop_finishes {s : State} (h : s.Runs) (req : Fin 19) : Finishes (.measPop req) s (s.measPop req) := done_runs h

/-- Of a channel whose octant does not serve, the read answers and removes nothing. -/
theorem State.measPop_not_served {s : State} {req c : Nat} (hc : s.rd F.CHSEL_CH req = c) (ho : s.octServes (octOf c) = false) :
    s.measPop req = s.answer req (toBytes (bytesLE 4 (s.reg c F.CH_TUNE_MEAS1.off).toNat)) := by
  simp [State.measPop, hc, ho]

theorem State.measPop_served {s : State} {req c : Nat} (hc : s.rd F.CHSEL_CH req = c) (ho : s.octServes (octOf c) = true) :
    s.measPop req = ((s.answer req (toBytes (bytesLE 4 (s.reg c F.CH_TUNE_MEAS1.off).toNat))).modTree c
      (fun t => { t with meas := t.meas.drop 1 })).showMeas c := by
  simp [State.measPop, hc, ho]

/-! ### The statements -/

/-- Settles O26: BRIDGE_RECEIVED and SUROK_BRIDGE_RECEIVED by the framer's alignment, PRESYNC, SYNC or neither; what a check that
brings SYNC has seen is `presync_passed`. -/
theorem bridgesReceived : Obligations.BridgesReceived := by
  refine ⟨?presync, fun s short same long hs => ⟨?decided, ?undecided, ?enters, ?idle, ?noTerminal, ?surokDecided,
    ?surokUndecided, ?surokPresync, ?surokIdle, ?unpaired⟩⟩
  case presync =>
    intro s c short same long hs hrole hoct hrx hal
    have hfin := bridgeReceived_finishes hs c short same long
    rw [bridgeReceived_presync short same long hrole hoct hrx hal] at hfin
    refine ⟨fun hno => ?_, s.presync_of_hcrc_bad c short same long, fun hyes => ?_, fun hyes _ => (s.presync_passed hyes).2⟩
    · rwa [if_pos hno] at hfin
    · exact (Nat.eq_or_lt_of_le (s.presync_passed hyes).1).imp_left Eq.symm
  case decided =>
    intro c hrole hoct hrx hal hj
    have hfin := bridgeReceived_finishes hs c short same long
    rwa [bridgeReceived_sync short same long hrole hoct hrx hal, if_neg hj, s.boundary_of_decided _ _ _ _ hj] at hfin
  case undecided =>
    intro c hrole hoct hrx hal hj
    have hfin := bridgeReceived_finishes hs c short same long
    rwa [bridgeReceived_sync short same long hrole hoct hrx hal, if_pos hj] at hfin
  case enters =>
    intro c hrole hoct hrx hal hyes
    have hfin := bridgeReceived_finishes hs c short same long
    rw [bridgeReceived_presync short same long hrole hoct hrx hal, if_neg (by simp [hyes])] at hfin
    exact ⟨_, _, hfin, rfl, rfl⟩
  case idle =>
    intro c h
    have hfin := bridgeReceived_finishes hs c short same long
    rwa [bridgeReceived_ignored short same long (.inr h)] at hfin
  case noTerminal =>
    intro c h
    have hfin := bridgeReceived_finishes hs c short same long
    rwa [bridgeReceived_ignored short same long (.inl h)] at hfin
  case surokDecided =>
    intro i hpair hrx hal hj
    have hfin := surokBridgeReceived_finishes hs i short same long
    rwa [surokBridgeReceived_sync short same long hpair hrx hal, s.boundary_of_decided _ _ _ _ hj] at hfin
  case surokUndecided =>
    intro i hpair hrx hal _
    have hfin := surokBridgeReceived_finishes hs i short same long
    rwa [surokBridgeReceived_sync short same long hpair hrx hal] at hfin
  case surokPresync =>
    intro i hpair hrx hal
    have hfin := surokBridgeReceived_finishes hs i short same long
    rw [surokBridgeReceived_presync short same long hpair hrx hal] at hfin
    refine ⟨fun hno => ?_, fun hyes => ⟨_, rfl, ?_⟩⟩
    · rwa [if_pos hno] at hfin
    · rwa [if_neg (by simp [hyes])] at hfin
  case surokIdle =>
    intro i h
    have hfin := surokBridgeReceived_finishes hs i short same long
    rwa [surokBridgeReceived_ignored short same long (.inr h)] at hfin
  case unpaired =>
    intro i h
    have hfin := surokBridgeReceived_finishes hs i short same long
    rwa [surokBridgeReceived_ignored short same long (.inl h)] at hfin

/-- Settles O27: on the one channel selected each command is its operation on that channel's queue; a read of CH_TUNE_MEAS1
answers first, and shows the queue without its head. -/
theorem messageQueues : Obligations.MessageQueues := by
  refine ⟨?selected, ?oneChannel, ?measNotServed, ?measServed⟩
  case selected =>
    exact fun s req hs => ⟨_, rfl, txPost_finishes hs, rxPop_finishes hs, pop_finishes hs⟩
  case oneChannel =>
    intro s req c hs hb hc ho
    have hpost := txPost_finishes hs
    have hrx := rxPop_finishes hs
    have hpop := pop_finishes hs
    rw [State.foldl_chSel_one _ hb hc ho] at hpost hrx hpop
    refine ⟨fun hroom => ?_, fun hfull => ?_, ?_, ?_⟩
    · rw [State.txPost_of_room hroom] at hpost
      exact ⟨_, _, hpost, s.framer_modFramer_same c _, s.bmTxBytes_length c, rfl⟩
    · rwa [State.txPost_of_full hfull] at hpost
    · exact ⟨_, hrx, s.framer_modFramer_same c _, rfl⟩
    · exact ⟨_, hpop, s.stqOf_stqPop_same c, rfl⟩
  case measNotServed =>
    intro s req c hs hc ho
    rw [← State.measPop_not_served hc ho]
    exact measPop_finishes hs req
  case measServed =>
    intro s req c hs hc ho
    have hfin := measPop_finishes hs req
    rw [State.measPop_served hc ho] at hfin
    have hmeas := congrArg Tree.meas ((s.answer req (toBytes (bytesLE 4 (s.reg c F.CH_TUNE_MEAS1.off).toNat))).tree_modTree_same c
      (fun t => { t with meas := t.meas.drop 1 }))
    refine ⟨_, hfin, hmeas, tget_tput_same _ _ _ _, ?_, ?_⟩
    · rw [State.showMeas_meas0, hmeas]
      rfl
    · rw [State.showMeas_level, hmeas, List.length_drop]
      rfl

end Sys2Proof.Machine
end

section
/-!
PROOF. The upstream side (R101, R138, R144, R152): line ticks of a terminal, the launch of its bursts, panic, and the bursts that a
head end takes in. Settles O30.
-/

namespace Sys2Proof.Machine

/-! ### UPSTREAM_TICK_BEGIN -/

@[simp] theorem State.wr_tree (s : State) (f : Fld) (i v c : Nat) : (s.wr f i v).tree c = s.tree c := rfl

theorem upstreamTickBegin_finishes {s : State} (h : s.Runs) (c : Fin 64) :
    Finishes (.upstreamTickBegin c) s (upstreamTickBegin c s) := done_runs h

section
variable {s : State} {c : Nat}

theorem upstreamTickBegin_ignored (h : s.role c ≠ roleTerm ∨ s.octRuns (octOf c) = false ∨ (s.tree c).todo = 0) :
    upstreamTickBegin c s = s := by
  refine if_pos ?_
  rcases h with h | h | h <;> simp [h]

variable (hrole : s.role c = roleTerm) (hoct : s.octRuns (octOf c) = true)
include hrole hoct

/-- Where the arrival of the line tick that begins is no longer kept, none of those waiting begins. -/
theorem upstreamTickBegin_of_lost (harr : (s.tree c).arr[(s.tree c).todo - 1]? = none) :
    upstreamTickBegin c s = if (s.tree c).todo = 0 then s else s.modTree c (fun t => { t with todo := 0 }) := by
  by_cases htodo : (s.tree c).todo = 0
  · rw [upstreamTickBegin_ignored (.inr (.inr htodo)), if_pos htodo]
  · simp [upstreamTickBegin, hrole, hoct, htodo, harr]

/-- The line tick of an arrival begins with the delay fixed at that arrival in effect (R101), an armed change having been taken into
it or not (R121). -/
theorem upstreamTickBegin_of_arrival {a : Arr} (htodo : (s.tree c).todo ≠ 0)
    (harr : (s.tree c).arr[(s.tree c).todo - 1]? = some a) {t : State}
    (ht : t = (s.modTree c (fun t => { t with todo := t.todo - 1, up := some a.ltn })).wr F.CH_TERM_EQD_NOW c a.eqd) :
    upstreamTickBegin c s = (if a.took then
      ((t.wrB F.CH_TERM_EQD_LATE c a.late).wrB F.CH_TERM_EQD_PEND c (t.tree c).armed).copyTerm c else t).planNext c a := by
  have harmed : (t.tree c).armed = (s.tree c).armed := by
    rw [ht, State.wr_tree, s.tree_modTree_same]
  rw [harmed]
  subst ht
  simp [upstreamTickBegin, hrole, hoct, htodo, harr]

end

/-! ### BURST_LAUNCH -/

theorem burstLaunch_finishes {s : State} (h : s.Runs) (c : Fin 64) (r : FsRead) :
    Finishes (.burstLaunch c r) s (burstLaunch c r s) := done_runs h

/-- A channel whose oldest plan, if any, is no burst on its way has no burst to move on. -/
theorem State.burstMove_of_no_run {s : State} {c : Nat} (h : ∀ p ps, (s.tree c).plans = p :: ps → p.run = none) (last : Bool)
    (n : Nat) : s.burstMove c last n = s := by
  cases n with
  | zero => rfl
  | succ n =>
    unfold State.burstMove
    split
    · rfl
    next p ps hplans => simp only [h p ps hplans]

theorem burstLaunch_of_no_plan {s : State} {c : Nat} (r : FsRead) (h : (s.tree c).plans = []) : burstLaunch c r s = s := by
  have hmove : ∀ n, s.burstMove c true n = s := s.burstMove_of_no_run (by simp [h]) true
  simp [burstLaunch, hmove, h]

section
variable {s : State} {c : Nat} {p : Plan} {ps : List Plan} (r : FsRead)
variable (hplans : (s.tree c).plans = p :: ps) (hrun : p.run = none)
include hplans hrun

theorem State.burstMove_of_planned (last : Bool) (n : Nat) : s.burstMove c last n = s := by
  refine State.burstMove_of_no_run (fun q qs hq => ?_) last n
  obtain ⟨rfl, -⟩ := List.cons.inj (hplans.symm.trans hq)
  exact hrun

/-- A planned burst waits until its upstream line tick has begun; none leaves in another role. -/
theorem burstLaunch_ignored (h : s.role c ≠ roleTerm ∨ (s.tree c).up = none ∨
    ∃ up, (s.tree c).up = some up ∧ ltnLe p.u up = false) :
    burstLaunch c r s = s := by
  cases hup : (s.tree c).up with
  | none => simp [burstLaunch, State.burstMove_of_planned hplans hrun, hplans, hup]
  | some up =>
    have hgate : s.role c ≠ roleTerm ∨ ltnLe p.u up = false := by simpa [hup] using h
    rcases hgate with h | h <;> simp [burstLaunch, State.burstMove_of_planned hplans hrun, hplans, hup, h]

variable {up : Nat} (hrole : s.role c = roleTerm) (hup : (s.tree c).up = some up) (hle : ltnLe p.u up = true)
include hrole hup hle

/-- On a STANDBY channel the plan goes, and nothing is missed (R338). -/
theorem burstLaunch_standby (hact : s.pairActive c = false) :
    burstLaunch c r s = (s.modTree c (fun t => { t with plans := ps })).panicSettle c := by
  have hact' : (s.modTree c (fun t => { t with plans := ps })).pairActive c = false := hact
  simp [burstLaunch, State.burstMove_of_planned hplans hrun, hplans, hup, hrole, hle, hact']

variable (hact : s.pairActive c = true)
include hact

/-- Without the arrival of its downstream line tick a burst is missed. -/
theorem burstLaunch_without_arrival (harr : (s.modTree c (fun t => { t with plans := ps })).arrOf c p.u = none) :
    burstLaunch c r s = ((s.modTree c (fun t => { t with plans := ps })).missBurst c p).panicSettle c := by
  have hact' : (s.modTree c (fun t => { t with plans := ps })).pairActive c = true := hact
  simp [burstLaunch, State.burstMove_of_planned hplans hrun, hplans, hup, hrole, hle, hact', harr]

/-- With it a burst that may be sent leaves, and another is missed (R138). -/
theorem burstLaunch_of_arrival {a : Arr} (harr : (s.modTree c (fun t => { t with plans := ps })).arrOf c p.u = some a) :
    burstLaunch c r s = (if (s.modTree c (fun t => { t with plans := ps })).maySend c p.ent a
      then (s.modTree c (fun t => { t with plans := ps })).sendBurst c p a r
      else (s.modTree c (fun t => { t with plans := ps })).missBurst c p).panicSettle c := by
  have hact' : (s.modTree c (fun t => { t with plans := ps })).pairActive c = true := hact
  simp [burstLaunch, State.burstMove_of_planned hplans hrun, hplans, hup, hrole, hle, hact', harr]

end

/-! ### PANIC_ASSERT and PANIC_DEASSERT (R152) -/

theorem panicAssert_finishes {s : State} (h : s.Runs) (c : Fin 64) : Finishes (.panicAssert c) s (panicAssert c s) := done_runs h

theorem panicDeassert_finishes {s : State} (h : s.Runs) (c : Fin 64) :
    Finishes (.panicDeassert c) s (panicDeassert c s) := done_runs h

theorem panicAssert_of_holds {s : State} {c : Nat} (h : s.panicHolds c = true) :
    panicAssert c s = s.wr F.CH_BOW_STAT_PANIC c 1 := if_pos h

theorem panicAssert_of_not_holds {s : State} {c : Nat} (h : s.panicHolds c = false) : panicAssert c s = s :=
  if_neg (by simp [h])

theorem panicDeassert_of_holds {s : State} {c : Nat} (h : s.panicHolds c = true) : panicDeassert c s = s :=
  if_neg (by simp [h])

theorem panicDeassert_of_clear {s : State} {c : Nat} (h : s.on F.CH_BOW_STAT_PANIC c = false) : panicDeassert c s = s :=
  if_neg (by simp [h])

theorem panicDeassert_of_not_holds {s : State} {c : Nat} (h : s.panicHolds c = false) (hon : s.on F.CH_BOW_STAT_PANIC c = true) :
    panicDeassert c s = s.wr F.CH_BOW_STAT_PANIC c 0 := if_pos (by simp [h, hon])

/-- The oldest plan's burst is near where it is on its way or launches within PANIC_US. -/
theorem State.burstNear_of_plan {s : State} {c : Nat} {p : Plan} {ps : List Plan} (hplans : (s.tree c).plans = p :: ps)
    (h : p.run ≠ none ∨ ∃ t, s.launchOf c p = some t ∧ t ≤ s.now16 + 16000 * s.rd F.CH_BOW_CFG_PANIC_US c) :
    s.burstNear c = true := by
  unfold State.burstNear
  rw [hplans]
  rcases h with h | ⟨t, ht, hle⟩
  · simp [Option.isSome_iff_ne_none.mpr h]
  · simp [ht, hle]

theorem State.panicHolds_of_near {s : State} {c : Nat} (hrole : s.role c = roleTerm) (hnear : s.burstNear c = true)
    (hun : s.unstaged c ≠ []) : s.panicHolds c = true := by
  simp [State.panicHolds, hrole, hnear, hun]

/-! ### BURST_RECEIVED -/

theorem burstReceived_finishes {s : State} (h : s.Runs) (c : Fin 64) (b : BurstRx) :
    Finishes (.burstReceived c b) s (burstReceived c b s) := done_runs h

theorem burstReceived_not_taken {s : State} {c : Nat} (b : BurstRx) (h : s.takesBursts c = false) : burstReceived c b s = s :=
  if_pos (by simp [h])

/-- A burst in a window that the map of its line tick grants to none is not taken in. -/
theorem burstReceived_not_granted {s : State} {c : Nat} {b : BurstRx} (ht : s.takesBursts c = true)
    (h : (s.mapOf c b.u.toNat).all (fun e => e.start != b.start.toNat) = true) : burstReceived c b s = s := by
  have hnone : (s.mapOf c b.u.toNat).find? (fun e => e.start == b.start.toNat) = none := by
    simpa [List.find?_eq_none] using h
  simp [burstReceived, ht, hnone]

theorem burstReceived_granted {s : State} {c : Nat} {b : BurstRx} {e : MapEnt} (ht : s.takesBursts c = true)
    (h : (s.mapOf c b.u.toNat).find? (fun e => e.start == b.start.toNat) = some e) :
    burstReceived c b s = (s.receiveBurst c b e).endBurst c := by
  simp [burstReceived, ht, h]

/-! ### The statement -/

/-- Settles O30: each command of the upstream side by the branch that it takes. -/
theorem upstreamSide : Obligations.UpstreamSide := by
  refine ⟨fun s c hs => ⟨?noTick, ?noPlan, ?tick, ?lost, ?onItsWay, ?waits, ?standby, ?noArrival, ?launch, ?panic, ?noPanic,
    ?near⟩, fun s c b hs => ⟨?notTaken, ?notGranted, ?granted⟩⟩
  case noTick =>
    intro h
    simpa only [upstreamTickBegin_ignored h] using upstreamTickBegin_finishes hs c
  case noPlan =>
    intro r h
    simpa only [burstLaunch_of_no_plan r h] using burstLaunch_finishes hs c r
  case tick =>
    intro a hrole hoct htodo harr
    have hfin := upstreamTickBegin_finishes hs c
    rw [upstreamTickBegin_of_arrival hrole hoct htodo harr rfl] at hfin
    refine ⟨_, rfl, fun htook => ?_, fun htook => ?_⟩
    · rwa [htook, if_neg Bool.false_ne_true] at hfin
    · rwa [htook, if_pos rfl] at hfin
  case lost =>
    intro hrole hoct harr
    have hfin := upstreamTickBegin_finishes hs c
    rw [upstreamTickBegin_of_lost hrole hoct harr] at hfin
    refine ⟨_, hfin, ?_⟩
    split
    next htodo => exact ⟨htodo, rfl⟩
    · exact ⟨congrArg Tree.todo (s.tree_modTree_same c _), rfl⟩
  case onItsWay => exact fun r _ _ _ _ => burstLaunch_finishes hs c r
  case waits =>
    intro r p ps hplans hrun h
    simpa only [burstLaunch_ignored r hplans hrun h] using burstLaunch_finishes hs c r
  case standby =>
    intro r p ps up hrole hplans hrun hup hle hact
    rw [← burstLaunch_standby r hplans hrun hrole hup hle hact]
    exact burstLaunch_finishes hs c r
  case noArrival =>
    intro r p ps up hrole hplans hrun hup hle hact harr
    rw [← burstLaunch_without_arrival r hplans hrun hrole hup hle hact harr]
    exact burstLaunch_finishes hs c r
  case launch =>
    intro r p ps up a hrole hplans hrun hup hle hact harr
    rw [← burstLaunch_of_arrival r hplans hrun hrole hup hle hact harr]
    exact burstLaunch_finishes hs c r
  case panic =>
    intro h
    have hassert := panicAssert_finishes hs c
    have hdeassert := panicDeassert_finishes hs c
    rw [panicAssert_of_holds h] at hassert
    rw [panicDeassert_of_holds h] at hdeassert
    exact ⟨hassert, hdeassert⟩
  case noPanic =>
    intro h
    have hassert := panicAssert_finishes hs c
    have hdeassert := panicDeassert_finishes hs c
    rw [panicAssert_of_not_holds h] at hassert
    refine ⟨hassert, fun hon => ?_, fun hoff => ?_⟩
    · rwa [panicDeassert_of_not_holds h hon] at hdeassert
    · rwa [panicDeassert_of_clear hoff] at hdeassert
  case near => exact fun p ps hrole hplans hun h => State.panicHolds_of_near hrole (State.burstNear_of_plan hplans h) hun
  case notTaken =>
    intro h
    simpa only [burstReceived_not_taken b h] using burstReceived_finishes hs c b
  case notGranted =>
    intro ht h
    simpa only [burstReceived_not_granted ht h] using burstReceived_finishes hs c b
  case granted =>
    intro e ht h
    simpa only [burstReceived_granted ht h] using burstReceived_finishes hs c b

end Sys2Proof.Machine
end

section
/-!
PROOF. Writes that tune a terminal's record (R107, R345): what ends every command leaves the records alone unless it fences, and a
fence shows. Refutes O29.
-/

namespace Sys2Proof.Machine

/-! ### A pair that becomes STANDBY leaves the twin's own state alone -/

/-- What every step of a fold keeps, the fold keeps. -/
theorem foldl_keeps {α β : Type} (p : State → β) {f : State → α → State} (h : ∀ s a, p (f s a) = p s) (l : List α)
    (s : State) : p (l.foldl f s) = p s := by
  induction l generalizing s with
  | nil => rfl
  | cons a l ih => exact (ih (f s a)).trans (h s a)

@[simp] theorem State.setQueue_twin (s : State) (q : Nat) (l : List QEnt) : (s.setQueue q l).twin = s.twin := rfl
@[simp] theorem State.unplan_twin (s : State) (c : Nat) : (s.unplan c).twin = s.twin := rfl
@[simp] theorem State.setCtx_twin (s : State) (chord g : Nat) (x : Ctx) : (s.setCtx chord g x).twin = s.twin := rfl
@[simp] theorem State.freeCells_twin (s : State) (xs : List Nat) : (s.freeCells xs).twin = s.twin := rfl
@[simp] theorem State.setDeepFr_twin (s : State) (id : Nat) (x : DeepFr) : (s.setDeepFr id x).twin = s.twin := rfl
@[simp] theorem State.modDeepFr_twin (s : State) (id : Nat) (f : DeepFr → DeepFr) : (s.modDeepFr id f).twin = s.twin := rfl
@[simp] theorem State.setOctPwr_twin (s : State) (o : Nat) (x : OctPwr) : (s.setOctPwr o x).twin = s.twin := rfl

@[simp] theorem State.freeFs_twin (s : State) (xs : List Nat) : (s.freeFs xs).twin = s.twin := by
  unfold State.freeFs
  exact foldl_keeps State.twin (fun s x => s.inc_twin F.OCT_STORE_RETIRED (x / 98304)) _ _

@[simp] theorem State.noteUse_twin (s : State) (o : Nat) : (s.noteUse o).twin = s.twin := by
  unfold State.noteUse
  dsimp only
  split <;> rfl

@[simp] theorem State.setHeld_twin (s : State) (o n : Nat) : (s.setHeld o n).twin = s.twin := State.noteUse_twin _ _
@[simp] theorem State.setPool_twin (s : State) (o n : Nat) : (s.setPool o n).twin = s.twin := State.noteUse_twin _ _

@[simp] theorem State.chUse_twin (s : State) (x : QFrame) (n : Nat) : (s.chUse x n).twin = s.twin := by
  unfold State.chUse
  split <;> rfl

@[simp] theorem State.reclaimLost_twin (s : State) : s.reclaimLost.twin = s.twin := by
  unfold State.reclaimLost
  split <;> rfl

@[simp] theorem State.clearDeep_twin (s : State) (id : Nat) : (s.clearDeep id).twin = s.twin := by
  unfold State.clearDeep
  dsimp only
  rw [State.setDeepFr_twin, State.freeFs_twin]
  split <;> rfl

@[simp] theorem State.dropDeep_twin (s : State) (id : Nat) (withAdv : Bool) : (s.dropDeep id withAdv).twin = s.twin := by
  simp [State.dropDeep]

@[simp] theorem State.release_twin (s : State) (x : QFrame) : (s.release x).twin = s.twin := by
  unfold State.release
  split
  · simp
  · split <;> simp

@[simp] theorem State.countNoEntry_twin (s : State) (q : Nat) : (s.countNoEntry q).twin = s.twin := by
  unfold State.countNoEntry
  split <;> rfl

@[simp] theorem State.append_twin (s : State) (q : Nat) (x : QFrame) : (s.append q x).twin = s.twin := by
  unfold State.append
  dsimp only
  split
  · split <;> simp
  · split <;> simp

@[simp] theorem State.appendLimited_twin (s : State) (q : Nat) (x : QFrame) (limit : Nat) (fld : Fld) (inst : Nat) :
    (s.appendLimited q x limit fld inst).twin = s.twin := by
  unfold State.appendLimited
  split <;> simp

@[simp] theorem State.eventTask_twin (s : State) (t : Nat) : (s.eventTask t).twin = s.twin := by
  unfold State.eventTask
  extract_lets counted st
  have hcounted : counted.twin = s.twin := by
    simp only [counted]
    split <;> rfl
  split
  · exact hcounted
  · exact hcounted

@[simp] theorem State.raise_twin (s : State) (cls idx : Nat) : (s.raise cls idx).twin = s.twin := by
  unfold State.raise
  split
  · rfl
  · exact foldl_keeps State.twin State.eventTask_twin _ _

@[simp] theorem State.wakeOct_twin (s : State) (o src : Nat) : (s.wakeOct o src).twin = s.twin := by
  unfold State.wakeOct
  dsimp only
  split <;> rfl

@[simp] theorem State.wakeChannel_twin (s : State) (c : Nat) : (s.wakeChannel c).twin = s.twin := by
  unfold State.wakeChannel
  split <;> simp

/-- Stage 8 leaves the twin's own state alone, wherever it takes or drops a frame. -/
@[simp] theorem State.enqueue_twin (s : State) (x : QFrame) : (s.enqueue x).twin = s.twin := by
  unfold State.enqueue
  split
  · simp
  · split
    · simp
    · split
      · simp
      · split
        · simp
        · split
          · simp
          · dsimp only
            split <;> simp

@[simp] theorem State.dropDeficit_twin (s : State) (q : Nat) : (s.dropDeficit q).twin = s.twin := by
  unfold State.dropDeficit
  split
  · rfl
  · dsimp only
    split <;> rfl

@[simp] theorem State.moveToSurok_twin (s : State) (c : Nat) : (s.moveToSurok c).twin = s.twin := by
  refine foldl_keeps State.twin (fun s k => ?_) _ _
  dsimp only
  rw [foldl_keeps State.twin]
  · split <;> simp
  · intro s x
    split
    · split <;> simp
    · simp

@[simp] theorem State.pairStandby_twin (s : State) (c : Nat) : (s.pairStandby c).twin = s.twin := by
  unfold State.pairStandby
  split <;> simp

@[simp] theorem State.ctxPop_twin (s : State) (chord g a : Nat) (x : QFrame) : (s.ctxPop chord g a x).twin = s.twin := rfl

@[simp] theorem State.ctxRelease_twin (s : State) (chord : Nat) (x : QFrame) (late expired : Bool) :
    (s.ctxRelease chord x late expired).twin = s.twin := by
  cases late <;> cases expired <;> simp [State.ctxRelease]

@[simp] theorem State.releaseLoop_twin (s : State) (chord g : Nat) (all : Bool) (n : Nat) :
    (s.releaseLoop chord g all n).twin = s.twin := by
  induction n generalizing s with
  | zero => rfl
  | succ n ih =>
    unfold State.releaseLoop
    dsimp only
    split
    · split
      · simp [ih]
      · rfl
    · rfl

@[simp] theorem State.ctxReset_twin (s : State) (chord g : Nat) : (s.ctxReset chord g).twin = s.twin := by
  simp [State.ctxReset]

@[simp] theorem State.resetChordsOf_twin (s : State) (c : Nat) : (s.resetChordsOf c).twin = s.twin := by
  refine foldl_keeps State.twin (fun s ch => ?_) _ _
  split
  · exact foldl_keeps State.twin (fun s g => s.ctxReset_twin ch g) _ _
  · rfl

@[simp] theorem State.idleRecords_twin (s : State) (c : Nat) : (s.idleRecords c).twin = s.twin := by
  unfold State.idleRecords
  dsimp only
  refine foldl_keeps State.twin (fun s t => ?_) _ _
  rw [foldl_keeps State.twin (fun s k => s.wr_twin (F.CH_GRANT_CG t k) c 0)]
  simp only [State.wr_twin]

@[simp] theorem State.goStandby_twin (s : State) (c : Nat) : (s.goStandby c).twin = s.twin := by
  unfold State.goStandby
  split
  · dsimp only
    split <;> simp
  · rfl

/-! ### What ends every command, for the records -/

/-- Two states are fenced alike, and the unbanked registers below those of the service cores, and channel 0's, hold the same:
among them the terminal records of channel 0. -/
def State.AgreeBelow (s t : State) : Prop := t.twin.fence = s.twin.fence ∧ ∀ off < 0x90000, t.reg 0 off = s.reg 0 off

theorem State.AgreeBelow.of_eff {s t : State} (hfence : t.twin.fence = s.twin.fence) (heff : t.eff = s.eff) : s.AgreeBelow t :=
  ⟨hfence, fun off _ => by rw [State.reg, heff, ← State.reg]⟩

theorem State.AgreeBelow.refl (s : State) : s.AgreeBelow s := .of_eff rfl rfl

theorem State.AgreeBelow.trans {s t u : State} (h : s.AgreeBelow t) (h' : t.AgreeBelow u) : s.AgreeBelow u := by
  obtain ⟨hfence, hreg⟩ := h
  obtain ⟨hfence', hreg'⟩ := h'
  exact ⟨hfence'.trans hfence, fun off ho => (hreg' off ho).trans (hreg off ho)⟩

theorem State.AgreeBelow.foldl {α : Type} {f : State → α → State} (h : ∀ (s : State) (a : α), s.AgreeBelow (f s a))
    (l : List α) (s : State) : s.AgreeBelow (l.foldl f s) := by
  induction l generalizing s with
  | nil => exact .refl s
  | cons a l ih => exact (h s a).trans (ih (f s a))

/-- A write of a register from the service cores' on changes none below. -/
theorem State.agreeBelow_wr (s : State) {f : Fld} (i v : Nat) (hf : 0x90000 ≤ f.off) : s.AgreeBelow (s.wr f i v) :=
  ⟨rfl, fun off ho => s.reg_setReg_ne _ (by unfold rkey; omega)⟩

theorem State.agreeBelow_inc (s : State) {f : Fld} (i : Nat) (hf : 0x90000 ≤ f.off) : s.AgreeBelow (s.inc f i) :=
  s.agreeBelow_wr i _ hf

theorem State.agreeBelow_emit (s : State) (o : Out) : s.AgreeBelow (s.emit o) := .refl s

theorem State.agreeBelow_claim (s : State) (k p : Nat) : s.AgreeBelow (s.claim k p) := by
  have hpreempt : 0x90000 ≤ (F.TDS_CORE_STAT_PREEMPT k).off := by simp only [F.TDS_CORE_STAT_PREEMPT]; omega
  have hprio : 0x90000 ≤ (F.TDS_CORE_STAT_PRIO k).off := by simp only [F.TDS_CORE_STAT_PRIO]; omega
  unfold State.claim
  exact (((s.agreeBelow_wr 0 1 hpreempt).trans (State.agreeBelow_wr _ 0 p hprio)).trans (State.agreeBelow_emit _ _)).trans
    (State.agreeBelow_inc _ 0 (by decide))

theorem State.agreeBelow_examine (s : State) (t : Nat) : s.AgreeBelow (s.examine t) := by
  unfold State.examine
  dsimp only
  split
  · exact s.agreeBelow_inc 0 (by decide)
  · split
    · exact .foldl (fun s k => s.agreeBelow_emit _) _ s
    · split
      · exact .refl s
      · exact s.agreeBelow_claim _ _

theorem State.agreeBelow_unready (s : State) (t : Nat) : s.AgreeBelow (s.unready t) := by
  unfold State.unready
  exact .of_eff rfl rfl

theorem State.agreeBelow_setReady (s : State) (p : Nat) (l : List Nat) : s.AgreeBelow (s.setReady p l) := .of_eff rfl rfl

theorem State.agreeBelow_makeReady (s : State) (t : Nat) : s.AgreeBelow (s.makeReady t) := by
  unfold State.makeReady
  exact (((s.agreeBelow_unready t).trans (State.agreeBelow_wr _ t tsReady (by decide))).trans
    (State.agreeBelow_setReady _ _ _)).trans (State.agreeBelow_examine _ t)

theorem State.agreeBelow_readyAll (s : State) : s.AgreeBelow s.readyAll := by
  unfold State.readyAll
  split
  · exact .refl s
  · exact .foldl State.agreeBelow_makeReady _ { s with tds := { s.tds with joins := [] } }

theorem State.agreeBelow_setCtx (s : State) (chord g : Nat) (x : Ctx) : s.AgreeBelow (s.setCtx chord g x) :=
  .of_eff rfl rfl

theorem State.agreeBelow_refreshContexts (s : State) : s.AgreeBelow s.refreshContexts :=
  .foldl (fun s (e : Nat × Ctx) => s.agreeBelow_setCtx (e.1 / 8) (e.1 % 8) (s.ctxRefresh (e.1 / 8) e.2)) _ s

theorem State.agreeBelow_putRec (s : State) (typ index : Nat) (body : List Byte) : s.AgreeBelow (s.putRec typ index body) :=
  s.agreeBelow_wr (f := F.TWN_COPY_SEQ) 0 _ (by decide)

theorem State.agreeBelow_copyRec (s : State) (typ index : Nat) (body : List Byte) : s.AgreeBelow (s.copyRec typ index body) := by
  unfold State.copyRec
  split
  · exact .refl s
  · split
    · exact s.agreeBelow_putRec _ _ _
    · split <;> exact .refl s

theorem State.agreeBelow_copyReqs (s : State) : s.AgreeBelow s.copyReqs := by
  unfold State.copyReqs
  split
  · exact .refl s
  · dsimp only
    split
    · exact .refl s
    · exact State.agreeBelow_copyRec { s with twin := { s.twin with sentReq := s.localReqs } } _ _ _

theorem State.agreeBelow_hostWrite (s : State) (addr : Nat) (bytes : List Byte) : s.AgreeBelow (s.hostWrite addr bytes) :=
  .foldl (fun s _ => s.agreeBelow_emit _) _ s

theorem State.agreeBelow_putEnt (s : State) (e : LogEnt) : s.AgreeBelow (s.putEnt e) := by
  have hseq := s.agreeBelow_wr (f := F.FLT_LOG_SEQ) 0 ((s.rd F.FLT_LOG_SEQ 0 + 1) % 2 ^ 32) (by decide)
  unfold State.putEnt
  extract_lets seq ent counted flt flt' flt'' written base
  have hwritten : s.AgreeBelow written := hseq
  split
  · exact hwritten.trans (written.agreeBelow_hostWrite _ _)
  · exact hwritten

theorem State.agreeBelow_flushLog (s : State) : s.AgreeBelow s.flushLog :=
  .foldl State.agreeBelow_putEnt _ { s with flt := { s.flt with cycle := [] } }

/-- Where the engine is not fenced after self-fencing, it did not fence: the registers are as before. -/
theorem State.selfFence_eff_of_not_fenced {s : State} (h : s.selfFence.twin.fence = false) : s.selfFence.eff = s.eff := by
  unfold State.selfFence at h ⊢
  split at h
  next heq => rw [if_pos heq]
  next hne =>
    rw [if_neg hne]
    split at h
    · have hdrive : ∀ t : State, (t.driveAlive false).twin.fence = t.twin.fence := fun t => by
        unfold State.driveAlive
        split <;> rfl
      rw [foldl_keeps State.twin State.goStandby_twin, hdrive] at h
      exact absurd h.symm Bool.false_ne_true
    next hhigh => rw [if_neg hhigh]

/-- A command that ends without fencing leaves the terminal records of channel 0 as its own effect brought them. -/
theorem State.finish_reg_of_not_fenced {s : State} (h : s.finish.twin.fence = false) {off : Nat} (ho : off < 0x90000) :
    s.finish.reg 0 off = s.reg 0 off := by
  obtain ⟨hfence, hreg⟩ : s.selfFence.AgreeBelow s.finish :=
    (((s.selfFence.agreeBelow_readyAll).trans (State.agreeBelow_refreshContexts _)).trans (State.agreeBelow_copyReqs _)).trans
      (State.agreeBelow_flushLog _)
  have heff := State.selfFence_eff_of_not_fenced (hfence.symm.trans h)
  rw [hreg off ho, State.reg, heff, ← State.reg]

/-! ### The statement -/

/-- A running engine of a pair, channel 0 a head end and STANDBY. -/
def standbyHead : State :=
  ((((State.reset.wr F.IMG_STAT_PHASE 0 4).wr F.TWN_STAT_STRAP 0 1).wr F.CH_ROLE_ROLE_NOW 0 roleHead).wr
    (F.TWN_PAIR_VALID 0) 0 1).wr (F.TWN_PAIR_STATE 0) 0 0

/-- A write of H-OPERATE to a record. -/
def operateWord (t : Nat) : Word := setF 0 (F.CH_TREC_STATE_STATE t) hOperate

/-- What requester 1's write of H-OPERATE to record 0 makes of the engine. -/
def standbyWritten : State :=
  standbyHead.ordered 1 (F.CH_TREC_STATE_STATE 0).off (standbyHead.chSel 1) (fun u =>
    ((standbyHead.chSel 1).foldl (fun s c => s.trecWrite c 0 (operateWord 0) 0xFFFFFFFF) u).foldWrites 1
      (F.CH_TREC_STATE_STATE 0).off (standbyHead.chSel 1))

theorem standbyHead_takes : standbyHead.Takes 1 := by decide +kernel

theorem standbyHead_written : exec (.chTrecStateWrite 1 0 (operateWord 0)) standbyHead =
    .next (standbyHead.after standbyWritten) := doneWrite_takes standbyHead_takes

/-- The record of the STANDBY channel stays H-IDLE, and nothing is fenced. -/
theorem standbyWritten_idle : (standbyHead.after standbyWritten).rd (F.CH_TREC_STATE_STATE 0) 0 = 0 ∧
    (standbyHead.after standbyWritten).twin.fence = false := by decide +kernel

/-- Refutes O29: without attestation asked for, a write of H-OPERATE to a record of a STANDBY head end does not bring H-OPERATE, for
the records of a STANDBY channel stay H-IDLE (R345). -/
theorem not_tuningWrites : ¬ Obligations.TuningWrites := by
  rintro ⟨-, hone⟩
  obtain ⟨-, hrecord⟩ := hone standbyHead 1 0 (operateWord 0) standbyHead_takes (by decide +kernel) (by decide +kernel)
    (by decide +kernel)
  obtain ⟨u, hfin, -, hoperate⟩ := hrecord 0
  obtain ⟨hstate, -⟩ := hoperate (by decide) (by decide +kernel)
  have hafter : standbyHead.after standbyWritten = standbyHead.after u :=
    Host.Outcome.next.inj (standbyHead_written.symm.trans hfin)
  obtain ⟨hidle, hfence⟩ := standbyWritten_idle
  rw [hafter] at hidle hfence
  have hkept : (standbyHead.after u).reg 0 (F.CH_TREC_STATE_STATE 0).off = u.reg 0 (F.CH_TREC_STATE_STATE 0).off :=
    State.finish_reg_of_not_fenced (s := u) hfence (by decide)
  rw [State.rd, hkept, ← State.rd] at hidle
  exact absurd (hstate.symm.trans hidle) (by decide)

end Sys2Proof.Machine
end

section
/-!
PROOF. What the classifier does by itself: its buckets filled up (R182, R185), and the exact operation served (R164, R426). Settles O32
and O34.
-/

namespace Sys2Proof.Machine

/-! ### SLOW_PATH_REFILL (R185) -/

/-- After each of the first m keys of a table has been replaced from its own value, those keys hold the new values, and every other
key its old one. -/
theorem tget_foldl_range_tput {α : Type} [DecidableEq α] (d : Nat → α) (v : Nat → α → α) (t : Tab α) (m n : Nat) :
    tget d ((List.range m).foldl (fun t r => tput d t r (v r (tget d t r))) t) n =
      if n < m then v n (tget d t n) else tget d t n := by
  induction m with
  | zero => rfl
  | succ m ih =>
    rw [List.range_succ, List.foldl_append, List.foldl_cons, List.foldl_nil]
    by_cases hn : n = m
    · subst hn
      rw [tget_tput_same, ih, if_neg (Nat.lt_irrefl n), if_pos (Nat.lt_succ_self n)]
    · rw [tget_tput_ne d _ _ hn, ih]
      simp only [show n < m + 1 ↔ n < m by omega]

/-- The level of a slow-path bucket with RATE for 0.5 µs more, up to its cap. -/
def State.spFilled (s : State) (r level : Nat) : Nat := min (s.spCap r) (level + s.rd (F.CLS_SP_CFG_RATE r) 0 * 65536 / 2000)

theorem slowPathRefill_sp (s : State) : (slowPathRefill s).cls.sp =
    (List.range 64).foldl (fun t r => tput (fun _ => 0) t r (s.spFilled r (tget (fun _ => 0) t r))) s.cls.sp := by
  simp only [slowPathRefill, State.spFilled]

/-- Nothing but the slow-path buckets changes. -/
theorem slowPathRefill_frame (s : State) : { slowPathRefill s with cls := { (slowPathRefill s).cls with sp := s.cls.sp } } = s := by
  unfold slowPathRefill
  rfl

theorem slowPathRefill_level (s : State) {n : Nat} (hn : n < 64) :
    tget (fun _ => 0) (slowPathRefill s).cls.sp n =
      s.spFilled n (tget (fun _ => 0) s.cls.sp n) := by
  rw [slowPathRefill_sp, tget_foldl_range_tput, if_pos hn]

theorem slowPathRefill_finishes {s : State} (h : s.Runs) : Finishes .slowPathRefill s (slowPathRefill s) := done_runs h

/-! ### RECIRCULATION_REFILL (R182) -/

/-- A frame put behind those in its parse pipe. -/
def State.feedPipe (s : State) (f : Frame) : State := s.setPipe (pipeOf f) (s.pipe (pipeOf f) ++ [f])

/-- Frames put into their parse pipes, one after the other. -/
def State.feedPipes (s : State) (fs : List Frame) : State := fs.foldl State.feedPipe s

@[simp] theorem State.feedPipes_eff (s : State) (fs : List Frame) : (s.feedPipes fs).eff = s.eff :=
  foldl_keeps State.eff (f := State.feedPipe) (fun _ _ => rfl) fs s

@[simp] theorem State.feedPipes_store (s : State) (fs : List Frame) : (s.feedPipes fs).store = s.store :=
  foldl_keeps State.store (f := State.feedPipe) (fun _ _ => rfl) fs s

@[simp] theorem State.feedPipes_recTok (s : State) (fs : List Frame) : (s.feedPipes fs).cls.recTok = s.cls.recTok :=
  foldl_keeps (fun s => s.cls.recTok) (f := State.feedPipe) (fun _ _ => rfl) fs s

@[simp] theorem State.feedPipes_recqOf (s : State) (fs : List Frame) (p : Nat) : (s.feedPipes fs).recqOf p = s.recqOf p :=
  foldl_keeps (fun s => s.recqOf p) (f := State.feedPipe) (fun _ _ => rfl) fs s

@[simp] theorem State.recqOf_setRecq_same (s : State) (p : Nat) (l : List Frame) : (s.setRecq p l).recqOf p = l :=
  tget_tput_same _ _ _ _

/-- The level of a recirculation bucket now, in 1/2000 frame. -/
def State.recircLevel (s : State) (p : Nat) : Nat :=
  min 64000 ((tget (fun _ => Bucket.empty) s.cls.recTok p).level +
    (s.pegs.cyc - (tget (fun _ => Bucket.empty) s.cls.recTok p).cyc) * s.recircLimit p)

/-- How many frames the refill feeds: as many as the bucket holds tokens for, and no more than wait. -/
def State.recircFed (s : State) (p : Nat) : Nat := min (s.recqOf p).length (s.recircLevel p / 2000)

/-- The bucket filled up to now, without the tokens of the frames fed. -/
def State.spendRecirc (s : State) (p : Nat) : State :=
  let b : Bucket := { level := s.recircLevel p - 2000 * s.recircFed p, cyc := s.pegs.cyc }
  { s with cls := { s.cls with recTok := tput (fun _ => Bucket.empty) s.cls.recTok p b } }

/-- The refill takes the tokens out of the bucket and the frames out of the queue, and feeds them. -/
theorem recirculationRefill_eq (s : State) (p : Nat) :
    recirculationRefill p s =
      ((s.spendRecirc p).setRecq p ((s.recqOf p).drop (s.recircFed p))).feedPipes ((s.recqOf p).take (s.recircFed p)) := rfl

theorem recirculationRefill_finishes {s : State} (h : s.Runs) (p : Fin 9) :
    Finishes (.recirculationRefill p) s (recirculationRefill p s) := done_runs h

theorem recirculationRefill_recqOf (s : State) (p : Nat) :
    (recirculationRefill p s).recqOf p = (s.recqOf p).drop (s.recircFed p) := by
  rw [recirculationRefill_eq, State.feedPipes_recqOf, State.recqOf_setRecq_same]

theorem recirculationRefill_cyc (s : State) (p : Nat) :
    (tget (fun _ => Bucket.empty) (recirculationRefill p s).cls.recTok p).cyc = s.pegs.cyc := by
  rw [recirculationRefill_eq, State.feedPipes_recTok]
  exact congrArg Bucket.cyc (tget_tput_same _ s.cls.recTok p _)

theorem recirculationRefill_eff (s : State) (p : Nat) : (recirculationRefill p s).eff = s.eff := by
  rw [recirculationRefill_eq, State.feedPipes_eff]
  rfl

theorem recirculationRefill_store (s : State) (p : Nat) : (recirculationRefill p s).store = s.store := by
  rw [recirculationRefill_eq, State.feedPipes_store]
  rfl

/-! ### What the end of an exact operation leaves alone -/

/-- Two states hold the same in the classifier, and in CLS_EM_CTL of every requester. -/
def State.SameExact (s t : State) : Prop := t.cls = s.cls ∧ ∀ r, t.reg r F.CLS_EM_CTL.off = s.reg r F.CLS_EM_CTL.off

theorem State.SameExact.of_eff {s t : State} (hcls : t.cls = s.cls) (heff : t.eff = s.eff) : s.SameExact t :=
  ⟨hcls, fun r => by rw [State.reg, heff, ← State.reg]⟩

theorem State.SameExact.refl (s : State) : s.SameExact s := .of_eff rfl rfl

theorem State.SameExact.trans {s t u : State} (h : s.SameExact t) (h' : t.SameExact u) : s.SameExact u := by
  obtain ⟨hcls, hreg⟩ := h
  obtain ⟨hcls', hreg'⟩ := h'
  exact ⟨hcls'.trans hcls, fun r => (hreg' r).trans (hreg r)⟩

/-- A field of CLS_EM_CTL reads the same. -/
theorem State.SameExact.rd_eq {s t : State} (h : s.SameExact t) {f : Fld} (hf : f.off = F.CLS_EM_CTL.off) (r : Nat) :
    t.rd f r = s.rd f r := by
  rw [State.rd, hf, h.2 r, ← hf, ← State.rd]

/-- A write of another register leaves CLS_EM_CTL alone. -/
theorem State.sameExact_wr (s : State) {f : Fld} (i v : Nat) (hf : f.off < 0x100000) (hne : f.off ≠ F.CLS_EM_CTL.off) :
    s.SameExact (s.wr f i v) :=
  ⟨rfl, fun _ => s.reg_setReg_ne _ fun hkey => hne ((rkey_inj (by decide) hf).mp hkey).2.symm⟩

theorem State.sameExact_fold (s : State) (kind req index ofs : Nat) (data : List Byte) :
    s.SameExact (s.fold kind req index ofs data) := by
  rw [State.fold_frame]
  exact .of_eff rfl rfl

theorem State.sameExact_putRec (s : State) (typ index : Nat) (body : List Byte) : s.SameExact (s.putRec typ index body) :=
  s.sameExact_wr (f := F.TWN_COPY_SEQ) 0 _ (by decide) (by decide)

theorem State.sameExact_copyRec (s : State) (typ index : Nat) (body : List Byte) : s.SameExact (s.copyRec typ index body) := by
  unfold State.copyRec
  split
  · exact .refl s
  · split
    · exact s.sameExact_putRec typ index body
    · split <;> exact .of_eff rfl rfl

/-! ### The steps of EM_OPERATION_DONE (R164) -/

/-- The operation leaves the queue with the table that it makes, and CLS_EM_COUNT follows. -/
def State.emServe (s : State) (o : EmOp) (em : List EmEnt) : State :=
  { s with cls := { s.cls with em, emLast := o.req % unheard, emOps := s.cls.emOps.erase o } }.wr F.CLS_EM_COUNT 0 (emUsed em)

/-- BUSY and STATUS of a requester that still hears the result (R426). -/
def State.emAnswer (s : State) (o : EmOp) (status : Nat) : State :=
  if unheard ≤ o.req then s else (s.wr F.CLS_EM_CTL_BUSY o.req 0).wr F.CLS_EM_CTL_STATUS o.req status

/-- The entry found, shown to a requester that still hears the result (R426). -/
def State.emShow (s : State) (o : EmOp) (found : Option EmEnt) : State :=
  match (if unheard ≤ o.req then none else found) with
  | none => s
  | some e => (s.wr F.CLS_EM_ACT_EPOCHS o.req e.epochs).wr F.CLS_EM_ACT_ACT o.req e.act

/-- A successful operation is folded (R362), and one that may change the table is copied to the partner (R344). -/
def State.emRecord (s : State) (o : EmOp) (status : Nat) : State :=
  if status = emOk then
    let s := s.fold foldExact (o.req % unheard) 0 o.ctl.toNat (padKey 64 o.key ++ toBytes (bytesLE 4 o.actw.toNat))
    if o.op != 2 && s.copiesRules then
      s.copyRec rcEm 0 (toBytes (bytesBE 4 o.ctl.toNat ++ bytesBE 4 o.actw.toNat) ++ padKey 64 o.key)
    else s
  else s

theorem emOperationDone_of_none {s : State} (noPlace : Bool) (h : s.emNext = none) : emOperationDone noPlace s = s := by
  rw [emOperationDone, h]

/-- The operation served is taken out, answered, shown and recorded. -/
theorem emOperationDone_of_some {s : State} {o : EmOp} (noPlace : Bool) (h : s.emNext = some o) :
    emOperationDone noPlace s =
      (((s.emServe o (emApply s.cls.em o noPlace).1).emAnswer o (emApply s.cls.em o noPlace).2.1).emShow o
        (emApply s.cls.em o noPlace).2.2).emRecord o (emApply s.cls.em o noPlace).2.1 := by
  rw [emOperationDone, h]
  rfl

theorem emOperationDone_finishes {s : State} (h : s.Runs) (noPlace : Bool) :
    Finishes (.emOperationDone noPlace) s (emOperationDone noPlace s) := done_runs h

theorem State.emServe_reg (s : State) (o : EmOp) (em : List EmEnt) (r : Nat) :
    (s.emServe o em).reg r F.CLS_EM_CTL.off = s.reg r F.CLS_EM_CTL.off :=
  (State.sameExact_wr _ 0 (emUsed em) (f := F.CLS_EM_COUNT) (by decide) (by decide)).2 r

@[simp] theorem State.emAnswer_cls (s : State) (o : EmOp) (status : Nat) : (s.emAnswer o status).cls = s.cls := by
  unfold State.emAnswer
  split <;> rfl

theorem State.emAnswer_unheard (s : State) {o : EmOp} (status : Nat) (h : unheard ≤ o.req) : s.emAnswer o status = s := if_pos h

theorem CLS_EM_CTL_BUSY_ok : F.CLS_EM_CTL_BUSY.ok := ⟨by decide, by decide⟩
theorem CLS_EM_CTL_STATUS_ok : F.CLS_EM_CTL_STATUS.ok := ⟨by decide, by decide⟩

/-- The answer brings BUSY to 0, and the write of STATUS behind it leaves it there. -/
theorem State.emAnswer_busy (s : State) {o : EmOp} (status : Nat) (h : o.req < unheard) :
    (s.emAnswer o status).rd F.CLS_EM_CTL_BUSY o.req = 0 := by
  rw [State.emAnswer, if_neg (Nat.not_le.mpr h), 
    State.rd_wr_fld _ _ _ CLS_EM_CTL_STATUS_ok CLS_EM_CTL_BUSY_ok rfl (by decide),
    State.rd_wr_same _ _ _ _ CLS_EM_CTL_BUSY_ok]
  rfl

theorem State.emAnswer_status (s : State) {o : EmOp} (status : Nat) (h : o.req < unheard) :
    (s.emAnswer o status).rd F.CLS_EM_CTL_STATUS o.req = status % 2 ^ F.CLS_EM_CTL_STATUS.width := by
  rw [State.emAnswer, if_neg (Nat.not_le.mpr h), State.rd_wr_same _ _ _ _ CLS_EM_CTL_STATUS_ok]

theorem State.sameExact_emShow (s : State) (o : EmOp) (found : Option EmEnt) : s.SameExact (s.emShow o found) := by
  unfold State.emShow
  split
  · exact .refl s
  · exact (s.sameExact_wr _ _ (by decide) (by decide)).trans (State.sameExact_wr _ _ _ (by decide) (by decide))

theorem State.sameExact_emRecord (s : State) (o : EmOp) (status : Nat) : s.SameExact (s.emRecord o status) := by
  unfold State.emRecord
  split
  · dsimp only
    split
    · exact (s.sameExact_fold _ _ _ _ _).trans (State.sameExact_copyRec _ _ _ _)
    · exact s.sameExact_fold _ _ _ _ _
  · exact .refl s

/-- Behind the answer neither the classifier nor a CLS_EM_CTL changes any more. -/
theorem sameExact_emOperationDone {s : State} {o : EmOp} (noPlace : Bool) (h : s.emNext = some o) :
    ((s.emServe o (emApply s.cls.em o noPlace).1).emAnswer o (emApply s.cls.em o noPlace).2.1).SameExact
      (emOperationDone noPlace s) := by
  rw [emOperationDone_of_some noPlace h]
  exact (State.sameExact_emShow _ _ _).trans (State.sameExact_emRecord _ _ _)

/-- The classifier after the operation served: its table, the queue without it, and its requester served last. -/
theorem emOperationDone_cls {s : State} {o : EmOp} (noPlace : Bool) (h : s.emNext = some o) :
    (emOperationDone noPlace s).cls =
      { s.cls with em := (emApply s.cls.em o noPlace).1, emLast := o.req % unheard, emOps := s.cls.emOps.erase o } :=
  (sameExact_emOperationDone noPlace h).1.trans (State.emAnswer_cls _ _ _)

theorem State.emNext_of_no_op {s : State} (h : s.cls.emOps = []) : s.emNext = none := by
  rw [State.emNext, h]
  rfl

/-! ### The statements -/

/-- Settles O32: the buckets of the slow path one by one, the recirculation's by what the refill feeds. -/
theorem classifierRefills : Obligations.ClassifierRefills := by
  intro s hs
  refine ⟨⟨slowPathRefill s, slowPathRefill_finishes hs, slowPathRefill_frame s, fun n hn => slowPathRefill_level s hn⟩, fun p => ?_⟩
  exact ⟨recirculationRefill p s, s.recircFed p, recirculationRefill_finishes hs p, recirculationRefill_recqOf s p, rfl,
    recirculationRefill_cyc s p, recirculationRefill_eff s p, recirculationRefill_store s p⟩

/-- Settles O34: the operation served by what its answer leaves; a requester reset since has no answer. -/
theorem exactDone : Obligations.ExactDone := by
  intro s noPlace hs
  have hfin := emOperationDone_finishes hs noPlace
  refine ⟨fun hempty => ?_, fun o hnext hreq => ?_, fun o hnext hreq => ?_⟩
  · rwa [emOperationDone_of_none noPlace (State.emNext_of_no_op hempty)] at hfin
  · have hsame := sameExact_emOperationDone noPlace hnext
    have hcls := emOperationDone_cls noPlace hnext
    have hheard : o.req < unheard := Nat.lt_trans hreq (by decide)
    refine ⟨_, hfin, congrArg Cls.em hcls, ?_, ?_, congrArg Cls.emOps hcls, ?_⟩
    · exact (hsame.rd_eq (f := F.CLS_EM_CTL_BUSY) rfl _).trans (State.emAnswer_busy _ _ hheard)
    · exact (hsame.rd_eq (f := F.CLS_EM_CTL_STATUS) rfl _).trans (State.emAnswer_status _ _ hheard)
    · exact (congrArg Cls.emLast hcls).trans (Nat.mod_eq_of_lt hheard)
  · have hsame := sameExact_emOperationDone noPlace hnext
    have hcls := emOperationDone_cls noPlace hnext
    rw [State.emAnswer_unheard _ _ hreq] at hsame
    exact ⟨_, hfin, congrArg Cls.em hcls, congrArg Cls.emOps hcls, fun r => (hsame.2 r).trans (State.emServe_reg _ _ _ r)⟩

end Sys2Proof.Machine
end

section
/-!
PROOF. What ends every command where nothing fences, no task joins and no partner is copied to (R205, R313, R334, R343, R408): the
reorder contexts are brought up to date, and the entries of the cycle go into the event log. Settles O6.
-/

namespace Sys2Proof.Machine

/-! ### The steps that do nothing (R313, R334, R343) -/

theorem State.selfFence_of_no_edge {s : State} (h : s.holdLow = s.twin.fence) : s.selfFence = s := if_pos h

theorem State.readyAll_of_no_join {s : State} (h : s.tds.joins = []) : s.readyAll = s := by
  rw [State.readyAll, h]

theorem State.copyReqs_of_not_copying {s : State} (h : s.copying = false) : s.copyReqs = s := if_pos (by rw [h]; rfl)

/-- What the contexts are no part of, bringing them up to date keeps. -/
theorem State.refreshContexts_keeps {β : Type} (p : State → β) (h : ∀ s chord g x, p (State.setCtx s chord g x) = p s) (s : State) :
    p s.refreshContexts = p s := by
  unfold State.refreshContexts
  exact foldl_keeps p (fun s _ => h s _ _ _) _ _

theorem State.refreshContexts_copying (s : State) : s.refreshContexts.copying = s.copying :=
  State.refreshContexts_keeps State.copying (fun _ _ _ _ => rfl) s

theorem State.finish_of_quiet {s : State} (hedge : s.holdLow = s.twin.fence) (hjoins : s.tds.joins = [])
    (hcopying : s.copying = false) : s.finish = s.refreshContexts.flushLog := by
  rw [State.finish, State.selfFence_of_no_edge hedge, State.readyAll_of_no_join hjoins,
    State.copyReqs_of_not_copying ((State.refreshContexts_copying s).trans hcopying)]

/-! ### What an entry written keeps (R408, R411, R412) -/

/-- The faults without the circle of the event log, the counts by SEV and the capo summary. -/
def Flt.sansLog (f : Flt) : Flt := { f with log := [], sevs := [], capo := [], capoNext := 0 }

section
variable {β : Type} (p : State → β) (hseq : ∀ s v, p (s.wr F.FLT_LOG_SEQ 0 v) = p s) (hemit : ∀ s o, p (s.emit o) = p s)
  (hflt : ∀ (s : State) (f : Flt), f.sansLog = s.flt.sansLog → p { s with flt := f } = p s)
include hseq hemit hflt

/-- What neither SEQ nor the log, the counts and the capo summary nor what leaves the engine is part of, an entry written keeps. -/
theorem State.putEnt_keeps (s : State) (e : LogEnt) : p (s.putEnt e) = p s := by
  unfold State.putEnt
  extract_lets seq ent counted flt circle summary written base
  have hsummary : summary.sansLog = counted.flt.sansLog := by
    simp only [summary]
    split <;> rfl
  have hwritten : p written = p s := (hflt counted summary hsummary).trans (hseq s seq)
  split
  · exact (foldl_keeps p (fun s _ => hemit s _) _ written).trans hwritten
  · exact hwritten

/-- The entries of the cycle written change no more than one does, but that the cycle has none left. -/
theorem State.flushLog_keeps (s : State) : p s.flushLog = p { s with flt := { s.flt with cycle := [] } } :=
  foldl_keeps p (State.putEnt_keeps p hseq hemit hflt) _ { s with flt := { s.flt with cycle := [] } }

end

theorem State.flushLog_cycle (s : State) : s.flushLog.flt.cycle = [] :=
  State.flushLog_keeps (fun s => s.flt.cycle) (fun _ _ => rfl) (fun _ _ => rfl) (fun _ _ h => (congrArg Flt.cycle h :)) s

/-- Of the registers only FLT_LOG_SEQ takes part in the writing of the log. -/
theorem State.flushLog_eff (s : State) {k : Nat} (h : k ≠ rkey 0 F.FLT_LOG_SEQ.off) :
    tget regReset s.flushLog.eff k = tget regReset s.eff k :=
  State.flushLog_keeps (fun s => tget regReset s.eff k) (fun _ _ => tget_tput_ne _ _ _ h) (fun _ _ => rfl) (fun _ _ _ => rfl) s

/-! ### What the end of a command keeps -/

/-- A state without the values in effect, the reorder contexts, the event log with its capo summary, and what leaves the engine. -/
def State.sansEnd (s : State) : State :=
  { s with eff := [], store := { s.store with ctx := [] }, flt := { s.flt.sansLog with cycle := [] }, out := [] }

theorem State.refreshContexts_sansEnd (s : State) : s.refreshContexts.sansEnd = s.sansEnd :=
  State.refreshContexts_keeps State.sansEnd (fun _ _ _ _ => rfl) s

theorem State.refreshContexts_eff (s : State) : s.refreshContexts.eff = s.eff :=
  State.refreshContexts_keeps State.eff (fun _ _ _ _ => rfl) s

theorem State.sansEnd_flt (s : State) {f : Flt} (h : f.sansLog = s.flt.sansLog) :
    { s with flt := f }.sansEnd = s.sansEnd :=
  congrArg (fun f => { s.sansEnd with flt := { f with cycle := [] } }) h

theorem State.flushLog_sansEnd (s : State) : s.flushLog.sansEnd = s.sansEnd :=
  State.flushLog_keeps State.sansEnd (fun _ _ => rfl) (fun _ _ => rfl) (fun s _ h => s.sansEnd_flt h) s

/-- States that agree without those parts differ in nothing but them. -/
theorem State.eq_of_sansEnd {s t : State} (h : t.sansEnd = s.sansEnd) :
    t = { s with eff := t.eff, store := { s.store with ctx := t.store.ctx }, flt := t.flt, out := t.out } :=
  congrArg (fun u : State =>
    { u with eff := t.eff, store := { u.store with ctx := t.store.ctx }, flt := t.flt, out := t.out }) h

/-! ### The statement -/

/-- Settles O6: of the steps that end a command only the refresh of the contexts and the writing of the log are left. -/
theorem endOfCommand : Obligations.EndOfCommand := by
  intro u hedge hjoins hcopying
  rw [State.finish_of_quiet hedge hjoins hcopying]
  have hsame : u.refreshContexts.flushLog.sansEnd = u.sansEnd :=
    (State.flushLog_sansEnd _).trans u.refreshContexts_sansEnd
  refine ⟨State.eq_of_sansEnd hsame, fun k hk => ?_, State.flushLog_cycle _, congrArg (·.flt.watch) hsame,
    congrArg (·.flt.ins) hsame, congrArg (·.flt.bist) hsame, congrArg (·.flt.rows) hsame⟩
  rw [State.flushLog_eff _ hk, State.refreshContexts_eff]

end Sys2Proof.Machine
end

section
/-!
PROOF. The store's and the shapers' own work (R186, R188, R192, R194, R196, R205, R215, R217): restaging and refills, the cells taken
from a slice and their links, and the bytes of a descriptor and of a deep cell. Settles O35.
-/

namespace Sys2Proof.Machine

/-! ### RESTAGE_READ and DEEP_BUDGET_REFILL (R194, R196) -/

theorem restageRead_of_idle {s : State} {q : Nat}
    (h : s.restages q = false ∨ 1024 * s.rd F.OCT_STORE_RES_RESTAGE_KIB (restageOct q) ≤ aheadBytes (s.queue q)) :
    restageRead q s = s := by
  refine if_neg ?_
  rw [Bool.and_eq_true, decide_eq_true_eq]
  rintro ⟨hserves, hbelow⟩
  obtain hnot | hfull := h
  · exact Bool.false_ne_true (hnot.symm.trans hserves)
  · exact Nat.not_lt.mpr hfull hbelow

theorem restageRead_of_serves {s : State} {q : Nat} (hserves : s.restages q = true)
    (hbelow : aheadBytes (s.queue q) < 1024 * s.rd F.OCT_STORE_RES_RESTAGE_KIB (restageOct q)) :
    restageRead q s = s.restageRun q (aheadBytes (s.queue q)) (1024 * s.rd F.OCT_STORE_RES_RESTAGE_KIB (restageOct q))
      (firstRun (s.queue q)) := if_pos (by rw [Bool.and_eq_true, decide_eq_true_eq]; exact ⟨hserves, hbelow⟩)

theorem restageRead_finishes {s : State} (h : s.Runs) (q : Fin 4248) : Finishes (.restageRead q) s (restageRead q s) := done_runs h

theorem reorderReleaseLoop_finishes {s : State} (h : s.Runs) (chord : Fin 32) (group : Fin 8) :
    Finishes (.reorderReleaseLoop chord group) s (s.runLoop chord group) := done_runs h

theorem deepBudgetRefill_finishes {s : State} (h : s.Runs) : Finishes .deepBudgetRefill s (deepBudgetRefill s) := done_runs h

/-- Nothing but the budget changes. -/
theorem deepBudgetRefill_frame (s : State) :
    { deepBudgetRefill s with store := { (deepBudgetRefill s).store with tokens := s.store.tokens } } = s := by
  unfold deepBudgetRefill State.refillBudget
  rfl

theorem deepBudgetRefill_tokens (s : State) : (deepBudgetRefill s).store.tokens =
    min s.budgetCap (s.store.tokens + min 10240 (s.rd F.MEM_DEEP_BUDGET 0) * 125 * s.memActive) := rfl

/-! ### SHAPER_REFILL (R215, R217) -/

/-- What a refill acts on: the level of a shaper and the charge that it returns. -/
def State.shpAt (s : State) (k : Nat) : Int × Int := (s.shpLevel k, s.shpRet k)

theorem State.shpAt_eq_iff {s : State} {k : Nat} {level ret : Int} :
    s.shpAt k = (level, ret) ↔ s.shpLevel k = level ∧ s.shpRet k = ret :=
  Iff.of_eq (Prod.mk.injEq _ _ _ _)

/-- A shaper after a refill: INC and the charge returned are in its level, to at most the cap. -/
def State.shpFilled (s : State) (k : Nat) : Int × Int := (min (s.shpCap k) (s.shpLevel k + (s.shpInc k : Int) + s.shpRet k), 0)

theorem State.shpAt_shpRefill_same (s : State) (k : Nat) : (s.shpRefill k).shpAt k = s.shpFilled k :=
  State.shpAt_eq_iff.mpr ⟨(tget_tput_same _ _ _ _).trans (by omega), tget_tput_same _ _ _ _⟩

theorem State.shpAt_shpRefill_ne (s : State) {j k : Nat} (h : k ≠ j) : (s.shpRefill j).shpAt k = s.shpAt k :=
  State.shpAt_eq_iff.mpr ⟨tget_tput_ne _ _ _ h, tget_tput_ne _ _ _ h⟩

/-- What a refill of one shaper makes of another does not depend on which of them is first. -/
theorem State.shpFilled_shpRefill_ne (s : State) {j k : Nat} (h : k ≠ j) : (s.shpRefill j).shpFilled k = s.shpFilled k := by
  obtain ⟨hlevel, hret⟩ := State.shpAt_eq_iff.mp (s.shpAt_shpRefill_ne h)
  rw [State.shpFilled, hlevel, hret]
  rfl

theorem State.shpAt_refills_of_not_mem {l : List Nat} {k : Nat} (h : k ∉ l) (s : State) :
    (l.foldl State.shpRefill s).shpAt k = s.shpAt k := by
  induction l generalizing s with
  | nil => rfl
  | cons j l ih =>
    rw [List.mem_cons, not_or] at h
    obtain ⟨hne, hnot⟩ := h
    rw [List.foldl_cons, ih hnot, s.shpAt_shpRefill_ne hne]

/-- Shapers refilled one after the other, each once, are each refilled from the state before. -/
theorem State.shpAt_refills_of_mem {l : List Nat} {k : Nat} (hnodup : l.Nodup) (h : k ∈ l) (s : State) :
    (l.foldl State.shpRefill s).shpAt k = s.shpFilled k := by
  induction l generalizing s with
  | nil => cases h
  | cons j l ih =>
    obtain ⟨hnot, hrest⟩ := List.nodup_cons.mp hnodup
    rw [List.foldl_cons]
    obtain rfl | htail := List.mem_cons.mp h
    · rw [State.shpAt_refills_of_not_mem hnot, State.shpAt_shpRefill_same]
    · have hne : k ≠ j := fun heq => hnot (heq ▸ htail)
      rw [ih hrest htail, State.shpFilled_shpRefill_ne s hne]

theorem nodup_eraseDups (l : List Nat) : l.eraseDups.Nodup := by
  match l with
  | [] => exact List.nodup_nil
  | a :: l =>
    rw [List.eraseDups_cons, List.nodup_cons]
    exact ⟨by simp, nodup_eraseDups _⟩
termination_by l.length
decreasing_by exact Nat.lt_succ_of_le (List.length_filter_le _ _)

/-- The shapers refilled at once: those of every octant that is not asleep. -/
def State.shpAwake (s : State) : List Nat := s.shpKeys.filter (fun k => !s.asleep (octOf (shpChannel k)))

theorem State.shpRefill_eff (s : State) (k : Nat) : (s.shpRefill k).eff = s.eff := rfl
theorem State.shpRefill_store (s : State) (k : Nat) : (s.shpRefill k).store = s.store := rfl
theorem State.mtrRefill_eff (s : State) (m : Nat) : (s.mtrRefill m).eff = s.eff := rfl
theorem State.mtrRefill_store (s : State) (m : Nat) : (s.mtrRefill m).store = s.store := rfl

/-- What shapers and meters are no part of, SHAPER_REFILL keeps. -/
theorem shaperRefill_keeps {β : Type} (p : State → β) (hshp : ∀ s k, p (State.shpRefill s k) = p s)
    (hmtr : ∀ s m, p (State.mtrRefill s m) = p s) (s : State) : p (shaperRefill s) = p s := by
  unfold shaperRefill
  exact (foldl_keeps p hmtr _ _).trans (foldl_keeps p hshp _ _)

theorem shaperRefill_shpAt (s : State) (k : Nat) : (shaperRefill s).shpAt k = (s.shpAwake.foldl State.shpRefill s).shpAt k := by
  unfold shaperRefill
  exact foldl_keeps (fun s => s.shpAt k) (f := State.mtrRefill) (fun _ _ => rfl) _ _

theorem shaperRefill_awake {s : State} {k : Nat} (hkey : k ∈ s.shpKeys) (hawake : s.asleep (octOf (shpChannel k)) = false) :
    (shaperRefill s).shpAt k = s.shpFilled k := by
  rw [shaperRefill_shpAt]
  exact State.shpAt_refills_of_mem ((nodup_eraseDups _).filter _) (List.mem_filter.mpr ⟨hkey, by rw [hawake]; rfl⟩) s

theorem shaperRefill_finishes {s : State} (h : s.Runs) : Finishes .shaperRefill s (shaperRefill s) := done_runs h

/-! ### Frame-store cells (R186) -/

theorem State.fsFrom_length (s : State) (o fuel n i : Nat) : (s.fsFrom o fuel n i).length ≤ n := by
  induction fuel generalizing n i with
  | zero => exact Nat.zero_le n
  | succ fuel ih =>
    unfold State.fsFrom
    dsimp only
    split
    · exact Nat.zero_le n
    next hn =>
      split
      · exact ih n _
      · have hrest := ih (n - 1) ((i + 1) % 98304)
        rw [List.length_cons]
        omega

/-- A cell on the free list of a slice: it lies there, is not in use, and its row is not retired. -/
def State.FreeCell (s : State) (o x : Nat) : Prop := x / 98304 = o ∧ s.fsCellUsed x = false ∧ s.fsCellRetired x = false

theorem State.fsFrom_free (s : State) (o fuel n : Nat) {i : Nat} (hi : i < 98304) : ∀ x ∈ s.fsFrom o fuel n i, s.FreeCell o x := by
  induction fuel generalizing n i with
  | zero => exact fun x hx => absurd hx List.not_mem_nil
  | succ fuel ih =>
    have hnext : (i + 1) % 98304 < 98304 := Nat.mod_lt _ (Nat.zero_lt_of_lt hi)
    unfold State.fsFrom
    dsimp only
    split
    · exact fun x hx => absurd hx List.not_mem_nil
    · split
      · exact ih n hnext
      next hfree =>
        rw [Bool.or_eq_true, not_or, Bool.not_eq_true, Bool.not_eq_true] at hfree
        obtain ⟨hunused, hsound⟩ := hfree
        exact List.forall_mem_cons.mpr ⟨⟨by omega, hunused, hsound⟩, ih (n - 1) hnext⟩

/-- The link word of a cell names the next cell, that of the last one has LAST. -/
theorem linkWords_get {l : List Nat} {i x : Nat} (h : l[i]? = some x) :
    (linkWords l)[i]? = some (x, (l[i + 1]?).getD (2 ^ 31)) := by
  induction l generalizing i with
  | nil => cases h
  | cons y l ih =>
    cases i with
    | zero =>
      rw [List.getElem?_cons_zero, Option.some.injEq] at h
      cases l with
      | nil => simp only [linkWords, List.getElem?_cons_zero, List.getElem?_cons_succ, List.getElem?_nil, Option.getD_none, h]
      | cons z l => simp only [linkWords, List.getElem?_cons_zero, List.getElem?_cons_succ, Option.getD_some, h]
    | succ i =>
      rw [List.getElem?_cons_succ] at h
      cases l with
      | nil => cases h
      | cons z l => simpa only [linkWords, List.getElem?_cons_succ] using ih h

/-! ### Bytes of a structure in memory -/

/-- A number is made of its bytes, as far as they go. -/
theorem ofLE_bytesLE (n v : Nat) : ofLE (bytesLE n v) = v % 2 ^ (8 * n) := by
  induction n generalizing v with
  | zero => exact (Nat.mod_one v).symm
  | succ n ih =>
    have hbyte (i : Nat) : v / 2 ^ (8 * (i + 1)) = v / 256 / 2 ^ (8 * i) := by
      rw [Nat.div_div_eq_div_mul, Nat.mul_succ, Nat.pow_add, Nat.mul_comm]
    have hsplit : bytesLE (n + 1) v = v % 256 :: bytesLE n (v / 256) := by
      rw [bytesLE, List.range_succ_eq_map, List.map_cons, List.map_map, Nat.mul_zero, Nat.pow_zero, Nat.div_one]
      exact congrArg (v % 256 :: ·) (List.map_congr_left (fun i _ => congrArg (· % 256) (hbyte i)))
    have hpow : 2 ^ (8 * (n + 1)) = 256 * 2 ^ (8 * n) := by rw [Nat.mul_succ, Nat.pow_add, Nat.mul_comm]
    rw [hsplit, ofLE, ih, hpow, Nat.mod_mul]

theorem fieldLE_eq_ofLE (l : List Byte) (ofs n : Nat) : fieldLE l ofs n = ofLE ((List.range n).map (fun i => byteAt l (ofs + i))) := by
  rw [fieldLE]
  induction List.range n with
  | nil => rfl
  | cons i is ih => exact congrArg (byteAt l (ofs + i) + 256 * ·) ih

theorem byteAt_append_left {l : List Byte} (rest : List Byte) {i : Nat} (h : i < l.length) : byteAt (l ++ rest) i = byteAt l i := by
  rw [byteAt, byteAt, List.getD_eq_getElem?_getD, List.getD_eq_getElem?_getD, List.getElem?_append_left h]

theorem byteAt_append_right (l rest : List Byte) (i : Nat) : byteAt (l ++ rest) (l.length + i) = byteAt rest i := by
  rw [byteAt, byteAt, List.getD_eq_getElem?_getD, List.getD_eq_getElem?_getD, List.getElem?_append_right (Nat.le_add_right _ _),
    Nat.add_sub_cancel_left]

theorem byteAt_toBytes_bytesLE (n v : Nat) {i : Nat} (h : i < n) : byteAt (toBytes (bytesLE n v)) i = v / 2 ^ (8 * i) % 256 := by
  simp [byteAt, toBytes, bytesLE, h]

/-- A number laid out behind other bytes reads back from there. -/
theorem fieldLE_append (l rest : List Byte) (n v : Nat) (h : v < 2 ^ (8 * n)) :
    fieldLE (l ++ (toBytes (bytesLE n v) ++ rest)) l.length n = v := by
  have hbytes : (List.range n).map (fun i => byteAt (l ++ (toBytes (bytesLE n v) ++ rest)) (l.length + i)) = bytesLE n v := by
    refine List.map_congr_left (fun i hi => ?_)
    have hlt : i < n := List.mem_range.mp hi
    rw [byteAt_append_right, byteAt_append_left _ (by rwa [length_toBytes_bytesLE]), byteAt_toBytes_bytesLE n v hlt]
  rw [fieldLE_eq_ofLE, hbytes, ofLE_bytesLE, Nat.mod_eq_of_lt h]

/-- The descriptor takes 32 bytes (R188). -/
theorem QFrame.descriptor_length (x : QFrame) (bytes loc : Nat) : (x.descriptor bytes loc).length = 32 := by
  simp [QFrame.descriptor, toBytes, bytesLE]

/-! ### A deep cell (R192) -/

/-- What stands behind the data of a cell: NEXT, but for the last one. -/
def DeepFr.cellTail (d : DeepFr) (i : Nat) : List Byte :=
  (d.cells.drop (i + 1)).head?.elim [] (fun next => toBytes (bytesLE 4 next) ++ List.replicate 4 0)

theorem DeepFr.cellBytes_first (d : DeepFr) (f : List Byte) :
    d.cellBytes f 0 = d.desc ++ (toBytes (bytesLE 4 d.runNext) ++ (List.replicate 28 0 ++ (f.take 184 ++ d.cellTail 0))) := by
  simp [DeepFr.cellBytes, DeepFr.cellTail]

theorem DeepFr.cellBytes_later (d : DeepFr) (f : List Byte) {i next : Nat} (hi : 0 < i) (hnext : d.cells[i + 1]? = some next) :
    d.cellBytes f i = (f.drop (184 + 248 * (i - 1))).take 248 ++ (toBytes (bytesLE 4 next) ++ List.replicate 4 0) := by
  simp [DeepFr.cellBytes, Nat.ne_of_gt hi, List.head?_drop, hnext]

/-- Descriptor, RUN_NEXT and the first bytes of the frame stand in their places of the first cell. -/
theorem DeepFr.first_cell_layout {d : DeepFr} (f : List Byte) (hdesc : d.desc.length = 32) (hnext : d.runNext < 2 ^ 32) :
    (d.cellBytes f 0).take 32 = d.desc ∧ fieldLE (d.cellBytes f 0) 32 4 = d.runNext ∧
      ((d.cellBytes f 0).drop 64).take (f.take 184).length = f.take 184 := by
  rw [DeepFr.cellBytes_first]
  refine ⟨?_, ?_, ?_⟩
  · rw [← hdesc, List.take_left]
  · rw [← hdesc]
    exact fieldLE_append _ _ 4 _ hnext
  · have hhead : (d.desc ++ toBytes (bytesLE 4 d.runNext) ++ List.replicate 28 0).length = 64 := by
      simp [hdesc, length_toBytes_bytesLE]
    rw [← List.append_assoc, ← List.append_assoc, ← List.append_assoc, List.append_assoc _ _ (d.cellTail 0), ← hhead,
      List.drop_left, List.take_left]

/-- Behind the 248 bytes of a later cell that is not the last stands NEXT, and they fill the cell. -/
theorem DeepFr.later_cell_layout {d : DeepFr} {f : List Byte} {i next : Nat} (hi : 0 < i) (hlen : 184 + 248 * i ≤ f.length)
    (hcell : d.cells[i + 1]? = some next) (hnext : next < 2 ^ 32) :
    fieldLE (d.cellBytes f i) 248 4 = next ∧ (d.cellBytes f i).length = 256 := by
  have hdata : ((f.drop (184 + 248 * (i - 1))).take 248).length = 248 := by
    rw [List.length_take, List.length_drop]
    omega
  rw [DeepFr.cellBytes_later d f hi hcell]
  refine ⟨?_, ?_⟩
  · have hfield := fieldLE_append ((f.drop (184 + 248 * (i - 1))).take 248) (List.replicate 4 0) 4 next hnext
    rwa [hdata] at hfield
  · simp only [List.length_append, hdata, length_toBytes_bytesLE, List.length_replicate]

/-! ### The statement -/

/-- Settles O35: the commands by what each does, the cells by induction over the slice and over the frame's cells, the layouts by the
bytes in front of each field. -/
theorem storeAndShapers : Obligations.StoreAndShapers := by
  refine ⟨fun s hs => ?commands, fun s hs => ?shapers,
    fun s o fuel n i hi => ⟨s.fsFrom_length o fuel n i, s.fsFrom_free o fuel n hi⟩, fun l i x h => linkWords_get h,
    fun x bytes loc d f i next => ⟨x.descriptor_length bytes loc, DeepFr.first_cell_layout f, DeepFr.later_cell_layout⟩⟩
  case commands =>
    refine ⟨reorderReleaseLoop_finishes hs, fun q hidle => ?_, fun q hserves hbelow => ?_, deepBudgetRefill s,
      deepBudgetRefill_finishes hs, deepBudgetRefill_frame s, deepBudgetRefill_tokens s⟩
    · have hfin := restageRead_finishes hs q
      rwa [restageRead_of_idle hidle] at hfin
    · have hfin := restageRead_finishes hs q
      rwa [restageRead_of_serves hserves hbelow] at hfin
  case shapers =>
    refine ⟨shaperRefill s, shaperRefill_finishes hs, shaperRefill_keeps State.eff State.shpRefill_eff State.mtrRefill_eff s,
      shaperRefill_keeps State.store State.shpRefill_store State.mtrRefill_store s, fun k hkey hawake => ?_⟩
    obtain ⟨hlevel, hret⟩ := State.shpAt_eq_iff.mp (shaperRefill_awake hkey hawake)
    exact ⟨hlevel, hlevel ▸ Int.min_le_left _ _, hret⟩

end Sys2Proof.Machine
end

section
/-!
PROOF. Stages 3 to 5 (R14, R156, R170 to R172, R176, R223): which frame of a pipe makes its pass and which of a hold list takes its
action, stale frames, and the retirement of an epoch. Settles O31.
-/

namespace Sys2Proof.Machine

/-! ### PARSE_PASS (R14, R223) -/

theorem parsePass_finishes {s : State} (h : s.Runs) (p : Fin 17) (n : Fin 3) :
    Finishes (.parsePass { pipe := p, nth := n }) s (parsePass p n s) := done_runs h

/-- Which frame of a pipe a pass takes: the three pipes of an octant hold a frame each, any other pipe passes its frames in order. -/
def passNth (p n : Nat) : Nat := if p < 8 then n else 0

theorem passNth_octant {p : Nat} (n : Nat) (h : p < 8) : passNth p n = n := if_pos h

section
variable {s : State} {p n : Nat} {f : Frame}

theorem parsePass_of_none (h : (s.pipe p)[passNth p n]? = none) : parsePass p n s = s := by
  unfold passNth at h
  simp only [parsePass, h]

/-- Behind a frame of its flow, or in a sleeping octant, a frame waits. -/
theorem parsePass_of_waits (h : (s.pipe p)[passNth p n]? = some f)
    (hwaits : (p < 8 ∧ s.asleep p = true) ∨ ∃ x ∈ (s.pipe p).take (passNth p n), x.flow = f.flow) : parsePass p n s = s := by
  unfold passNth at h hwaits
  simp only [parsePass, h]
  exact if_pos (by simpa using hwaits)

/-- With no frame of its flow in front, a frame of an awake pipe leaves the pipe for its pass. -/
theorem parsePass_of_passes (h : (s.pipe p)[passNth p n]? = some f) (hawake : p < 8 → s.asleep p = false)
    (hfront : ∀ x ∈ (s.pipe p).take (passNth p n), x.flow ≠ f.flow) : parsePass p n s =
      (s.setPipe p ((s.pipe p).take (passNth p n) ++ (s.pipe p).drop (passNth p n + 1))).pass f := by
  unfold passNth at h hfront ⊢
  simp only [parsePass, h]
  exact if_neg (by simpa using ⟨hawake, hfront⟩)

/-- The frame in front of an awake pipe has none before it. -/
theorem parsePass_of_front {rest : List Frame} (h : s.pipe p = f :: rest) (hp : 8 ≤ p ∨ (n = 0 ∧ s.asleep p = false)) :
    parsePass p n s = (s.setPipe p rest).pass f := by
  have hnth : passNth p n = 0 := by
    unfold passNth
    split <;> omega
  have hawake : p < 8 → s.asleep p = false := fun hlt => (hp.resolve_left (Nat.not_le.mpr hlt)).2
  rw [parsePass_of_passes (by rw [h, hnth]; rfl) hawake (by simp [hnth]), h, hnth]
  rfl

end

/-! ### PATTERN_RELEASE (R170 to R172) -/

theorem patternRelease_finishes {s : State} (h : s.Runs) (p : Fin 17) (n : Nat) :
    Finishes (.patternRelease p n) s (patternRelease p n s) := done_runs h

section
variable {s : State} {p n : Nat} {h : Hold}

theorem patternRelease_of_none (hn : (s.holdOf p)[n]? = none) : patternRelease p n s = s := by
  simp only [patternRelease, hn]

/-- Where one of its flow that arrived before it is held, a frame stays held. -/
theorem patternRelease_of_behind (hn : (s.holdOf p)[n]? = some h)
    (hbehind : ∃ x ∈ s.holdOf p, x.f.flow = h.f.flow ∧ h.f.flow ≠ unordered ∧ x.f.place < h.f.place) :
    patternRelease p n s = s := by
  simp only [patternRelease, hn]
  exact if_pos (by simpa [and_assoc] using hbehind)

/-- The first of its flow, and one without an order, takes its action. -/
theorem patternRelease_of_first (hn : (s.holdOf p)[n]? = some h)
    (hfirst : h.f.flow = unordered ∨ ∀ x ∈ s.holdOf p, x.f.flow = h.f.flow → h.f.place ≤ x.f.place) :
    patternRelease p n s =
      (s.setHold p ((s.holdOf p).take n ++ (s.holdOf p).drop (n + 1))).takeAction { h.f with flow := unordered } h.w h.act := by
  simp only [patternRelease, hn]
  refine if_neg ?_
  simp only [List.any_eq_true, Bool.and_eq_true, beq_iff_eq, bne_iff_ne, decide_eq_true_eq]
  rintro ⟨x, hx, ⟨hflow, hordered⟩, hbefore⟩
  exact Nat.not_lt.mpr (hfirst.resolve_left hordered x hx hflow) hbefore

end

/-! ### CLS_STALE (R156) -/

theorem clsStale_finishes {s : State} (h : s.Runs) (p : Fin 17) : Finishes (.clsStale p) s (clsStale p s) := done_runs h

/-- With no frame of the pipe in stages 3 to 5, none is dropped. -/
theorem clsStale_of_empty {s : State} {p : Nat} (hpipe : s.pipe p = []) (hrecq : s.recqOf (recqKey p) = [])
    (hwaiting : s.waiting = []) (hhold : s.holdOf p = []) :
    clsStale p s = ((s.setPipe p []).setHold p []).setRecq (recqKey p) [] := by
  have hrecq' : ((s.setPipe p []).setHold p []).recqOf (recqKey p) = [] := hrecq
  simp only [clsStale, hpipe, hrecq, hwaiting, hhold, List.filter_nil, List.map_nil, List.append_nil, hrecq', List.foldl_nil]

/-! ### Bits of a number -/

theorem bit_eq_testBit (v i : Nat) : bit v i = v.testBit i := by
  rw [bit, Nat.testBit_eq_decide_div_mod_eq]
  rfl

theorem bit_mod_two_pow (v : Nat) {i n : Nat} (h : i < n) : bit (v % 2 ^ n) i = bit v i := by
  rw [bit_eq_testBit, bit_eq_testBit, Nat.testBit_mod_two_pow, decide_eq_true h, Bool.true_and]

/-- A bit reads back as put. -/
theorem bit_putBit_same (v i : Nat) (b : Bool) : bit (putBit v i b) i = b := by
  simp only [putBit, bit_eq_testBit]
  split
  next hset =>
    have hsplit := Nat.testBit_two_pow_add_eq (v - 2 ^ i) i
    rw [Nat.add_sub_cancel' (Nat.ge_two_pow_of_testBit hset), hset] at hsplit
    cases b with
    | true => exact hset
    | false => exact (Bool.not_eq_true' _).mp hsplit.symm
  next hnot =>
    have hclear : v.testBit i = false := eq_false_of_ne_true hnot
    cases b with
    | true => rw [if_pos rfl, Nat.add_comm, Nat.testBit_two_pow_add_eq, hclear, Bool.not_false]
    | false => exact hclear

/-! ### EPOCH_RETIRED (R176) -/

theorem epochRetired_finishes {s : State} (h : s.Runs) (e : Fin 4) : Finishes (.epochRetired e) s (epochRetired e s) := done_runs h

/-- An epoch taken off those that were current and have yet to retire. -/
def State.forgetEpoch (s : State) (e : Nat) : State :=
  { s with cls := { s.cls with former := putBit s.cls.former e false } }

section
variable {s : State} {e : Nat}

theorem epochRetired_of_gone (hformer : bit s.cls.former e = true) (hnow : s.rd F.CLS_EPOCH_NOW 0 ≠ e) (hnone : s.inEpoch e = 0) :
    epochRetired e s = ((s.forgetEpoch e).wr F.CLS_EPOCH_STAT 0 (putBit (s.rd F.CLS_EPOCH_STAT 0) e true)).log 0x0601
      engineReq e [] := if_pos (by simp [hformer, hnow, hnone])

theorem epochRetired_of_kept (h : s.rd F.CLS_EPOCH_NOW 0 = e ∨ s.inEpoch e ≠ 0 ∨ bit s.cls.former e = false) :
    epochRetired e s = s := by
  refine if_neg ?_
  simp only [Bool.and_eq_true, bne_iff_ne, beq_iff_eq, not_and]
  rintro ⟨hformer, hnow⟩ hnone
  obtain h | h | h := h
  · exact hnow h
  · exact h hnone
  · exact Bool.false_ne_true (h.symm.trans hformer)

/-- CLS_EPOCH_STAT shows an epoch retired. -/
theorem epochRetired_stat (he : e < 4) (hformer : bit s.cls.former e = true) (hnow : s.rd F.CLS_EPOCH_NOW 0 ≠ e)
    (hnone : s.inEpoch e = 0) : bit ((epochRetired e s).rd F.CLS_EPOCH_STAT 0) e = true := by
  have hstat : (epochRetired e s).rd F.CLS_EPOCH_STAT 0 = putBit (s.rd F.CLS_EPOCH_STAT 0) e true % 2 ^ 4 := by
    rw [epochRetired_of_gone hformer hnow hnone]
    exact State.rd_wr_same _ _ _ _ ⟨by decide, by decide⟩
  rw [hstat, bit_mod_two_pow _ he, bit_putBit_same]

end

/-! ### The statement -/

/-- Settles O31: the frame that a pass or a release takes by its place and by those of its flow in front, the epoch by whether any
frame of it is left. -/
theorem parseStages : Obligations.ParseStages := by
  refine ⟨fun s p hs => ⟨?empty, ?front, ?behind, ?missing, ?waits, ?noHold, ?heldBack, ?released, clsStale_finishes hs p, ?noStale⟩,
    fun s e hs => ⟨?retired, ?kept⟩⟩
  case empty =>
    intro n hpipe
    have hfin := parsePass_finishes hs p n
    rwa [parsePass_of_none (by simp [hpipe])] at hfin
  case front =>
    intro f rest n hpipe hp
    have hfin := parsePass_finishes hs p n
    rwa [parsePass_of_front hpipe (hp.imp_right (And.imp_left (congrArg Fin.val)))] at hfin
  case behind =>
    intro n f hf hp hawake hfront
    have hfin := parsePass_finishes hs p n
    rw [← passNth_octant n hp] at hf hfront
    rwa [parsePass_of_passes hf (fun _ => hawake) hfront, passNth_octant n hp] at hfin
  case missing =>
    intro n hn hp
    have hfin := parsePass_finishes hs p n
    rwa [parsePass_of_none (by rwa [passNth_octant n hp])] at hfin
  case waits =>
    intro n f hf hp hwaits
    have hfin := parsePass_finishes hs p n
    rw [← passNth_octant n hp] at hf hwaits
    rwa [parsePass_of_waits hf (hwaits.symm.imp_left (And.intro hp))] at hfin
  case noHold =>
    intro n hn
    have hfin := patternRelease_finishes hs p n
    rwa [patternRelease_of_none (List.getElem?_eq_none hn)] at hfin
  case heldBack =>
    intro n h hn hbehind
    have hfin := patternRelease_finishes hs p n
    rwa [patternRelease_of_behind hn hbehind] at hfin
  case released =>
    intro n h hn hfirst
    have hfin := patternRelease_finishes hs p n
    rwa [patternRelease_of_first hn hfirst] at hfin
  case noStale =>
    intro hpipe hrecq hwaiting hhold
    rw [clsStale_of_empty hpipe hrecq hwaiting hhold]
    exact ⟨rfl, rfl, rfl⟩
  case retired =>
    intro hformer hnow hnone
    have heq := epochRetired_of_gone hformer hnow hnone
    refine ⟨epochRetired e s, epochRetired_finishes hs e, epochRetired_stat e.isLt hformer hnow hnone, ?_, ?_⟩
    · rw [heq]
      exact bit_putBit_same _ _ _
    · rw [heq]
      exact List.length_append
  case kept =>
    intro h
    have hfin := epochRetired_finishes hs e
    rwa [epochRetired_of_kept h] at hfin

end Sys2Proof.Machine
end

section
/-!
PROOF. The egress side of a channel (R209, R210, R228, R231, R234): which ports the scheduler serves, the gate state shown, and the
start of a pending gate list. Settles O36 and O37.
-/

namespace Sys2Proof.Machine

/-! ### SCHED_SELECT and TIMED_LAUNCH_DUE (R209, R210, R236) -/

theorem timedLaunchDue_finishes {s : State} (h : s.Runs) (q : Fin 4096) : Finishes (.timedLaunchDue q) s s := done_runs h

theorem schedSelect_finishes {s : State} (h : s.Runs) (port : Fin 65) (r : FsRead) :
    Finishes (.schedSelect port r) s (schedSelect port r s) := done_runs h

/-- The head frames of every queue of a channel that exceed every span of their gates dropped (R234). -/
def State.dropChannelOversize (s : State) (c : Nat) : State :=
  (List.range 64).foldl (fun t k => t.dropOversize (64 * c + k) (t.qCount (64 * c + k))) s

/-- The selection of a channel that the scheduler serves, if it can send. -/
def State.selectIfCan (s : State) (c : Nat) (r : FsRead) : State :=
  if s.canSend c then (if s.role c = roleHead then s.headSelect c r else s.clientSelect c r) else s

theorem State.selectIfCan_eq (s : State) (c : Nat) (r : FsRead) : s.selectIfCan c r =
    if !s.canSend c then s else if s.role c = roleHead then s.headSelect c r else s.clientSelect c r := by
  unfold State.selectIfCan
  cases s.canSend c <;> rfl

section
variable {s : State} {c : Nat} (r : FsRead)

theorem schedSelect_surok : schedSelect 64 r s = if s.paired then s.surokSelect r else s := if_pos rfl

theorem schedSelect_of_other_role (hc : c < 64) (hhead : s.role c ≠ roleHead) (hclient : s.role c ≠ roleClient) :
    schedSelect c r s = s := by
  unfold schedSelect
  rw [if_neg (Nat.ne_of_lt hc), if_pos (by simp [hhead, hclient])]

/-- A HEAD or CLIENT channel is served behind the frames dropped for their length. -/
theorem schedSelect_of_served (hc : c < 64) (hrole : s.role c = roleHead ∨ s.role c = roleClient) :
    schedSelect c r s = (s.dropChannelOversize c).selectIfCan c r := by
  have hserved : ¬(s.role c != roleHead && s.role c != roleClient) = true := by
    rw [Bool.and_eq_true, bne_iff_ne, bne_iff_ne]
    rintro ⟨hhead, hclient⟩
    exact hrole.elim hhead hclient
  exact (if_neg (Nat.ne_of_lt hc)).trans ((if_neg hserved).trans (State.selectIfCan_eq _ c r).symm)

theorem State.dropChannelOversize_of_none (h : ∀ k < 64, s.dropOversize (64 * c + k) (s.qCount (64 * c + k)) = s) :
    s.dropChannelOversize c = s :=
  List.foldlRecOn (motive := (· = s)) _ _ rfl (fun _ ht k hk => ht ▸ h k (List.mem_range.mp hk))

theorem State.selectIfCan_of_cannot (h : s.canSend c = false) : s.selectIfCan c r = s := if_neg (by simp [h])

theorem State.selectIfCan_head (h : s.canSend c = true) (hrole : s.role c = roleHead) :
    s.selectIfCan c r = s.headSelect c r := (if_pos h).trans (if_pos hrole)

theorem State.selectIfCan_client (h : s.canSend c = true) (hrole : s.role c = roleClient) :
    s.selectIfCan c r = s.clientSelect c r := by
  have hnot : s.role c ≠ roleHead := by
    rw [hrole]
    decide
  exact (if_pos h).trans (if_neg hnot)

end

/-! ### CH_GATE_STAT (R228) -/

theorem CH_GATE_STAT_OPER_ok : F.CH_GATE_STAT_OPER.ok := ⟨by decide, by decide⟩
theorem CH_GATE_STAT_PEND_ok : F.CH_GATE_STAT_PEND.ok := ⟨by decide, by decide⟩
theorem CH_GATE_STAT_STATE_ok : F.CH_GATE_STAT_STATE.ok := ⟨by decide, by decide⟩

/-- A flag reads back as written. -/
theorem State.on_wrB_same (s : State) {f : Fld} (i : Nat) (b : Bool) (h : f.ok) : (s.wrB f i b).on f i = b := by
  have hone : 1 % 2 ^ f.width = 1 := Nat.mod_eq_of_lt (Nat.one_lt_two_pow (Nat.ne_of_gt (f.width_pos h)))
  rw [State.on, State.wrB, State.rd_wr_same _ _ _ _ h]
  cases b
  · simp
  · simp [hone]

/-- A write of another field of the register leaves a flag alone. -/
theorem State.on_wr_fld (s : State) {f g : Fld} (i v : Nat) (hf : f.ok) (hg : g.ok) (ho : g.off = f.off)
    (h : f.hi < g.lo ∨ g.hi < f.lo) : (s.wr f i v).on g i = s.on g i := by
  rw [State.on, State.rd_wr_fld _ _ _ hf hg ho h, ← State.on]

theorem State.showGate_state (s : State) (c : Nat) :
    (s.showGate c).rd F.CH_GATE_STAT_STATE c = s.gateState c (s.bound100 c) % 256 :=
  State.rd_wr_same _ _ _ _ CH_GATE_STAT_STATE_ok

theorem State.showGate_pend (s : State) (c : Nat) : (s.showGate c).on F.CH_GATE_STAT_PEND c = (s.gate c).pend.isSome := by
  unfold State.showGate
  rw [State.on_wr_fld _ _ _ CH_GATE_STAT_STATE_ok CH_GATE_STAT_PEND_ok rfl (by decide), State.on_wrB_same _ _ _ CH_GATE_STAT_PEND_ok]

theorem State.showGate_oper (s : State) (c : Nat) : (s.showGate c).on F.CH_GATE_STAT_OPER c = (s.gate c).oper.isSome := by
  unfold State.showGate
  rw [State.on_wr_fld _ _ _ CH_GATE_STAT_STATE_ok CH_GATE_STAT_OPER_ok rfl (by decide), State.wrB,
    State.on_wr_fld _ _ _ CH_GATE_STAT_PEND_ok CH_GATE_STAT_OPER_ok rfl (by decide), State.on_wrB_same _ _ _ CH_GATE_STAT_OPER_ok]

theorem OnlyRegs.trans {ks : List Nat} {s t u : State} (h : OnlyRegs ks s t) (h' : OnlyRegs ks t u) : OnlyRegs ks s u := by
  obtain ⟨hframe, hkeys⟩ := h
  obtain ⟨hframe', hkeys'⟩ := h'
  refine ⟨?_, fun k hk => (hkeys' k hk).trans (hkeys k hk)⟩
  rw [hframe']
  exact congrArg (fun t : State => { t with eff := u.eff, same := u.same }) hframe

/-- Nothing but CH_GATE_STAT changes. -/
theorem State.showGate_onlyRegs (s : State) (c : Nat) : OnlyRegs [rkey c F.CH_GATE_STAT_STATE.off] s (s.showGate c) :=
  ((s.setReg_onlyRegs c F.CH_GATE_STAT_OPER.off _).trans (State.setReg_onlyRegs _ c F.CH_GATE_STAT_PEND.off _)).trans
    (State.setReg_onlyRegs _ c F.CH_GATE_STAT_STATE.off _)

theorem State.showGate_gate (s : State) (c : Nat) : (s.showGate c).gate c = s.gate c := rfl

/-! ### GATE_ENTRY_CHANGE and GATE_LIST_START (R228, R231) -/

theorem gateEntryChange_finishes {s : State} (h : s.Runs) (c : Fin 64) : Finishes (.gateEntryChange c) s (s.showGate c) :=
  done_runs h

theorem gateListStart_finishes {s : State} (h : s.Runs) (c : Fin 64) : Finishes (.gateListStart c) s (gateListStart c s) :=
  done_runs h

/-- A list in operation on a channel's gates, with none pending. -/
def State.operate (s : State) (c : Nat) (p : GateList) : State := s.setGate c { s.gate c with oper := some p, pend := none }

theorem State.gate_operate_same (s : State) (c : Nat) (p : GateList) :
    (s.operate c p).gate c = { s.gate c with oper := some p, pend := none } := tget_tput_same _ _ _ _

section
variable {s : State} {c : Nat} {p : GateList}

theorem gateListStart_of_none (h : (s.gate c).pend = none) : gateListStart c s = s := by
  simp only [gateListStart, h]

theorem gateListStart_before (h : (s.gate c).pend = some p) (hbefore : s.bound100 c < 100 * p.start) : gateListStart c s = s := by
  simp only [gateListStart, h]
  exact if_neg (Nat.not_le.mpr hbefore)

theorem gateListStart_reached (h : (s.gate c).pend = some p) (hreached : 100 * p.start ≤ s.bound100 c) :
    gateListStart c s = (s.operate c p).showGate c := by
  simp only [gateListStart, h]
  exact if_pos hreached

end

/-! ### The statements -/

/-- Settles O36: the ports by role, a HEAD or CLIENT channel behind what is dropped for its length. -/
theorem scheduling : Obligations.Scheduling := by
  intro s rd hs
  refine ⟨timedLaunchDue_finishes hs, ?otherRole, ?unpaired, ?paired, ?served, ?noneDropped⟩
  case otherRole =>
    intro p hp hhead hclient
    have hfin := schedSelect_finishes hs p rd
    rwa [schedSelect_of_other_role rd hp hhead hclient] at hfin
  case unpaired =>
    intro hpair
    have hfin := schedSelect_finishes hs 64 rd
    rwa [show ((64 : Fin 65) : Nat) = 64 from rfl, schedSelect_surok, if_neg (by simp [hpair])] at hfin
  case paired =>
    intro hpair
    have hfin := schedSelect_finishes hs 64 rd
    rwa [show ((64 : Fin 65) : Nat) = 64 from rfl, schedSelect_surok, if_pos hpair] at hfin
  case served =>
    intro p hp hrole
    have hfin := schedSelect_finishes hs p rd
    rw [schedSelect_of_served rd hp hrole] at hfin
    exact ⟨s.dropChannelOversize p, rfl, hfin⟩
  case noneDropped =>
    intro p hp hrole hnone
    have hfin := schedSelect_finishes hs p rd
    rw [schedSelect_of_served rd hp hrole, State.dropChannelOversize_of_none hnone] at hfin
    refine ⟨fun hcannot => ?_, fun hcan hhead => ?_, fun hcan hclient => ?_⟩
    · rwa [State.selectIfCan_of_cannot rd hcannot] at hfin
    · rwa [State.selectIfCan_head rd hcan hhead] at hfin
    · rwa [State.selectIfCan_client rd hcan hclient] at hfin

/-- Settles O37: CH_GATE_STAT by its fields, and the pending list by whether its start is reached. -/
theorem gates : Obligations.Gates := by
  intro s c hs
  have hfin := gateListStart_finishes hs c
  refine ⟨⟨_, gateEntryChange_finishes hs c, s.showGate_onlyRegs c, s.showGate_state c, s.showGate_pend c⟩,
    fun hnone => ?_, fun p hpend hbefore => ?_, fun p hpend hreached => ?_⟩
  · rwa [gateListStart_of_none hnone] at hfin
  · rwa [gateListStart_before hpend hbefore] at hfin
  · rw [gateListStart_reached hpend hreached] at hfin
    refine ⟨_, hfin, ?_, ?_, ?_, ?_⟩
    · rw [State.showGate_gate, State.gate_operate_same]
    · rw [State.showGate_gate, State.gate_operate_same]
    · rw [State.showGate_pend, State.gate_operate_same]
      rfl
    · rw [State.showGate_oper, State.gate_operate_same]
      rfl

end Sys2Proof.Machine
end

section
/-!
PROOF. The pegs (R240, R241, R244, R246, R248): captures, sets and steps and how they are applied, firmware samples, holdover and
the temperature of the stamps. Settles O38, O39 and O40.
-/

namespace Sys2Proof.Machine

/-! ### What a write of another register leaves alone -/

/-- Registers at different offsets are different ones, whatever their instances. -/
theorem rkey_ne_of_off {i j o p : Nat} (ho : o < 0x100000) (hp : p < 0x100000) (h : o ≠ p) : rkey i o ≠ rkey j p :=
  fun he => h ((rkey_inj ho hp).mp he).2

/-- A write of another register in the same place of its bank leaves a field alone. -/
theorem State.rd_wr_off (s : State) {f g : Fld} (i v : Nat) (h : g.off ≠ f.off) : (s.wr f i v).rd g i = s.rd g i :=
  s.rd_wr_reg v (fun he => h (Nat.add_left_cancel he))

/-- A counter counts up to the largest value of its field. -/
theorem State.rd_inc_same (s : State) {f : Fld} (i : Nat) (h : f.ok) :
    (s.inc f i).rd f i = min (s.rd f i + 1) (2 ^ f.width - 1) := by
  have hpos := Nat.two_pow_pos f.width
  rw [State.inc, State.addN, State.rd_wr_same _ _ _ _ h]
  exact Nat.mod_eq_of_lt (by omega)

theorem State.wr_onlyRegs (s : State) {ks : List Nat} {f : Fld} {i : Nat} (v : Nat) (h : rkey i f.off ∈ ks) :
    OnlyRegs ks s (s.wr f i v) :=
  ⟨rfl, fun _ hk => tget_tput_ne _ _ _ (fun he => hk (he ▸ h))⟩

/-! ### What an event raised keeps (R319, R320) -/

section
variable {β : Type} (q : State → β)
  (hwr : ∀ (s : State) (f : Fld) (i v : Nat), 0x90000 ≤ f.off → f.off < 0x100000 → q (s.wr f i v) = q s)
  (htds : ∀ (s : State) (x : Tds), q { s with tds := x } = q s)
include hwr htds

/-- An event that acts on a task touches the dispatcher and its registers alone. -/
theorem State.eventTask_keeps (s : State) (t : Nat) : q (s.eventTask t) = q s := by
  unfold State.eventTask
  extract_lets counted st
  have hcounted : q counted = q s := by
    simp only [counted]
    split
    · exact hwr _ _ _ _ (by decide) (by decide)
    · exact hwr _ _ _ _ (by decide) (by decide)
  split
  · exact (htds counted _).trans hcounted
  · exact hcounted

theorem State.raise_keeps (s : State) (cls idx : Nat) : q (s.raise cls idx) = q s := by
  unfold State.raise
  split
  · exact hwr _ _ _ _ (by decide) (by decide)
  · exact foldl_keeps q (State.eventTask_keeps q hwr htds) _ _

end

@[simp] theorem State.raise_pegs (s : State) (cls idx : Nat) : (s.raise cls idx).pegs = s.pegs :=
  State.raise_keeps State.pegs (fun _ _ _ _ _ _ => rfl) (fun _ _ => rfl) s cls idx

@[simp] theorem State.raise_flt (s : State) (cls idx : Nat) : (s.raise cls idx).flt = s.flt :=
  State.raise_keeps State.flt (fun _ _ _ _ _ _ => rfl) (fun _ _ => rfl) s cls idx

/-- An event raised leaves every register below those of the service cores alone. -/
theorem State.raise_reg (s : State) (cls idx i : Nat) {off : Nat} (h : off < 0x90000) :
    (s.raise cls idx).reg i off = s.reg i off :=
  State.raise_keeps (fun s => s.reg i off)
    (fun s f j v hlo hhi => s.reg_setReg_ne _ (rkey_ne_of_off (by omega) hhi (by omega))) (fun _ _ => rfl) s cls idx

theorem State.raise_rd (s : State) (cls idx i : Nat) {f : Fld} (h : f.off < 0x90000) : (s.raise cls idx).rd f i = s.rd f i := by
  rw [State.rd, State.raise_reg _ _ _ _ h, ← State.rd]

/-! ### CAPTURE (R241) -/

theorem capture_finishes {s : State} {req : Fin 19} (h : s.Takes req) : Finishes (.capture req) s (s.capture req) := doneWrite_takes h

theorem pegNs_lt (t : Nat) : pegNs t < 10 ^ 9 := Nat.div_lt_of_lt_mul (Nat.mod_lt _ (by decide))

/-- A time written into the four registers of a capture from an offset on: seconds in two words, nanoseconds and fraction (R237). -/
def State.putTime (s : State) (req base t : Nat) : State :=
  (((s.wr ⟨base, 31, 0⟩ req (pegSec t)).wr ⟨base + 4, 15, 0⟩ req (pegSec t / 2 ^ 32)).wr ⟨base + 8, 29, 0⟩ req (pegNs t)).wr
    ⟨base + 12, 15, 0⟩ req (pegFrac t)

/-- The selected peg's time goes into PEG_CAP, peg 0's into PEG_CAP0. -/
theorem State.capture_eq (s : State) (req : Nat) : s.capture req =
    (s.putTime req F.PEG_CAP_SL.off (s.pegTime (s.rd F.PEGSEL req))).putTime req F.PEG_CAP0_SL.off (s.pegTime 0) := rfl

section
variable (s : State) (req base t : Nat)

/-- The low word of the seconds reads back behind the writes after it. -/
theorem State.putTime_sec : (s.putTime req base t).rd ⟨base, 31, 0⟩ req = pegSec t % 2 ^ 32 := by
  simp (disch := simp) only [State.putTime, State.rd_wr_off]
  exact s.rd_wr_same _ _ _ ⟨by simp, by simp⟩

/-- The nanoseconds fit the 30 bits of their field. -/
theorem State.putTime_ns : (s.putTime req base t).rd ⟨base + 8, 29, 0⟩ req = pegNs t := by
  rw [State.putTime, State.rd_wr_off _ _ _ (by simp), State.rd_wr_same _ _ _ _ ⟨by simp, by simp⟩]
  exact Nat.mod_eq_of_lt (Nat.lt_trans (pegNs_lt t) (show 10 ^ 9 < 2 ^ 30 by decide))

theorem State.putTime_rd {f : Fld} (h : f.off + 4 ≤ base) : (s.putTime req base t).rd f req = s.rd f req := by
  simp (disch := dsimp only; omega) only [State.putTime, State.rd_wr_off]

@[simp] theorem State.putTime_pegs : (s.putTime req base t).pegs = s.pegs := rfl

theorem State.putTime_onlyRegs {ks : List Nat} (h : ∀ k < 4, rkey req (base + 4 * k) ∈ ks) : OnlyRegs ks s (s.putTime req base t) :=
  (((s.wr_onlyRegs _ (h 0 (by decide))).trans (State.wr_onlyRegs _ _ (h 1 (by decide)))).trans
    (State.wr_onlyRegs _ _ (h 2 (by decide)))).trans (State.wr_onlyRegs _ _ (h 3 (by decide)))

end

/-- The eight capture registers of the requester lie one behind the other. -/
theorem State.capture_onlyRegs (s : State) (req : Nat) :
    OnlyRegs ((List.range 8).map (fun k => rkey req (0x30104 + 4 * k))) s (s.capture req) := by
  have hkey (k : Nat) (hk : k < 8) : rkey req (0x30104 + 4 * k) ∈ (List.range 8).map (fun k => rkey req (0x30104 + 4 * k)) :=
    List.mem_map_of_mem (List.mem_range.mpr hk)
  have hkey' (k : Nat) (hk : k < 4) : rkey req (0x30114 + 4 * k) ∈ (List.range 8).map (fun k => rkey req (0x30104 + 4 * k)) := by
    have hlater := hkey (k + 4) (by omega)
    rwa [show 0x30104 + 4 * (k + 4) = 0x30114 + 4 * k by omega] at hlater
  rw [State.capture_eq]
  exact (s.putTime_onlyRegs req _ _ (fun k hk => hkey k (by omega))).trans (State.putTime_onlyRegs _ req _ _ hkey')

/-! ### SET and STEP (R240) -/

theorem set_finishes {s : State} {req : Fin 19} (h : s.Takes req) :
    Finishes (.set req) s (s.requestPeg (s.rd F.PEGSEL req) (.set (s.pegSetTime req))) := doneWrite_takes h

theorem step_finishes {s : State} {req : Fin 19} (h : s.Takes req) :
    Finishes (.step req) s (s.requestPeg (s.rd F.PEGSEL req) (.step (s.pegSetStep req))) := doneWrite_takes h

theorem State.servoOf_modServo_same (s : State) (p : Nat) (f : Servo → Servo) : (s.modServo p f).servoOf p = f (s.servoOf p) :=
  tget_tput_same _ _ _ _

theorem PEG_SRV_STEPS_ok : F.PEG_SRV_STEPS.ok := ⟨by decide, by decide⟩

section
variable (s : State) (p : Nat) (r : PegReq)

theorem State.requestPeg_req : ((s.requestPeg p r).servoOf p).req = some r := congrArg Servo.req (State.servoOf_modServo_same _ _ _)

/-- A request waits for the boundary: no peg moves at once. -/
theorem State.requestPeg_time : (s.requestPeg p r).pegs.time = s.pegs.time := by
  unfold State.requestPeg
  dsimp only
  split <;> rfl

/-- A request that replaces one is counted. -/
theorem State.requestPeg_steps : (s.requestPeg p r).rd F.PEG_SRV_STEPS p = if (s.servoOf p).req.isSome
    then min (s.rd F.PEG_SRV_STEPS p + 1) (2 ^ F.PEG_SRV_STEPS.width - 1) else s.rd F.PEG_SRV_STEPS p := by
  unfold State.requestPeg
  dsimp only
  split
  · exact s.rd_inc_same p PEG_SRV_STEPS_ok
  · rfl

end

/-! ### PEG_SRV_FWOFS_HI_WRITE (R244) -/

@[simp] theorem State.noteWrite_pegs (s : State) (req key mask : Nat) : (s.noteWrite req key mask).pegs = s.pegs := rfl

/-- The fold of a write leaves the pegs alone. -/
@[simp] theorem State.foldWrite_pegs (s : State) (req k : Nat) : (s.foldWrite req k).pegs = s.pegs := by
  unfold State.foldWrite
  split
  · rfl
  · rw [State.foldValue_frame]

/-- The source of a servo is a matter of its PEG_SRV_CFG and PEG_SRV_STAT. -/
theorem State.source_congr {s t : State} {p : Nat}
    (h : ∀ f : Fld, f.off = F.PEG_SRV_CFG.off ∨ f.off = F.PEG_SRV_STAT.off → t.rd f p = s.rd f p) : t.source p = s.source p := by
  rw [State.source, State.on, State.on, h F.PEG_SRV_CFG_SOURCE (.inl rfl), h F.PEG_SRV_CFG_EN (.inl rfl),
    h F.PEG_SRV_STAT_SRC_ERR (.inr rfl)]
  rfl

theorem State.fwSample_eff (s : State) (p : Nat) : (s.fwSample p).eff = s.eff := by
  unfold State.fwSample
  split <;> rfl

theorem State.fwSample_taken {s : State} {p : Nat} (h : s.source p = srcFw) : ((s.fwSample p).servoOf p).sample ≠ none := by
  rw [State.fwSample, if_pos h, State.giveSample, State.servoOf_modServo_same]
  exact Option.some_ne_none _

theorem State.fwSample_ignored {s : State} {p : Nat} (h : s.source p ≠ srcFw) : s.fwSample p = s := if_neg h

/-- PEG_SRV_FWOFS_HI of a peg written in an access of its own. -/
def State.putFwofs (s : State) (req p : Nat) (w : Word) : State := (s.newAccess req).setReg p F.PEG_SRV_FWOFS_HI.off w

/-- That write with the sample that it gives, folded and noted for its device cycle. -/
def State.fwofsWritten (s : State) (req p : Nat) (w : Word) : State :=
  (((s.putFwofs req p w).fwSample p).foldWrite req (rkey p F.PEG_SRV_FWOFS_HI.off)).noteWrite req (rkey p F.PEG_SRV_FWOFS_HI.off)
    0xFFFFFFFF

/-- A write that no higher requester overrules is carried out and noted. -/
theorem pegSrvFwofsHiWrite_finishes {s : State} {req : Fin 19} (h : s.Takes req) (halone : s.Alone req) (w : Word) :
    Finishes (.pegSrvFwofsHiWrite req w) s (s.fwofsWritten req (s.rd F.PEGSEL req) w) := by
  have hfin : Finishes (.pegSrvFwofsHiWrite req w) s _ := doneWrite_takes h
  rwa [State.ordered_alone halone] at hfin

section
variable (s : State) (req p : Nat) (w : Word)

theorem State.putFwofs_source : (s.putFwofs req p w).source p = s.source p := by
  refine State.source_congr (fun f hf => ?_)
  have hne : f.off ≠ F.PEG_SRV_FWOFS_HI.off := by
    rcases hf with hf | hf <;> rw [hf] <;> decide
  rw [State.rd, State.putFwofs, State.reg_setReg_ne _ _ (fun he => hne (Nat.add_left_cancel he))]
  rfl

theorem State.fwofsWritten_eff : (s.fwofsWritten req p w).eff = (s.putFwofs req p w).eff := by
  rw [State.fwofsWritten, State.noteWrite_eff, State.foldWrite_eff, State.fwSample_eff]

theorem State.fwofsWritten_pegs : (s.fwofsWritten req p w).pegs = ((s.putFwofs req p w).fwSample p).pegs := by
  rw [State.fwofsWritten, State.noteWrite_pegs, State.foldWrite_pegs]

theorem State.fwofsWritten_reg : (s.fwofsWritten req p w).reg p F.PEG_SRV_FWOFS_HI.off = w := by
  rw [State.reg, State.fwofsWritten_eff]
  exact State.reg_setReg_same _ _ _ _

theorem State.fwofsWritten_taken (h : s.source p = srcFw) : ((s.fwofsWritten req p w).servoOf p).sample ≠ none := by
  rw [State.servoOf, State.fwofsWritten_pegs, ← State.servoOf]
  exact State.fwSample_taken ((s.putFwofs_source req p w).trans h)

theorem State.fwofsWritten_ignored (h : s.source p ≠ srcFw) : (s.fwofsWritten req p w).pegs = s.pegs := by
  rw [State.fwofsWritten_pegs, State.fwSample_ignored (fun he => h ((s.putFwofs_source req p w).symm.trans he))]
  rfl

end

/-! ### Where a servo moves to (R246) -/

/-- A 1PPS output released touches the outputs alone. -/
theorem State.holdPps_keeps {β : Type} (q : State → β) (h : ∀ s o b, q (State.ppsDrive s o b) = q s) (s : State) :
    q s.holdPps = q s := by
  refine foldl_keeps q (fun s o => ?_) _ s
  split
  · exact h s o false
  · rfl

/-- What the log and the tasks that wait for events are no part of, a servo has as soon as its new state is shown. -/
theorem State.servoState_shown {β : Type} (q : State → β) (hlog : ∀ s code req i d, q (State.log s code req i d) = q s)
    (hraise : ∀ s cls i, q (State.raise s cls i) = q s) (s : State) (p st : Nat) :
    q (s.servoState p st) = q ((s.wr F.PEG_SRV_STAT_STATE p st).showTmv p) := by
  unfold State.servoState
  dsimp only
  split
  · rfl
  · exact (hraise _ _ _).trans (hlog _ _ _ _ _)

/-- A servo that moves to a state touches PEG_SRV_STAT, the 1PPS outputs, the log and the tasks that wait for the event. -/
theorem State.servoState_keeps {β : Type} (q : State → β) (p : Nat)
    (hwr : ∀ (s : State) (f : Fld) (v : Nat), f.off = F.PEG_SRV_STAT.off → q (s.wr f p v) = q s)
    (hdrive : ∀ s o b, q (State.ppsDrive s o b) = q s) (hlog : ∀ s code req i d, q (State.log s code req i d) = q s)
    (hraise : ∀ s cls i, q (State.raise s cls i) = q s) (s : State) (st : Nat) : q (s.servoState p st) = q s :=
  calc q (s.servoState p st)
    _ = q ((s.wr F.PEG_SRV_STAT_STATE p st).showTmv p) := State.servoState_shown q hlog hraise s p st
    _ = q (s.wr F.PEG_SRV_STAT_STATE p st) := (State.holdPps_keeps q hdrive _).trans (hwr _ F.PEG_SRV_STAT_TMV _ rfl)
    _ = q s := hwr s F.PEG_SRV_STAT_STATE st rfl

@[simp] theorem State.servoState_time (s : State) (p st : Nat) : (s.servoState p st).pegs.time = s.pegs.time :=
  State.servoState_keeps (fun s => s.pegs.time) p (fun _ _ _ _ => rfl) (fun _ _ _ => rfl) (fun _ _ _ _ _ => rfl)
    (fun s c i => congrArg Pegs.time (s.raise_pegs c i)) s st

@[simp] theorem State.servoState_servo (s : State) (p st : Nat) : (s.servoState p st).pegs.servo = s.pegs.servo :=
  State.servoState_keeps (fun s => s.pegs.servo) p (fun _ _ _ _ => rfl) (fun _ _ _ => rfl) (fun _ _ _ _ _ => rfl)
    (fun s c i => congrArg Pegs.servo (s.raise_pegs c i)) s st

theorem State.servoState_rd (s : State) (p st : Nat) {f : Fld} (hf : f.off < 0x90000) (hne : f.off ≠ F.PEG_SRV_STAT.off) :
    (s.servoState p st).rd f p = s.rd f p :=
  State.servoState_keeps (fun s => s.rd f p) p (fun s _ v hg => s.rd_wr_off p v (hg ▸ hne)) (fun _ _ _ => rfl)
    (fun _ _ _ _ _ => rfl) (fun s c i => s.raise_rd c i p hf) s st

theorem PEG_SRV_STAT_STATE_ok : F.PEG_SRV_STAT_STATE.ok := ⟨by decide, by decide⟩
theorem PEG_SRV_STAT_TMV_ok : F.PEG_SRV_STAT_TMV.ok := ⟨by decide, by decide⟩

/-- PEG_SRV_STAT shows the state that a servo has moved to: neither TMV beside it nor the event changes it. -/
theorem State.servoState_state (s : State) (p : Nat) {st : Nat} (h : st < 4) :
    (s.servoState p st).rd F.PEG_SRV_STAT_STATE p = st := by
  rw [State.servoState_shown (fun s => s.rd F.PEG_SRV_STAT_STATE p) (fun _ _ _ _ _ => rfl)
    (fun s c i => s.raise_rd c i p (by decide)), State.showTmv,
    State.holdPps_keeps (fun s => s.rd F.PEG_SRV_STAT_STATE p) (fun _ _ _ => rfl), State.wrB,
    State.rd_wr_fld _ _ _ PEG_SRV_STAT_TMV_ok PEG_SRV_STAT_STATE_ok rfl (by decide), State.rd_wr_same _ _ _ _ PEG_SRV_STAT_STATE_ok]
  exact Nat.mod_eq_of_lt h

/-! ### Steps applied (R240, R252) -/

/-- The last 16 steps of peg 0 are kept for residence times (R252). -/
def State.keepStep (s : State) (p : Nat) (d : Int) : State :=
  if p = 0 then { s with pegs := { s.pegs with steps := ((s.pegs.cyc, to16 d) :: s.pegs.steps).take 16 } } else s

/-- A peg moved by a step, with its entry and its count, before its servo follows. -/
def State.movePeg (s : State) (p : Nat) (d : Int) : State :=
  ((((s.setPegTime p (((s.pegTime p : Int) + d) % (pegWrap : Int)).toNat).log 0x0301 engineReq p (bytesLE 8 (codeInt 64 (to16 d)))).inc
    F.PEG_SRV_STEPS p).modServo p (fun x => { x with req := none, stepped := true, lockRun := 0 })).keepStep p d

theorem State.applyStep_of_size {s : State} {p : Nat} {d : Int} (h : s.stepSize p = some d) :
    s.applyStep p = if (s.movePeg p d).source p = 0 then s.movePeg p d else (s.movePeg p d).servoState p svAcquire := by
  rw [State.applyStep, h]
  rfl

/-- The servo that follows a step changes nothing that it does not touch itself. -/
theorem State.applyStep_keeps {β : Type} (q : State → β) {s : State} {p : Nat} {d : Int} (h : s.stepSize p = some d)
    (hq : ∀ s, q (State.servoState s p svAcquire) = q s) : q (s.applyStep p) = q (s.movePeg p d) := by
  rw [State.applyStep_of_size h]
  split
  · rfl
  · exact hq _

section
variable (s : State) (p : Nat) (d : Int)

theorem State.keepStep_time : (s.keepStep p d).pegs.time = s.pegs.time := by
  unfold State.keepStep
  split <;> rfl

theorem State.keepStep_servo : (s.keepStep p d).pegs.servo = s.pegs.servo := by
  unfold State.keepStep
  split <;> rfl

theorem State.keepStep_eff : (s.keepStep p d).eff = s.eff := by
  unfold State.keepStep
  split <;> rfl

theorem State.movePeg_pegTime (q : Nat) : (s.movePeg p d).pegTime q =
    if q = p then (((s.pegTime p : Int) + d) % (pegWrap : Int)).toNat else s.pegTime q := by
  rw [State.pegTime, State.movePeg, State.keepStep_time]
  exact tget_tput _ _ _ _ _

theorem State.movePeg_req : ((s.movePeg p d).servoOf p).req = none := by
  rw [State.servoOf, State.movePeg, State.keepStep_servo]
  exact congrArg Servo.req (State.servoOf_modServo_same _ _ _)

theorem State.movePeg_steps :
    (s.movePeg p d).rd F.PEG_SRV_STEPS p = min (s.rd F.PEG_SRV_STEPS p + 1) (2 ^ F.PEG_SRV_STEPS.width - 1) := by
  rw [State.rd, State.reg, State.movePeg, State.keepStep_eff]
  exact State.rd_inc_same _ p PEG_SRV_STEPS_ok

end

/-! ### HOLDOVER_TIMEOUT and STAMP_TEMP_READ (R246, R248) -/

theorem holdoverTimeout_finishes {s : State} (h : s.Runs) (p : Fin 16) : Finishes (.holdoverTimeout p) s (holdoverTimeout p s) :=
  done_runs h

theorem stampTempRead_finishes {s : State} (h : s.Runs) (o : Fin 8) (t : Int) : Finishes (.stampTempRead o t) s
    { s with pegs := { s.pegs with temp := tput (fun _ => 85) s.pegs.temp o t } } := done_runs h

section
variable {s : State} {p : Nat}

/-- A servo whose samples have stopped holds −integ from the next boundary on. -/
theorem holdoverTimeout_of_late (hsrc : s.source p ≠ 0)
    (hstate : s.rd F.PEG_SRV_STAT_STATE p = svAcquire ∨ s.rd F.PEG_SRV_STAT_STATE p = svLocked)
    (hage : s.rd F.PEG_SRV_TMO p ≤ (s.servoOf p).age) :
    holdoverTimeout p s =
      (s.setServo p { s.servoOf p with next := some (ratOfPpb (-(s.servoOf p).integ)) }).servoState p svHoldover :=
  if_pos (by simp [hsrc, hstate, hage])

theorem holdoverTimeout_ignored (h : s.source p = 0 ∨
    (s.rd F.PEG_SRV_STAT_STATE p ≠ svAcquire ∧ s.rd F.PEG_SRV_STAT_STATE p ≠ svLocked) ∨
    (s.servoOf p).age < s.rd F.PEG_SRV_TMO p) : holdoverTimeout p s = s := by
  refine if_neg ?_
  rcases h with hsrc | ⟨hacquire, hlocked⟩ | hage
  · simp [hsrc]
  · simp [hacquire, hlocked]
  · simp [hage]

end

/-! ### The statements -/

/-- Settles O38: two times put into the requester's own registers, the second behind the first. -/
theorem pegCapture : Obligations.PegCapture := by
  intro s req htakes
  have hframe := s.capture_onlyRegs req
  have hfin := capture_finishes htakes
  rw [State.capture_eq] at hfin hframe
  refine ⟨_, hfin, ?_, State.putTime_ns _ _ _ _, ?_, State.putTime_sec _ _ _ _, ?_, hframe⟩
  · rw [State.putTime_rd _ _ _ _ (by decide)]
    exact s.putTime_ns _ _ _
  · rw [State.putTime_rd _ _ _ _ (by decide)]
    exact s.putTime_sec _ _ _
  · rw [State.putTime_pegs, State.putTime_pegs]

/-- Settles O39: a request by the servo that it waits in, and a step by the peg that it moves; what the servo does behind a step
touches neither. -/
theorem pegRequests : Obligations.PegRequests := by
  refine ⟨fun s req htakes => ⟨?set, ?step, ?firmware⟩, fun s p d hsize => ⟨?moved, ?done, ?others, ?counted⟩⟩
  case set => exact ⟨_, set_finishes htakes, State.requestPeg_req _ _ _, State.requestPeg_time _ _ _⟩
  case step =>
    exact ⟨_, step_finishes htakes, State.requestPeg_req _ _ _, State.requestPeg_time _ _ _, State.requestPeg_steps _ _ _⟩
  case firmware =>
    intro w halone
    exact ⟨_, pegSrvFwofsHiWrite_finishes htakes halone w, s.fwofsWritten_reg _ _ w, s.fwofsWritten_taken _ _ w,
      s.fwofsWritten_ignored _ _ w⟩
  case moved =>
    rw [State.applyStep_keeps (fun s => s.pegTime p) hsize (fun s => by rw [State.pegTime, s.servoState_time, ← State.pegTime]),
      State.movePeg_pegTime, if_pos rfl]
  case done =>
    rw [State.applyStep_keeps (fun s => s.servoOf p) hsize (fun s => by rw [State.servoOf, s.servoState_servo, ← State.servoOf]),
      State.movePeg_req]
  case others =>
    intro q hq
    rw [State.applyStep_keeps (fun s => s.pegTime q) hsize (fun s => by rw [State.pegTime, s.servoState_time, ← State.pegTime]),
      State.movePeg_pegTime, if_neg hq]
  case counted =>
    rw [State.applyStep_keeps (fun s => s.rd F.PEG_SRV_STEPS p) hsize (fun s => s.servoState_rd p _ (by decide) (by decide)),
      State.movePeg_steps]

/-- Settles O40: HOLDOVER_TIMEOUT by whether the servo waits for a sample, and a temperature as one entry of a table. -/
theorem holdoverAndTemperature : Obligations.HoldoverAndTemperature := by
  intro s hs
  refine ⟨fun p hsrc hstate hage => ?late, fun p h => ?ignored, fun o t => ?temperature⟩
  case late =>
    have hfin := holdoverTimeout_finishes hs p
    rw [holdoverTimeout_of_late hsrc hstate hage] at hfin
    refine ⟨_, hfin, State.servoState_state _ _ (by decide), ?_, State.servoState_time _ _ _⟩
    rw [State.servoOf, State.servoState_servo]
    exact congrArg Servo.next (tget_tput_same _ _ _ _)
  case ignored =>
    have hfin := holdoverTimeout_finishes hs p
    rwa [holdoverTimeout_ignored h] at hfin
  case temperature =>
    exact ⟨_, stampTempRead_finishes hs o t, tget_tput_same _ _ _ _, rfl, fun j hj => tget_tput_ne _ _ _ hj⟩

end Sys2Proof.Machine
end

section
/-!
PROOF. The 1PPS inputs and outputs (R257, R258): an edge that acts is shown and kept, as an extra one or as one given to the servo;
an input that is lost; and when an output is driven. Settles O41.
-/

namespace Sys2Proof.Machine

/-! ### The record of an input and of an output -/

@[simp] theorem State.ppsIn_setPpsIn_same (s : State) (i : Nat) (x : PpsIn) : (s.setPpsIn i x).ppsIn i = x := tget_tput_same _ _ _ _

@[simp] theorem State.ppsOut_setPpsOut_same (s : State) (o : Nat) (x : PpsOut) : (s.setPpsOut o x).ppsOut o = x :=
  tget_tput_same _ _ _ _

/-- The edge that acts is taken off the edges that wait (R419). -/
theorem State.edgeTaken_acts {s : State} {i : Nat} (h : s.edgeWaits i = true) :
    ((s.edgeTaken i).inputOf i).acts + 1 = (s.inputOf i).acts := by
  have hacts : (s.inputOf i).acts ≠ 0 := bne_iff_ne.mp h
  rw [State.edgeTaken, State.inputOf, State.setInput, tget_tput_same]
  exact Nat.sub_add_cancel (Nat.pos_of_ne_zero hacts)

@[simp] theorem State.edgeTaken_pegs (s : State) (i : Nat) : (s.edgeTaken i).pegs = s.pegs := rfl
@[simp] theorem State.rd_setPpsIn (s : State) (i j : Nat) (x : PpsIn) (f : Fld) : (s.setPpsIn i x).rd f j = s.rd f j := rfl
@[simp] theorem State.servo_setPpsIn (s : State) (i : Nat) (x : PpsIn) : (s.setPpsIn i x).pegs.servo = s.pegs.servo := rfl
@[simp] theorem State.ppsIn_inc (s : State) (f : Fld) (i j : Nat) : (s.inc f i).ppsIn j = s.ppsIn j := rfl

/-! ### PPS_EDGE (R257) -/

theorem ppsEdge_finishes {s : State} (h : s.Runs) (i : Fin 2) (back : Nat) : Finishes (.ppsEdge i back) s (ppsEdge i back s) :=
  done_runs h

theorem PEG_PPSIN_STAT_ok (i : Nat) : (F.PEG_PPSIN_STAT i).ok := ⟨Nat.le_refl 31, Nat.lt_succ_self 31⟩
theorem PEG_PPSIN_EXTRA_ok (i : Nat) : (F.PEG_PPSIN_EXTRA i).ok := ⟨Nat.zero_le 31, Nat.lt_succ_self 31⟩

section
variable (s : State) (i : Nat)

/-- The time of an edge in the peg of its input, less DLY, in 1/16 ns. -/
def State.edgeStamp (back : Nat) : Int :=
  ((s.pegTime (s.rd (F.PEG_PPSIN_CFG_PEG i) 0) / unit16 : Nat) : Int) - back - 16 * s.rdInt (F.PEG_PPSIN_DLY i) 0

/-- An edge taken and presented in PEG_PPSIN_EDGE. -/
def State.edgePresented (e : Int) : State :=
  (((s.edgeTaken (16 + i)).wr (F.PEG_PPSIN_EDGE_SL i) 0 (e.toNat / 16 / 10 ^ 9)).wr (F.PEG_PPSIN_EDGE_SH i) 0
    (e.toNat / 16 / 10 ^ 9 / 2 ^ 32)).wr (F.PEG_PPSIN_EDGE_NS i) 0 (e.toNat / 16 % 10 ^ 9)

/-- With it the input is not lost any more. -/
def State.edgeShown (e : Int) : State := (s.edgePresented i e).wr (F.PEG_PPSIN_STAT i) 0 0

/-- The accepted edges of the last second with the one that acts now (R259). -/
def State.edgesWith (e : Int) : List (Nat × Nat) :=
  (s.pegs.cyc, e.toNat) :: (s.ppsIn i).edges.filter (fun y => decide (s.pegs.cyc < y.1 + 2 * 10 ^ 9))

/-- An edge follows the last one given to the servo within 0.9 s, on an input that was not lost since. -/
def State.edgeSoon : Bool := (s.ppsIn i).given.any (fun g => !s.on (F.PEG_PPSIN_STAT i) 0 && decide (s.pegs.cyc - g < cycles900ms))

/-- An edge that comes too soon is counted. -/
def State.edgeExtra (e : Int) : State :=
  ((s.edgeShown i e).setPpsIn i { s.ppsIn i with last := s.pegs.cyc, edges := s.edgesWith i e }).inc (F.PEG_PPSIN_EXTRA i) 0

/-- Another edge is kept as the last one given. -/
def State.edgeKept (e : Int) : State :=
  (s.edgeShown i e).setPpsIn i { last := s.pegs.cyc, given := some s.pegs.cyc, edges := s.edgesWith i e }

/-- A peg's servo whose source is an input takes the offset of its edge from the nearest whole second (R244). -/
def State.ppsSample (p : Nat) (e : Int) : State :=
  if s.source p = srcPps && s.rd F.PEG_SRV_CFG_SRC_IDX p = i then s.giveSample p (fromSecond e) else s

theorem State.edgePresented_lost (e : Int) :
    (s.edgePresented i e).on (F.PEG_PPSIN_STAT i) 0 = s.on (F.PEG_PPSIN_STAT i) 0 := by
  rw [State.on, State.edgePresented, State.rd_wr_off _ _ _ (by simp [F.PEG_PPSIN_STAT, F.PEG_PPSIN_EDGE_NS]),
    State.rd_wr_off _ _ _ (by simp [F.PEG_PPSIN_STAT, F.PEG_PPSIN_EDGE_SH]),
    State.rd_wr_off _ _ _ (by simp [F.PEG_PPSIN_STAT, F.PEG_PPSIN_EDGE_SL])]
  rfl

theorem State.edgeShown_pegs (e : Int) : (s.edgeShown i e).pegs = s.pegs := by
  simp only [State.edgeShown, State.edgePresented, State.wr_pegs, State.edgeTaken_pegs]

theorem State.edgeShown_inputOf (e : Int) (j : Nat) : (s.edgeShown i e).inputOf j = (s.edgeTaken (16 + i)).inputOf j := by
  simp only [State.inputOf, State.edgeShown, State.edgePresented, State.wr_flt]

theorem State.edgeShown_stat (e : Int) : (s.edgeShown i e).rd (F.PEG_PPSIN_STAT i) 0 = 0 := by
  rw [State.edgeShown, State.rd_wr_same _ _ _ _ (PEG_PPSIN_STAT_ok i), Nat.zero_mod]

theorem State.edgeShown_extra (e : Int) :
    (s.edgeShown i e).rd (F.PEG_PPSIN_EXTRA i) 0 = s.rd (F.PEG_PPSIN_EXTRA i) 0 := by
  rw [State.edgeShown, State.edgePresented, State.rd_wr_off _ _ _ (by simp [F.PEG_PPSIN_EXTRA, F.PEG_PPSIN_STAT]),
    State.rd_wr_off _ _ _ (by simp [F.PEG_PPSIN_EXTRA, F.PEG_PPSIN_EDGE_NS]),
    State.rd_wr_off _ _ _ (by simp [F.PEG_PPSIN_EXTRA, F.PEG_PPSIN_EDGE_SH]),
    State.rd_wr_off _ _ _ (by simp [F.PEG_PPSIN_EXTRA, F.PEG_PPSIN_EDGE_SL])]
  rfl

theorem State.edgeExtra_ppsIn (e : Int) :
    (s.edgeExtra i e).ppsIn i = { s.ppsIn i with last := s.pegs.cyc, edges := s.edgesWith i e } := by
  rw [State.edgeExtra, State.ppsIn_inc, State.ppsIn_setPpsIn_same]

theorem State.edgeExtra_servo (e : Int) : (s.edgeExtra i e).pegs.servo = s.pegs.servo := by
  rw [State.edgeExtra, State.inc_pegs, State.servo_setPpsIn, State.edgeShown_pegs]

theorem State.edgeExtra_count (e : Int) :
    (s.edgeExtra i e).rd (F.PEG_PPSIN_EXTRA i) 0 = min (s.rd (F.PEG_PPSIN_EXTRA i) 0 + 1) (2 ^ 32 - 1) := by
  rw [State.edgeExtra, State.rd_inc_same _ 0 (PEG_PPSIN_EXTRA_ok i), State.rd_setPpsIn, State.edgeShown_extra]
  rfl

theorem State.edgeKept_ppsIn (e : Int) :
    (s.edgeKept i e).ppsIn i = { last := s.pegs.cyc, given := some s.pegs.cyc, edges := s.edgesWith i e } := by
  rw [State.edgeKept, State.ppsIn_setPpsIn_same]

end

/-- A sample that an edge gives touches a servo alone. -/
theorem State.ppsSample_keeps {β : Type} (q : State → β) (h : ∀ s p e, q (State.giveSample s p e) = q s) (s : State) (i p : Nat)
    (e : Int) : q (s.ppsSample i p e) = q s := by
  unfold State.ppsSample
  split
  · exact h s p (fromSecond e)
  · rfl

@[simp] theorem State.ppsSample_ppsIn (s : State) (i p j : Nat) (e : Int) : (s.ppsSample i p e).ppsIn j = s.ppsIn j :=
  State.ppsSample_keeps (fun s => s.ppsIn j) (fun _ _ _ => rfl) s i p e

@[simp] theorem State.ppsSample_rd (s : State) (i p j : Nat) (e : Int) (f : Fld) : (s.ppsSample i p e).rd f j = s.rd f j :=
  State.ppsSample_keeps (fun s => s.rd f j) (fun _ _ _ => rfl) s i p e

section
variable {s : State} {i : Nat} (back : Nat)

theorem ppsEdge_of_no_edge (h : s.edgeWaits (16 + i) = false) : ppsEdge i back s = s := if_pos (by rw [h]; rfl)

/-- An edge of an input that is not in use is only taken. -/
theorem ppsEdge_of_unused (hwaits : s.edgeWaits (16 + i) = true) (hen : s.on (F.PEG_PPSIN_CFG_EN i) 0 = false) :
    ppsEdge i back s = s.edgeTaken (16 + i) := by
  rw [ppsEdge, if_neg (by simp [hwaits]), if_pos (by simp [hen])]

variable (hwaits : s.edgeWaits (16 + i) = true) (hen : s.on (F.PEG_PPSIN_CFG_EN i) 0 = true)
include hwaits hen

/-- An edge of an input in use comes too soon, or is kept and given to the servo. -/
theorem ppsEdge_of_used : ppsEdge i back s = if s.edgeSoon i then s.edgeExtra i (s.edgeStamp i back)
    else (s.edgeKept i (s.edgeStamp i back)).ppsSample i (s.rd (F.PEG_PPSIN_CFG_PEG i) 0) (s.edgeStamp i back) := by
  rw [ppsEdge, if_neg (by simp [hwaits]), if_neg (by simp [hen])]
  extract_lets taken p x e ns presented lost shown soon edges kept
  have hsoon : soon = s.edgeSoon i := by
    rw [State.edgeSoon, ← s.edgePresented_lost i (s.edgeStamp i back)]
    simp only [soon]
    rw [show x.given = (s.ppsIn i).given from rfl]
    cases (s.ppsIn i).given with
    | none => rfl
    | some g => rfl
  rw [hsoon]
  rfl

/-- Neither the count of extra edges nor the input's record nor a sample being part of it, an edge of an input in use leaves what
shows it. -/
theorem ppsEdge_keeps {β : Type} (q : State → β) (hinc : ∀ s, q (State.inc s (F.PEG_PPSIN_EXTRA i) 0) = q s)
    (hin : ∀ s x, q (State.setPpsIn s i x) = q s) (hsample : ∀ s p e, q (State.giveSample s p e) = q s) :
    q (ppsEdge i back s) = q (s.edgeShown i (s.edgeStamp i back)) := by
  rw [ppsEdge_of_used back hwaits hen]
  split
  · rw [State.edgeExtra, hinc, hin]
  · rw [State.ppsSample_keeps q hsample, State.edgeKept, hin]

theorem ppsEdge_stat : (ppsEdge i back s).rd (F.PEG_PPSIN_STAT i) 0 = 0 := by
  rw [ppsEdge_keeps back hwaits hen (fun s => s.rd (F.PEG_PPSIN_STAT i) 0)
    (fun s => s.rd_wr_off 0 _ (by simp [F.PEG_PPSIN_STAT, F.PEG_PPSIN_EXTRA])) (fun _ _ => rfl) (fun _ _ _ => rfl),
    State.edgeShown_stat]

theorem ppsEdge_acts : ((ppsEdge i back s).inputOf (16 + i)).acts + 1 = (s.inputOf (16 + i)).acts := by
  rw [ppsEdge_keeps back hwaits hen (fun s => s.inputOf (16 + i)) (fun _ => rfl) (fun _ _ => rfl) (fun _ _ _ => rfl),
    State.edgeShown_inputOf, State.edgeTaken_acts hwaits]

/-- Whether it comes too soon or not, the input's last edge is now this one. -/
theorem ppsEdge_last : ((ppsEdge i back s).ppsIn i).last = s.pegs.cyc := by
  rw [ppsEdge_of_used back hwaits hen]
  split
  · rw [State.edgeExtra_ppsIn]
  · rw [State.ppsSample_ppsIn, State.edgeKept_ppsIn]

/-- The first edge is given to the servo and is no extra one. -/
theorem ppsEdge_first (h : (s.ppsIn i).given = none) : ((ppsEdge i back s).ppsIn i).given = some s.pegs.cyc ∧
    (ppsEdge i back s).rd (F.PEG_PPSIN_EXTRA i) 0 = s.rd (F.PEG_PPSIN_EXTRA i) 0 := by
  have hsoon : s.edgeSoon i = false := by rw [State.edgeSoon, h, Option.any_none]
  rw [ppsEdge_of_used back hwaits hen, if_neg (by simp [hsoon]), State.ppsSample_ppsIn, State.edgeKept_ppsIn, State.ppsSample_rd,
    State.edgeKept, State.rd_setPpsIn]
  exact ⟨rfl, s.edgeShown_extra i _⟩

/-- An edge within 0.9 s of the last one given is counted as an extra one, and no servo has it. -/
theorem ppsEdge_soon {g : Nat} (h : (s.ppsIn i).given = some g) (hlost : s.on (F.PEG_PPSIN_STAT i) 0 = false)
    (hnear : s.pegs.cyc - g < cycles900ms) :
    (ppsEdge i back s).rd (F.PEG_PPSIN_EXTRA i) 0 = min (s.rd (F.PEG_PPSIN_EXTRA i) 0 + 1) (2 ^ 32 - 1) ∧
      ((ppsEdge i back s).ppsIn i).given = some g ∧ (ppsEdge i back s).pegs.servo = s.pegs.servo := by
  have hsoon : s.edgeSoon i = true := by simp [State.edgeSoon, h, hlost, hnear]
  rw [ppsEdge_of_used back hwaits hen, if_pos hsoon, State.edgeExtra_ppsIn]
  exact ⟨s.edgeExtra_count i _, h, s.edgeExtra_servo i _⟩

end

/-! ### PPS_LOST (R257) -/

theorem ppsLost_finishes {s : State} (h : s.Runs) (i : Fin 2) : Finishes (.ppsLost i) s (ppsLost i s) := done_runs h

section
variable {s : State} {i : Nat}

theorem ppsLost_of_late (hen : s.on (F.PEG_PPSIN_CFG_EN i) 0 = true) (hstat : s.on (F.PEG_PPSIN_STAT i) 0 = false)
    (hlate : (s.ppsIn i).last + 4 * 10 ^ 9 ≤ s.pegs.cyc) :
    ppsLost i s = ((s.wr (F.PEG_PPSIN_STAT i) 0 1).log 0x0303 engineReq i []).raise 11 i :=
  if_neg (by simpa [hen, hstat] using hlate)

/-- An input not in use, or shown as lost, or with an edge within 2 s is not lost anew. -/
theorem ppsLost_ignored (h : s.on (F.PEG_PPSIN_CFG_EN i) 0 = false ∨ s.on (F.PEG_PPSIN_STAT i) 0 = true ∨
    s.pegs.cyc < (s.ppsIn i).last + 4 * 10 ^ 9) : ppsLost i s = s := by
  refine if_pos ?_
  rcases h with hen | hstat | hlate
  · simp [hen]
  · simp [hstat]
  · rw [decide_eq_true hlate, Bool.or_true]

end

/-! ### The outputs (R258) -/

theorem ppsOutputEdge_finishes {s : State} (h : s.Runs) (o : Fin 2) : Finishes (.ppsOutputEdge o) s (ppsOutputEdge o s) :=
  done_runs h

theorem ppsOutputPulseEnd_finishes {s : State} (h : s.Runs) (o : Fin 2) :
    Finishes (.ppsOutputPulseEnd o) s (ppsOutputPulseEnd o s) := done_runs h

/-- An output is driven to a level, by its polarity. -/
theorem State.ppsDrive_out (s : State) (o : Nat) (active : Bool) :
    (s.ppsDrive o active).out = .ppsOut o (active != s.on (F.PEG_PPSOUT_CFG_POL o) 0) :: s.out := rfl

theorem State.ppsDrive_ppsOut (s : State) (o : Nat) (active : Bool) :
    (s.ppsDrive o active).ppsOut o = { s.ppsOut o with high := active } := State.ppsOut_setPpsOut_same _ _ _

/-- The record of an output whose edge is now. -/
def State.ppsAsserted (s : State) (o : Nat) : PpsOut :=
  { high := true, sec := ((s.ppsPhase o + 32) / (16 * 10 ^ 9)).toNat, edge := some s.pegs.cyc, told := false }

section
variable {s : State} {o : Nat}

theorem ppsOutputEdge_of_due (hen : s.on (F.PEG_PPSOUT_CFG_EN o) 0 = true) (hfree : s.squelched o = false)
    (hdue : s.ppsDue o = true) : ppsOutputEdge o s = (s.setPpsOut o (s.ppsAsserted o)).ppsDrive o true :=
  if_neg (by simp [hen, hfree, hdue])

theorem ppsOutputEdge_ignored (h : s.on (F.PEG_PPSOUT_CFG_EN o) 0 = false ∨ s.squelched o = true ∨ s.ppsDue o = false) :
    ppsOutputEdge o s = s := by
  refine if_pos ?_
  rcases h with hen | hfree | hdue
  · simp [hen]
  · simp [hfree]
  · simp [hdue]

theorem ppsOutputPulseEnd_of_ended (hhigh : (s.ppsOut o).high = true) (hend : s.ppsEnd o ≤ s.pegs.cyc) :
    ppsOutputPulseEnd o s = s.ppsDrive o false := if_pos (by simp [hhigh, hend])

theorem ppsOutputPulseEnd_ignored (h : (s.ppsOut o).high = false ∨ s.pegs.cyc < s.ppsEnd o) : ppsOutputPulseEnd o s = s := by
  refine if_neg ?_
  rcases h with hlow | hbefore
  · simp [hlow]
  · simp [hbefore]

end

/-! ### The statement -/

/-- Settles O41: each command by whether it acts, and an edge of an input in use by the edge given before. -/
theorem pulsePerSecond : Obligations.PulsePerSecond := by
  intro s i hs
  refine ⟨fun back hnone => ?noEdge, fun back hwaits hen => ?unused,
    fun back hwaits hen => ⟨_, ppsEdge_finishes hs i back, ppsEdge_stat back hwaits hen, ppsEdge_last back hwaits hen,
      ppsEdge_acts back hwaits hen, ppsEdge_first back hwaits hen, fun _ => ppsEdge_soon back hwaits hen⟩,
    fun hen hstat hlate => ?lost, fun h => ?notLost, fun hen hfree hdue => ?asserts, fun h => ?notAsserted,
    fun hhigh hend => ?ends, fun h => ?notEnded⟩
  case noEdge =>
    have hfin := ppsEdge_finishes hs i back
    rwa [ppsEdge_of_no_edge back hnone] at hfin
  case unused =>
    have hfin := ppsEdge_finishes hs i back
    rwa [ppsEdge_of_unused back hwaits hen] at hfin
  case lost =>
    have hfin := ppsLost_finishes hs i
    rw [ppsLost_of_late hen hstat hlate] at hfin
    refine ⟨_, hfin, ?_, ?_⟩
    · rw [State.raise_rd _ _ _ _ (by simp only [F.PEG_PPSIN_STAT]; omega)]
      exact s.rd_wr_same _ 0 1 (PEG_PPSIN_STAT_ok i)
    · rw [State.raise_flt]
      exact List.length_append
  case notLost =>
    have hfin := ppsLost_finishes hs i
    rwa [ppsLost_ignored h] at hfin
  case asserts =>
    have hfin := ppsOutputEdge_finishes hs i
    rw [ppsOutputEdge_of_due hen hfree hdue] at hfin
    refine ⟨_, hfin, ?_, ?_, ?_, rfl⟩
    · rw [State.ppsDrive_out, Bool.true_bne]
      rfl
    · rw [State.ppsDrive_ppsOut]
    · rw [State.ppsDrive_ppsOut, State.ppsOut_setPpsOut_same]
      rfl
  case notAsserted =>
    have hfin := ppsOutputEdge_finishes hs i
    rwa [ppsOutputEdge_ignored h] at hfin
  case ends =>
    have hfin := ppsOutputPulseEnd_finishes hs i
    rw [ppsOutputPulseEnd_of_ended hhigh hend] at hfin
    refine ⟨_, hfin, ?_, ?_⟩
    · rw [State.ppsDrive_out, Bool.false_bne]
    · rw [State.ppsDrive_ppsOut]
  case notEnded =>
    have hfin := ppsOutputPulseEnd_finishes hs i
    rwa [ppsOutputPulseEnd_ignored h] at hfin

end Sys2Proof.Machine
end

section
/-!
PROOF. Time of day and the reference clocks (R259 to R261): the message sent is one that would be taken, when it leaves, what one
received shows, and which reference input is selected. Settles O42.
-/

namespace Sys2Proof.Machine

/-! ### A CRC-16 behind the bytes that it covers -/

theorem crcBit_lt {width poly : Nat} (h : poly < 2 ^ width) (crc : Nat) (b : Bool) : crcBit width poly crc b < 2 ^ width := by
  have hshifted : crc * 2 % 2 ^ width < 2 ^ width := Nat.mod_lt _ (Nat.two_pow_pos width)
  unfold crcBit
  dsimp only
  split
  · exact Nat.xor_lt_two_pow hshifted h
  · exact hshifted

theorem crc16_lt (bs : List Byte) : crc16 bs < 2 ^ 16 :=
  List.foldlRecOn (motive := (· < 2 ^ 16)) bs _ (by decide) (fun crc hcrc _ _ =>
    List.foldlRecOn (motive := (· < 2 ^ 16)) _ _ hcrc (fun crc _ _ _ => crcBit_lt (by decide) crc _))

theorem bytesBE_length (n v : Nat) : (bytesBE n v).length = n := by
  rw [bytesBE, List.length_reverse, bytesLE, List.length_map, List.length_range]

/-- Two bytes in network order behind others read back from there. -/
theorem fieldBE_append_two (l : List Byte) {v : Nat} (h : v < 2 ^ 16) : fieldBE (l ++ toBytes (bytesBE 2 v)) l.length 2 = v := by
  have hhigh : byteAt (toBytes (bytesBE 2 v)) 0 = v / 256 % 256 := by
    simp [bytesBE, bytesLE, toBytes, byteAt, List.range_succ]
  have hlow : byteAt (toBytes (bytesBE 2 v)) 1 = v % 256 := by
    simp [bytesBE, bytesLE, toBytes, byteAt, List.range_succ]
  simp only [fieldBE, List.range_succ, List.range_zero, List.nil_append, List.cons_append, List.foldl_cons, List.foldl_nil,
    byteAt_append_right, hhigh, hlow]
  omega

/-! ### The message sent (R259) -/

/-- A message without its CRC: its head, the second, the flags and the domain, and the offset of UTC. -/
def todBody (sec flags domain utc : Nat) : List Byte :=
  toBytes ([0x4C, 0x59, 0x01, 16] ++ bytesBE 6 sec ++ [flags, domain] ++ bytesBE 2 utc)

theorem todBody_length (sec flags domain utc : Nat) : (todBody sec flags domain utc).length = 14 := by
  simp [todBody, toBytes, bytesBE_length]

theorem todBody_head (sec flags domain utc : Nat) (rest : List Byte) :
    byteAt (todBody sec flags domain utc ++ rest) 0 = 0x4C ∧ byteAt (todBody sec flags domain utc ++ rest) 1 = 0x59 ∧
      byteAt (todBody sec flags domain utc ++ rest) 2 = 1 ∧ byteAt (todBody sec flags domain utc ++ rest) 3 = 16 :=
  ⟨rfl, rfl, rfl, rfl⟩

/-- 14 bytes with the head of a message, followed by their CRC, are a message that the engine takes. -/
theorem todValid_append_crc {m : List Byte} (hlen : m.length = 14) (hhead : ∀ rest, byteAt (m ++ rest) 0 = 0x4C ∧
    byteAt (m ++ rest) 1 = 0x59 ∧ byteAt (m ++ rest) 2 = 1 ∧ byteAt (m ++ rest) 3 = 16) :
    todValid (m ++ toBytes (bytesBE 2 (crc16 m))) = true := by
  have hcrc := fieldBE_append_two m (crc16_lt m)
  rw [hlen] at hcrc
  obtain ⟨hsync, hsync', htype, hlength⟩ := hhead (toBytes (bytesBE 2 (crc16 m)))
  have hall : (m ++ toBytes (bytesBE 2 (crc16 m))).length = 16 := by
    rw [List.length_append, hlen, toBytes, List.length_map, bytesBE_length]
  rw [todValid, hall, hsync, hsync', htype, hlength, hcrc, List.take_left' hlen]
  simp

theorem State.todMessage_valid (s : State) (o sec : Nat) : todValid (s.todMessage o sec) = true :=
  todValid_append_crc (todBody_length _ _ _ _) (todBody_head _ _ _ _)

theorem todOutSend_finishes {s : State} (h : s.Runs) : Finishes .todOutSend s (todOutSend s) := done_runs h

theorem todOutSend_of_due {s : State} {o : Nat} (hdue : s.todDue = true) (ho : s.rd F.PEG_TOD_CFG_PPSOUT 0 = o) :
    todOutSend s = (s.setPpsOut o { s.ppsOut o with told := true }).emit (.tod s.todBaud (s.todMessage o (s.ppsOut o).sec)) := by
  subst ho
  exact if_pos hdue

theorem todOutSend_not_due {s : State} (h : s.todDue = false) : todOutSend s = s := if_neg (by simp [h])

/-- With its output's edge still to be told, a message is due from OUT_DLY after the edge on. -/
theorem State.todDue_iff {s : State} {o e : Nat} (ho : s.rd F.PEG_TOD_CFG_PPSOUT 0 = o) (hedge : (s.ppsOut o).edge = some e)
    (hen : s.on F.PEG_TOD_CFG_OUT_EN 0 = true) (htold : (s.ppsOut o).told = false) :
    s.todDue = true ↔ e + 2000000 * max 1 (s.rd F.PEG_TOD_CFG_OUT_DLY 0) ≤ s.pegs.cyc := by
  subst ho
  simp [State.todDue, hedge, hen, htold]

theorem State.todDue_of_off {s : State} (h : s.on F.PEG_TOD_CFG_OUT_EN 0 = false) : s.todDue = false := by
  simp [State.todDue, h]

/-! ### The message received (R259, R260) -/

theorem fieldLE_lt (l : List Byte) (ofs n : Nat) : fieldLE l ofs n < 256 ^ n := by
  have hfold : ∀ is : List Nat, is.foldr (fun i a => byteAt l (ofs + i) + 256 * a) 0 < 256 ^ is.length := by
    intro is
    induction is with
    | nil => exact Nat.one_pos
    | cons i is ih =>
      have hbyte : byteAt l (ofs + i) < 256 := BitVec.isLt _
      rw [List.foldr_cons, List.length_cons, Nat.pow_succ]
      omega
  have hlt := hfold (List.range n)
  rwa [List.length_range] at hlt

theorem todMessageReceived_finishes {s : State} (h : s.Runs) (m : List Byte) (ago : Nat) :
    Finishes (.todMessageReceived m ago) s (todReceived m ago s) := done_runs h

theorem PEG_TOD_IN_ok (k : Nat) : (F.PEG_TOD_IN k).ok := ⟨Nat.zero_le 31, Nat.lt_succ_self 31⟩
theorem PEG_TOD_STAT_NEW_ok : F.PEG_TOD_STAT_NEW.ok := ⟨by decide, by decide⟩
theorem PEG_TOD_STAT_ASSOC_ok : F.PEG_TOD_STAT_ASSOC.ok := ⟨by decide, by decide⟩

/-- The first n words of a message shown in PEG_TOD_IN. -/
def State.showTod (s : State) (m : List Byte) (n : Nat) : State :=
  (List.range n).foldl (fun s k => s.wr (F.PEG_TOD_IN k) 0 (fieldLE m (4 * k) 4)) s

/-- NEW and ASSOC of a message, and its event. -/
def State.noteTod (s : State) (assoc : Bool) : State :=
  ((s.wr F.PEG_TOD_STAT_NEW 0 1).wrB F.PEG_TOD_STAT_ASSOC 0 assoc).raise 11 (s.rd F.PEG_TOD_CFG_PPSIN 0)

/-- The edge that a message received now goes with. -/
def State.edgeOfTod (s : State) (ago : Nat) : Option (Nat × Nat) :=
  (s.ppsIn (s.rd F.PEG_TOD_CFG_PPSIN 0)).todEdge (s.pegs.cyc - ago)

/-- What AUTO makes of a message with its edge (R260). -/
def State.followTod (s : State) (i : Nat) (m : List Byte) : Option (Nat × Nat) → State
  | none => s
  | some e => if s.on F.PEG_TOD_CFG_AUTO 0 then s.todStep i (fieldBE m 4 6) ((e.2 + 8 * 10 ^ 9) / (16 * 10 ^ 9)) else s

section
variable (s : State) (m : List Byte)

theorem State.showTod_succ (n : Nat) : s.showTod m (n + 1) = (s.showTod m n).wr (F.PEG_TOD_IN n) 0 (fieldLE m (4 * n) 4) := by
  rw [State.showTod, List.range_succ, List.foldl_append]
  rfl

@[simp] theorem State.showTod_pegs (n : Nat) : (s.showTod m n).pegs = s.pegs := by
  refine foldl_keeps State.pegs (fun s k => ?_) _ s
  rfl

theorem State.showTod_rd {n : Nat} {f : Fld} (h : f.off < 0x30868 ∨ 0x30868 + 4 * n ≤ f.off) : (s.showTod m n).rd f 0 = s.rd f 0 := by
  induction n with
  | zero => rfl
  | succ n ih =>
    rw [State.showTod_succ, State.rd_wr_off _ _ _ (by simp only [F.PEG_TOD_IN]; omega)]
    exact ih (by omega)

/-- Each word of the message reads back: the writes behind it are of other registers. -/
theorem State.showTod_in {n k : Nat} (h : k < n) : (s.showTod m n).rd (F.PEG_TOD_IN k) 0 = fieldLE m (4 * k) 4 := by
  induction n with
  | zero => exact absurd h (Nat.not_lt_zero k)
  | succ n ih =>
    rw [State.showTod_succ]
    by_cases hk : k = n
    · subst hk
      rw [State.rd_wr_same _ _ _ _ (PEG_TOD_IN_ok k)]
      exact Nat.mod_eq_of_lt (fieldLE_lt m (4 * k) 4)
    · rw [State.rd_wr_off _ _ _ (by simp only [F.PEG_TOD_IN]; omega)]
      exact ih (by omega)

/-- A request is a matter of its servo and its count. -/
theorem State.requestPeg_rd (p j : Nat) (r : PegReq) {f : Fld} (hf : f.off < 0x100000) (hne : f.off ≠ F.PEG_SRV_STEPS.off) :
    (s.requestPeg p r).rd f j = s.rd f j := by
  unfold State.requestPeg
  dsimp only
  split
  · exact s.rd_wr_reg _ (rkey_ne_of_off hf (by decide) hne)
  · rfl

/-- A step of the input's peg is a matter of its servo, its count and PEG_TOD_STEPS. -/
theorem State.todStep_rd (i sec mine : Nat) {f : Fld} (hf : f.off < 0x100000) (hsteps : f.off ≠ F.PEG_SRV_STEPS.off)
    (htod : f.off ≠ F.PEG_TOD_STEPS.off) : (s.todStep i sec mine).rd f 0 = s.rd f 0 := by
  unfold State.todStep
  dsimp only
  split
  · exact (State.rd_wr_off _ 0 _ htod).trans (s.requestPeg_rd _ 0 _ hf hsteps)
  · rfl

theorem State.followTod_rd (i : Nat) (e : Option (Nat × Nat)) {f : Fld} (hf : f.off < 0x100000) (hsteps : f.off ≠ F.PEG_SRV_STEPS.off)
    (htod : f.off ≠ F.PEG_TOD_STEPS.off) : (s.followTod i m e).rd f 0 = s.rd f 0 := by
  cases e with
  | none => rfl
  | some e =>
    rw [State.followTod]
    split
    · exact s.todStep_rd _ _ _ hf hsteps htod
    · rfl

theorem State.noteTod_new (assoc : Bool) : (s.noteTod assoc).rd F.PEG_TOD_STAT_NEW 0 = 1 := by
  rw [State.noteTod, State.raise_rd _ _ _ _ (by decide), State.wrB,
    State.rd_wr_fld _ _ _ PEG_TOD_STAT_ASSOC_ok PEG_TOD_STAT_NEW_ok rfl (by decide), State.rd_wr_same _ _ _ _ PEG_TOD_STAT_NEW_ok]
  rfl

theorem State.noteTod_assoc (assoc : Bool) : (s.noteTod assoc).on F.PEG_TOD_STAT_ASSOC 0 = assoc := by
  rw [State.on, State.noteTod, State.raise_rd _ _ _ _ (by decide), ← State.on, State.on_wrB_same _ _ _ PEG_TOD_STAT_ASSOC_ok]

theorem State.noteTod_rd (assoc : Bool) {f : Fld} (hf : f.off < 0x90000) (hne : f.off ≠ F.PEG_TOD_STAT.off) :
    (s.noteTod assoc).rd f 0 = s.rd f 0 := by
  rw [State.noteTod, State.raise_rd _ _ _ _ hf, State.wrB,
    State.rd_wr_off (f := F.PEG_TOD_STAT_ASSOC) _ _ _ hne, State.rd_wr_off (f := F.PEG_TOD_STAT_NEW) _ _ _ hne]

end

theorem todReceived_of_off {s : State} (m : List Byte) (ago : Nat) (h : s.on F.PEG_TOD_CFG_IN_EN 0 = false) :
    todReceived m ago s = s := if_pos (by simp [h])

section
variable {s : State} {m : List Byte} (ago : Nat) (hen : s.on F.PEG_TOD_CFG_IN_EN 0 = true)
include hen

theorem todReceived_invalid (h : todValid m = false) : todReceived m ago s = s.inc F.PEG_TOD_ERR 0 := by
  rw [todReceived, if_neg (by simp [hen]), if_pos (by simp [h])]

/-- A valid message is shown, noted with its edge, and followed. -/
theorem todReceived_valid (h : todValid m = true) : todReceived m ago s =
    ((s.showTod m 4).noteTod (s.edgeOfTod ago).isSome).followTod (s.rd F.PEG_TOD_CFG_PPSIN 0) m (s.edgeOfTod ago) := by
  have hin := s.showTod_rd m (n := 4) (f := F.PEG_TOD_CFG_PPSIN) (.inl (by decide))
  rw [todReceived, if_neg (by simp [hen]), if_neg (by simp [h])]
  extract_lets shown i x edge noted
  have hi : i = s.rd F.PEG_TOD_CFG_PPSIN 0 := hin
  have hedge : edge = s.edgeOfTod ago := by
    simp only [edge, x, State.ppsIn]
    rw [hi, show shown.pegs = s.pegs from s.showTod_pegs m 4]
    rfl
  have hnoted : noted = (s.showTod m 4).noteTod (s.edgeOfTod ago).isSome := by
    simp only [noted]
    rw [hedge]
    rfl
  rw [hnoted, hedge, hi]
  cases s.edgeOfTod ago with
  | none => rfl
  | some e => rfl

end

/-! ### REFERENCE_SWITCH (R261) -/

/-- The inputs as they now are. -/
def State.refsSeen (s : State) (a b : RefIn) (r10 : Bool) : State := { s with pegs := { s.pegs with refs := { a, b, ten := r10 } } }

theorem referenceSwitch_finishes {s : State} (h : s.Runs) (a b : RefIn) (r10 : Bool) :
    Finishes (.referenceSwitch a b r10) s (s.refsSeen a b r10).refEval := done_runs h

theorem PEG_REF_STAT_SEL_ok : F.PEG_REF_STAT_SEL.ok := ⟨by decide, by decide⟩
theorem PEG_REF_STAT_A_OK_ok : F.PEG_REF_STAT_A_OK.ok := ⟨by decide, by decide⟩
theorem PEG_REF_STAT_B_OK_ok : F.PEG_REF_STAT_B_OK.ok := ⟨by decide, by decide⟩
theorem PEG_REF_STAT_R10_OK_ok : F.PEG_REF_STAT_R10_OK.ok := ⟨by decide, by decide⟩

/-- Neither input qualified: HOLD. -/
theorem refSelect_hold (prefer cur : Nat) (revert : Bool) : refSelect prefer cur revert false false = 2 := by
  simp [refSelect]

/-- A alone qualified: A, preferred or not. -/
theorem refSelect_a {prefer : Nat} (h : prefer < 2) (cur : Nat) (revert : Bool) : refSelect prefer cur revert true false = 0 := by
  rcases (show prefer = 0 ∨ prefer = 1 by omega) with rfl | rfl
  · simp [refSelect]
  · simp [refSelect]

theorem refSelect_lt {prefer : Nat} (h : prefer < 2) (cur : Nat) (revert aOk bOk : Bool) :
    refSelect prefer cur revert aOk bOk < 4 := by
  unfold refSelect
  extract_lets ok other
  have hother : other ≤ 1 := Nat.sub_le 1 prefer
  split
  · omega
  · split <;> omega

section
variable (s : State) (r10 : Bool)

/-- The selection that the inputs' qualification brings. -/
def State.refChoice (aOk bOk : Bool) : Nat :=
  refSelect (s.rd F.PEG_REF_CFG_PREFER 0) (s.rd F.PEG_REF_STAT_SEL 0) (s.on F.PEG_REF_CFG_REVERT 0) aOk bOk

/-- The qualification of the inputs shown. -/
def State.showRefs (aOk bOk : Bool) : State :=
  ((s.wrB F.PEG_REF_STAT_A_OK 0 aOk).wrB F.PEG_REF_STAT_B_OK 0 bOk).wrB F.PEG_REF_STAT_R10_OK 0 r10

/-- A switch to an input counted and logged. -/
def State.noteSwitch (cur sel : Nat) : State :=
  if sel = cur || sel = 2 then s else (s.inc F.PEG_REF_SW 0).log 0x0304 engineReq 0 [sel]

/-- What a switch noted touches is its count and the log. -/
theorem State.noteSwitch_rd (cur sel : Nat) {f : Fld} (h : f.off ≠ F.PEG_REF_SW.off) : (s.noteSwitch cur sel).rd f 0 = s.rd f 0 := by
  unfold State.noteSwitch
  split
  · rfl
  · exact s.rd_wr_off 0 _ h

theorem State.noteSwitch_pegs (cur sel : Nat) : (s.noteSwitch cur sel).pegs = s.pegs := by
  unfold State.noteSwitch
  split <;> rfl

theorem State.showRefs_sel (aOk bOk : Bool) : (s.showRefs r10 aOk bOk).rd F.PEG_REF_STAT_SEL 0 = s.rd F.PEG_REF_STAT_SEL 0 := by
  rw [State.showRefs, State.wrB, State.rd_wr_fld _ _ _ PEG_REF_STAT_R10_OK_ok PEG_REF_STAT_SEL_ok rfl (by decide), State.wrB,
    State.rd_wr_fld _ _ _ PEG_REF_STAT_B_OK_ok PEG_REF_STAT_SEL_ok rfl (by decide), State.wrB,
    State.rd_wr_fld _ _ _ PEG_REF_STAT_A_OK_ok PEG_REF_STAT_SEL_ok rfl (by decide)]

theorem State.showRefs_cfg (aOk bOk : Bool) {f : Fld} (h : f.off = F.PEG_REF_CFG.off) :
    (s.showRefs r10 aOk bOk).rd f 0 = s.rd f 0 := by
  have hne : f.off ≠ F.PEG_REF_STAT.off := by
    rw [h]
    decide
  rw [State.showRefs, State.wrB, State.rd_wr_off (f := F.PEG_REF_STAT_R10_OK) _ _ _ hne, State.wrB,
    State.rd_wr_off (f := F.PEG_REF_STAT_B_OK) _ _ _ hne, State.wrB, State.rd_wr_off (f := F.PEG_REF_STAT_A_OK) _ _ _ hne]

/-- What is shown of the inputs does not enter the selection. -/
theorem State.showRefs_choice (aOk bOk : Bool) : (s.showRefs r10 aOk bOk).refChoice aOk bOk = s.refChoice aOk bOk := by
  rw [State.refChoice, State.on, State.showRefs_sel, State.showRefs_cfg _ _ _ _ (f := F.PEG_REF_CFG_PREFER) rfl,
    State.showRefs_cfg _ _ _ _ (f := F.PEG_REF_CFG_REVERT) rfl, ← State.on, ← State.refChoice]

theorem State.refChoice_lt (aOk bOk : Bool) : s.refChoice aOk bOk < 4 := refSelect_lt (getF_lt _ F.PEG_REF_CFG_PREFER) _ _ _ _

/-- The inputs shown, with the selection. -/
def State.selectRef (aOk bOk : Bool) : State := (s.showRefs r10 aOk bOk).wr F.PEG_REF_STAT_SEL 0 (s.refChoice aOk bOk)

/-- The inputs qualified, shown and selected from, and a switch noted. -/
theorem State.refEval_eq : s.refEval =
    (s.selectRef s.pegs.refs.ten (s.refOk s.pegs.refs.a) (s.refOk s.pegs.refs.b)).noteSwitch (s.rd F.PEG_REF_STAT_SEL 0)
      (s.refChoice (s.refOk s.pegs.refs.a) (s.refOk s.pegs.refs.b)) := by
  unfold State.refEval
  extract_lets aOk bOk shown cur sel selected
  have hcur : cur = s.rd F.PEG_REF_STAT_SEL 0 := s.showRefs_sel s.pegs.refs.ten aOk bOk
  have hsel : sel = s.refChoice aOk bOk := s.showRefs_choice s.pegs.refs.ten aOk bOk
  have hselected : selected = s.selectRef s.pegs.refs.ten aOk bOk := by
    simp only [selected]
    rw [hsel]
    rfl
  rw [hselected, hcur, hsel]
  rfl

theorem State.refEval_rd {f : Fld} (h : f.off ≠ F.PEG_REF_SW.off) : s.refEval.rd f 0 =
    (s.selectRef s.pegs.refs.ten (s.refOk s.pegs.refs.a) (s.refOk s.pegs.refs.b)).rd f 0 := by
  rw [State.refEval_eq, State.noteSwitch_rd _ _ _ h]

theorem State.refEval_sel : s.refEval.rd F.PEG_REF_STAT_SEL 0 = s.refChoice (s.refOk s.pegs.refs.a) (s.refOk s.pegs.refs.b) := by
  rw [State.refEval_rd _ (by decide), State.selectRef, State.rd_wr_same _ _ _ _ PEG_REF_STAT_SEL_ok]
  exact Nat.mod_eq_of_lt (s.refChoice_lt _ _)

theorem State.refEval_a : s.refEval.on F.PEG_REF_STAT_A_OK 0 = s.refOk s.pegs.refs.a := by
  rw [State.on, State.refEval_rd _ (by decide), ← State.on, State.selectRef,
    State.on_wr_fld _ _ _ PEG_REF_STAT_SEL_ok PEG_REF_STAT_A_OK_ok rfl (by decide), State.showRefs, State.wrB,
    State.on_wr_fld _ _ _ PEG_REF_STAT_R10_OK_ok PEG_REF_STAT_A_OK_ok rfl (by decide), State.wrB,
    State.on_wr_fld _ _ _ PEG_REF_STAT_B_OK_ok PEG_REF_STAT_A_OK_ok rfl (by decide), State.on_wrB_same _ _ _ PEG_REF_STAT_A_OK_ok]

theorem State.refEval_b : s.refEval.on F.PEG_REF_STAT_B_OK 0 = s.refOk s.pegs.refs.b := by
  rw [State.on, State.refEval_rd _ (by decide), ← State.on, State.selectRef,
    State.on_wr_fld _ _ _ PEG_REF_STAT_SEL_ok PEG_REF_STAT_B_OK_ok rfl (by decide), State.showRefs, State.wrB,
    State.on_wr_fld _ _ _ PEG_REF_STAT_R10_OK_ok PEG_REF_STAT_B_OK_ok rfl (by decide), State.on_wrB_same _ _ _ PEG_REF_STAT_B_OK_ok]

theorem State.refEval_ten : s.refEval.on F.PEG_REF_STAT_R10_OK 0 = s.pegs.refs.ten := by
  rw [State.on, State.refEval_rd _ (by decide), ← State.on, State.selectRef,
    State.on_wr_fld _ _ _ PEG_REF_STAT_SEL_ok PEG_REF_STAT_R10_OK_ok rfl (by decide), State.showRefs,
    State.on_wrB_same _ _ _ PEG_REF_STAT_R10_OK_ok]

theorem State.refEval_pegs : s.refEval.pegs = s.pegs := by
  rw [State.refEval_eq, State.noteSwitch_pegs]
  rfl

end

/-! ### The statement -/

/-- Settles O42: the message by its layout, one received by its validity, and the selection by the inputs qualified. -/
theorem timeOfDayAndReference : Obligations.TimeOfDayAndReference := by
  refine ⟨fun s hs => ⟨s.todMessage_valid, fun o hdue ho => ?sent, fun o e ho hedge hen htold => State.todDue_iff ho hedge hen htold,
    fun hdue => ?notDue, fun hoff => ?outOff, fun m ago hoff => ?inOff, fun m ago hen hbad => ?invalid, fun m ago hen hok => ?valid⟩,
    fun s a b r10 aOk bOk hs ha hb => ?switch⟩
  case sent =>
    rw [← todOutSend_of_due hdue ho]
    exact todOutSend_finishes hs
  case notDue =>
    have hfin := todOutSend_finishes hs
    rwa [todOutSend_not_due hdue] at hfin
  case outOff =>
    have hfin := todOutSend_finishes hs
    rwa [todOutSend_not_due (State.todDue_of_off hoff)] at hfin
  case inOff =>
    have hfin := todMessageReceived_finishes hs m ago
    rwa [todReceived_of_off m ago hoff] at hfin
  case invalid =>
    have hfin := todMessageReceived_finishes hs m ago
    rwa [todReceived_invalid ago hen hbad] at hfin
  case valid =>
    have hfin := todMessageReceived_finishes hs m ago
    rw [todReceived_valid ago hen hok] at hfin
    refine ⟨_, hfin, ?_, ?_, ?_, fun k hk => ?_⟩
    · rw [State.followTod_rd _ _ _ _ (by decide) (by decide) (by decide), State.noteTod_new]
    · rw [State.followTod_rd _ _ _ _ (by decide) (by decide) (by decide), State.noteTod_rd _ _ (by decide) (by decide),
        s.showTod_rd m (.inr (by decide))]
    · rw [State.on, State.followTod_rd _ _ _ _ (by decide) (by decide) (by decide), ← State.on, State.noteTod_assoc]
      rfl
    · have hlo : 0x30868 ≤ (F.PEG_TOD_IN k).off := Nat.le_add_right _ _
      have hhi : (F.PEG_TOD_IN k).off < 0x30878 := by
        simp only [F.PEG_TOD_IN]
        omega
      rw [State.followTod_rd _ _ _ _ (by omega) (by simp only [F.PEG_SRV_STEPS]; omega) (by simp only [F.PEG_TOD_STEPS]; omega),
        State.noteTod_rd _ _ (by omega) (by simp only [F.PEG_TOD_STAT]; omega), s.showTod_in m hk]
  case switch =>
    obtain rfl : aOk = (s.refsSeen a b r10).refOk a := ha
    obtain rfl : bOk = (s.refsSeen a b r10).refOk b := hb
    have hsel := (s.refsSeen a b r10).refEval_sel
    have hprefer := getF_lt (s.reg 0 F.PEG_REF_CFG_PREFER.off) F.PEG_REF_CFG_PREFER
    refine ⟨_, referenceSwitch_finishes hs a b r10, hsel, fun hano hbno => hsel.trans ?_, fun _ hayes hbno => hsel.trans ?_,
      fun _ hayes hbno => hsel.trans ?_, State.refEval_a _, State.refEval_b _, State.refEval_ten _, State.refEval_pegs _⟩
    · exact (congr (congrArg s.refChoice hano) hbno).trans (refSelect_hold _ _ _)
    · exact (congr (congrArg s.refChoice hayes) hbno).trans (refSelect_a hprefer _ _)
    · exact (congr (congrArg s.refChoice hayes) hbno).trans (refSelect_a hprefer _ _)

end Sys2Proof.Machine
end

section
/-!
PROOF. The client MAC (R263, R265, R266): which frame is counted, consumed or taken in, and what a pause frame and the end of its timer
do. Settles O43.
-/

namespace Sys2Proof.Machine

/-- A count of another register leaves a flag alone. -/
theorem State.on_inc_off (s : State) {f g : Fld} (i : Nat) (h : g.off ≠ f.off) : (s.inc f i).on g i = s.on g i := by
  rw [State.on, State.inc, State.addN, State.rd_wr_off _ _ _ h, ← State.on]

theorem CH_MAC_STAT_PAUSED_ok : F.CH_MAC_STAT_PAUSED.ok := ⟨by decide, by decide⟩
theorem CH_MAC_RX_PAUSE_ok : F.CH_MAC_RX_PAUSE.ok := ⟨by decide, by decide⟩

/-! ### Pause (R265, R266) -/

section
variable (s : State) (c p : Nat)

theorem State.pause_paused : (s.pause c p).on F.CH_MAC_STAT_PAUSED c = (p != 0) := State.on_wrB_same _ _ _ CH_MAC_STAT_PAUSED_ok

theorem State.pause_received : (s.pause c p).rd F.CH_MAC_RX_PAUSE c = s.rd F.CH_MAC_RX_PAUSE c := State.rd_wr_off _ _ _ (by decide)

theorem State.pauseReceived_eq : s.pauseReceived c p =
    if s.on F.CH_MAC_CFG_OBEY c then (s.inc F.CH_MAC_RX_PAUSE c).pause c p else s.inc F.CH_MAC_RX_PAUSE c := by
  rw [State.pauseReceived, s.on_inc_off c (by decide)]

@[simp] theorem State.pauseReceived_cls : (s.pauseReceived c p).cls = s.cls := by
  rw [State.pauseReceived_eq]
  split <;> rfl

@[simp] theorem State.pauseReceived_store : (s.pauseReceived c p).store = s.store := by
  rw [State.pauseReceived_eq]
  split <;> rfl

/-- Obeyed or not, a pause frame is counted. -/
theorem State.pauseReceived_count :
    (s.pauseReceived c p).rd F.CH_MAC_RX_PAUSE c = min (s.rd F.CH_MAC_RX_PAUSE c + 1) (2 ^ 32 - 1) := by
  have hcount : (s.inc F.CH_MAC_RX_PAUSE c).rd F.CH_MAC_RX_PAUSE c = _ := s.rd_inc_same c CH_MAC_RX_PAUSE_ok
  rw [State.pauseReceived_eq]
  split
  · rw [State.pause_received, hcount]
    rfl
  · exact hcount

theorem State.pauseReceived_obeyed (h : s.on F.CH_MAC_CFG_OBEY c = true) :
    (s.pauseReceived c p).on F.CH_MAC_STAT_PAUSED c = (p != 0) := by
  rw [State.pauseReceived_eq, if_pos h, State.pause_paused]

end

theorem pauseFrameReceived_finishes {s : State} (h : s.Runs) (c : Fin 64) (q : BitVec 16) :
    Finishes (.pauseFrameReceived c q) s (pauseFrameReceived c q.toNat s) := done_runs h

theorem pauseTimerExpiry_finishes {s : State} (h : s.Runs) (c : Fin 64) :
    Finishes (.pauseTimerExpiry c) s (pauseTimerExpiry c s) := done_runs h

section
variable {s : State} {c : Nat}

theorem pauseFrameReceived_ignored (p : Nat) (h : s.clientReceives c = false) : pauseFrameReceived c p s = s := if_neg (by simp [h])

theorem pauseFrameReceived_taken (p : Nat) (h : s.clientReceives c = true) : pauseFrameReceived c p s = s.pauseReceived c p := if_pos h

theorem pauseTimerExpiry_of_ended (hon : s.on F.CH_MAC_STAT_PAUSED c = true) (h : s.pauseHolds c = false) :
    pauseTimerExpiry c s = s.pause c 0 := if_pos (by simp [hon, h])

theorem pauseTimerExpiry_ignored (h : s.on F.CH_MAC_STAT_PAUSED c = false ∨ s.pauseHolds c = true) : pauseTimerExpiry c s = s := by
  refine if_neg ?_
  rcases h with hoff | hholds
  · simp [hoff]
  · simp [hholds]

end

/-! ### CLIENT_FRAME_RECEIVED (R263) -/

theorem clientFrameReceived_finishes {s : State} (h : s.Runs) (c : Fin 64) (f : List Byte) (m : ClientMark) :
    Finishes (.clientFrameReceived c f m) s (clientFrameReceived c f m.uncorrectable m.back m.ago s) := done_runs h

/-- A MAC control frame touches registers and the pause timer alone. -/
theorem State.macControl_cls (s : State) (c : Nat) (f : List Byte) : (s.macControl c f).cls = s.cls := by
  unfold State.macControl
  split
  · exact s.pauseReceived_cls c _
  · rfl

theorem State.macControl_pause {s : State} {c : Nat} {f : List Byte} (hop : fieldBE f 14 2 = 1)
    (hda : f.take 6 = pauseDa ∨ f.take 6 = s.macSa c) : s.macControl c f = s.pauseReceived c (fieldBE f 16 2) :=
  if_pos (by simpa [hop] using hda)

theorem State.macControl_other {s : State} {c : Nat} {f : List Byte}
    (h : fieldBE f 14 2 ≠ 1 ∨ (f.take 6 ≠ pauseDa ∧ f.take 6 ≠ s.macSa c)) : s.macControl c f = s.inc F.CH_MAC_RX_CTRL c := by
  refine if_neg ?_
  rcases h with hop | ⟨hda, hsa⟩
  · simp [hop]
  · simp [hda, hsa]

theorem State.takeClientFrame_ignored {s : State} {c : Nat} (f : List Byte) (unc : Bool) (ago : Nat)
    (h : s.clientReceives c = false) : s.takeClientFrame c f unc ago = s := if_pos (by simp [h])

section
variable {s : State} {c : Nat} {f : List Byte} (ago : Nat) (hrx : s.clientReceives c = true)
include hrx

/-- What is left of a frame on a channel that receives: the checks in the order of Table: Receive discards. -/
theorem State.takeClientFrame_received (unc : Bool) : s.takeClientFrame c f unc ago =
    if unc then s.inc F.CH_MAC_RX_FCS c else if !fcsOk f then s.inc F.CH_MAC_RX_FCS c
    else if f.length < 64 then s.inc F.CH_MAC_RX_RUNT c
    else if s.maxFrame c < f.length then s.inc F.CH_MAC_RX_LONG c
    else if fieldBE f 12 2 = 0x8808 then s.macControl c f
    else (s.inc F.CH_MAC_RX_OK c).lineFrame c f 0 false false ago := if_neg (by simp [hrx])

theorem State.takeClientFrame_spoilt : s.takeClientFrame c f true ago = s.inc F.CH_MAC_RX_FCS c := by
  rw [State.takeClientFrame_received ago hrx, if_pos rfl]

theorem State.takeClientFrame_fcs (hfcs : fcsOk f = false) (unc : Bool) : s.takeClientFrame c f unc ago = s.inc F.CH_MAC_RX_FCS c := by
  rw [State.takeClientFrame_received ago hrx, hfcs]
  exact ite_self _

variable (hfcs : fcsOk f = true)
include hfcs

theorem State.takeClientFrame_short (hlen : f.length < 64) : s.takeClientFrame c f false ago = s.inc F.CH_MAC_RX_RUNT c := by
  rw [State.takeClientFrame_received ago hrx, hfcs]
  exact if_pos hlen

variable (hmin : 64 ≤ f.length)
include hmin

theorem State.takeClientFrame_long (hlen : s.maxFrame c < f.length) : s.takeClientFrame c f false ago = s.inc F.CH_MAC_RX_LONG c := by
  rw [State.takeClientFrame_received ago hrx, hfcs, if_neg (Nat.not_lt.mpr hmin)]
  exact if_pos hlen

/-- A good frame is one for the MAC itself, or is taken in. -/
theorem State.takeClientFrame_good (hmax : f.length ≤ s.maxFrame c) : s.takeClientFrame c f false ago =
    if fieldBE f 12 2 = 0x8808 then s.macControl c f else (s.inc F.CH_MAC_RX_OK c).lineFrame c f 0 false false ago := by
  rw [State.takeClientFrame_received ago hrx, hfcs, if_neg (Nat.not_lt.mpr hmin), if_neg (Nat.not_lt.mpr hmax)]
  rfl

end

/-- Not told to be spoilt, a frame is so by its codewords. -/
theorem clientFrameReceived_unmarked (c : Nat) (f : List Byte) (back ago : Nat) (s : State) {bad : Bool}
    (h : s.codewordsBad c ((s.lane c).cws - 1 - back) (back + 1) = bad) :
    clientFrameReceived c f false back ago s = s.takeClientFrame c f bad ago := by
  rw [clientFrameReceived, h, Bool.false_or]

/-! ### The statement -/

/-- Settles O43: a frame by the first check that it fails, a pause frame by OBEY, and the timer by whether it still runs. -/
theorem clientSide : Obligations.ClientSide := by
  intro s c f back ago hs
  have hframe (unc : Bool) : Finishes (.clientFrameReceived c f ⟨unc, back, ago⟩) s (clientFrameReceived c f unc back ago s) :=
    clientFrameReceived_finishes hs c f _
  have hpause (q : BitVec 16) := pauseFrameReceived_finishes hs c q
  have htimer := pauseTimerExpiry_finishes hs c
  refine ⟨fun m hrx => ?ignored, fun q hrx => ?noPause, fun hrx => ⟨?told, fun hbad => ?codewords, fun hfcs => ?fcs, fun hok hfcs =>
    ⟨fun hlen => ?runt, fun hmin hlen => ?long, fun hmin hmax htype => ?control, fun hmin hmax htype => ?taken⟩, fun q hobey => ?deaf,
    fun q hobey => ?obeyed⟩, fun hon hended => ?ended, fun h => ?holds⟩
  case ignored =>
    have hfin := clientFrameReceived_finishes hs c f m
    rwa [clientFrameReceived, State.takeClientFrame_ignored _ _ _ hrx] at hfin
  case noPause =>
    have hfin := hpause q
    rwa [pauseFrameReceived_ignored _ hrx] at hfin
  case told =>
    have hfin := hframe true
    rwa [clientFrameReceived, Bool.true_or, State.takeClientFrame_spoilt _ hrx] at hfin
  case codewords =>
    have hfin := hframe false
    rwa [clientFrameReceived_unmarked _ _ _ _ _ hbad, State.takeClientFrame_spoilt _ hrx] at hfin
  case fcs =>
    have hfin := hframe false
    rwa [clientFrameReceived, State.takeClientFrame_fcs _ hrx hfcs] at hfin
  case runt =>
    have hfin := hframe false
    rwa [clientFrameReceived_unmarked _ _ _ _ _ hok, State.takeClientFrame_short _ hrx hfcs hlen] at hfin
  case long =>
    have hfin := hframe false
    rwa [clientFrameReceived_unmarked _ _ _ _ _ hok, State.takeClientFrame_long _ hrx hfcs hmin hlen] at hfin
  case control =>
    have hfin := hframe false
    rw [clientFrameReceived_unmarked _ _ _ _ _ hok, State.takeClientFrame_good _ hrx hfcs hmin hmax, if_pos htype] at hfin
    exact ⟨_, hfin, s.macControl_cls c f, fun hop hda => State.macControl_pause hop hda, State.macControl_other⟩
  case taken =>
    have hfin := hframe false
    rwa [clientFrameReceived_unmarked _ _ _ _ _ hok, State.takeClientFrame_good _ hrx hfcs hmin hmax, if_neg htype] at hfin
  case deaf =>
    have hfin := hpause q
    rwa [pauseFrameReceived_taken _ hrx, State.pauseReceived_eq, if_neg (by simp [hobey])] at hfin
  case obeyed =>
    have hfin := hpause q
    rw [pauseFrameReceived_taken _ hrx] at hfin
    have hzero : (q.toNat != 0) = (q != 0) := by
      rw [Bool.eq_iff_iff, bne_iff_ne, bne_iff_ne, ne_eq, ne_eq, BitVec.toNat_eq]
      rfl
    exact ⟨_, hfin, (s.pauseReceived_obeyed c _ hobey).trans hzero, s.pauseReceived_count c _, s.pauseReceived_store c _⟩
  case ended =>
    rw [pauseTimerExpiry_of_ended hon hended] at htimer
    exact ⟨_, htimer, s.pause_paused c 0, rfl⟩
  case holds => rwa [pauseTimerExpiry_ignored h] at htimer

end Sys2Proof.Machine
end

section
/-!
PROOF. Frames to and from the host (R271, R274, R275, R278, R281): the buckets filled up, a transmit turn, and what becomes of the head
frame of a receive ring's delivery queue. Settles O44.
-/

namespace Sys2Proof.Machine

/-! ### HOST_CAP_REFILL (R281) -/

theorem hostCapRefill_finishes {s : State} (h : s.Runs) : Finishes .hostCapRefill s (hostCapRefill s) := done_runs h

/-- A refill touches the two buckets alone. -/
theorem hostCapRefill_frame (s : State) : { hostCapRefill s with
    host := { (hostCapRefill s).host with rxTok := s.host.rxTok, txTok := s.host.txTok } } = s := rfl

/-- A bucket's level after a refill: RATE held to 1 to 200, in 125 half bytes each, up to 65,536 bytes. -/
def State.capFilled (s : State) (level : Int) : Int := min 131072 (level + (125 * max 1 (min 200 (s.rd F.HDMA_CAP 0)) : Nat))

theorem hostCapRefill_rxTok (s : State) : (hostCapRefill s).host.rxTok = s.capFilled s.host.rxTok := rfl
theorem hostCapRefill_txTok (s : State) : (hostCapRefill s).host.txTok = s.capFilled s.host.txTok := rfl

theorem State.capFilled_eq (s : State) (level : Int) :
    s.capFilled level = min 131072 (level + 125 * (max 1 (min 200 (s.rd F.HDMA_CAP 0)) : Nat)) := by
  rw [State.capFilled, Int.natCast_mul]
  rfl

/-! ### HOST_TX_FETCH (R271, R278, R281) -/

theorem hostTxFetch_finishes {s : State} (h : s.Runs) (ds : List (List Byte × List Byte)) :
    Finishes (.hostTxFetch ds) s (hostTxFetch ds s) := done_runs h

section
variable {s : State} (ds : List (List Byte × List Byte))

/-- Nothing is fetched without the host, with the bucket used up, or with nothing posted. -/
theorem hostTxFetch_ignored (h : s.hostUp = false ∨ s.host.txTok ≤ 0 ∨ s.nextTx = none) : hostTxFetch ds s = s := by
  unfold hostTxFetch
  rcases h with hdown | hempty | hnone
  · exact if_pos (by simp [hdown])
  · exact if_pos (by simp [hempty])
  · rw [hnone]
    exact ite_self _

theorem hostTxFetch_turn {r : Nat} (hup : s.hostUp = true) (htok : 0 < s.host.txTok) (hnext : s.nextTx = some r) :
    hostTxFetch ds s = { s with host := { s.host with lastTx := r } }.txTurn r ds := by
  rw [hostTxFetch, if_neg (by simpa [hup] using htok), hnext]

end

/-! ### RING_DELIVERY (R271, R274, R275, R281) -/

theorem ringDelivery_finishes {s : State} (h : s.Runs) (r : Fin 128) (bufs : List (BitVec 64)) (rd : FsRead) :
    Finishes (.ringDelivery r bufs rd) s (ringDelivery r bufs rd s) := done_runs h

section
variable {s : State} {r : Nat} {x : QFrame} (bufs : List (BitVec 64)) (rd : FsRead)

theorem ringDelivery_of_none (h : s.deliverable (qRing r) = none) : ringDelivery r bufs rd s = s := by
  rw [ringDelivery, h]

variable (hx : s.deliverable (qRing r) = some x)
include hx

theorem ringDelivery_no_host (hdown : s.hostUp = false) :
    ringDelivery r bufs rd s = (s.takeDelivery (qRing r) x).inc F.HDMA_NOHOST 0 := by
  rw [ringDelivery, hx, hdown]
  rfl

variable (hup : s.hostUp = true)
include hup

/-- With the host up, a ring's frame waits while the ring is disabled. -/
theorem ringDelivery_disabled (hen : s.on F.HDMA_RING_CFG_EN r = false) : ringDelivery r bufs rd s = s := by
  rw [ringDelivery, hx, hup, hen]
  rfl

theorem ringDelivery_empty (hen : s.on F.HDMA_RING_CFG_EN r = true) (hempty : s.on F.HDMA_RING_STAT_EMPTY r = true) :
    ringDelivery r bufs rd s = (s.takeDelivery (qRing r) x).inc F.HDMA_RING_EMPTY r := by
  rw [ringDelivery, hx, hup, hen, hempty]
  rfl

variable (hposted : s.on F.HDMA_RING_STAT_EMPTY r = false)
include hposted

/-- A ring in use delivers as far as the bucket goes. -/
theorem ringDelivery_posted (hen : s.on F.HDMA_RING_CFG_EN r = true) :
    ringDelivery r bufs rd s = if s.host.rxTok ≤ 0 then s else s.ringFrame r x bufs rd := by
  rw [ringDelivery, hx, hup, hen, hposted]
  rfl

/-- A frame waits while the bucket is used up. -/
theorem ringDelivery_waits (htok : s.host.rxTok ≤ 0) : ringDelivery r bufs rd s = s := by
  cases hen : s.on F.HDMA_RING_CFG_EN r with
  | false => exact ringDelivery_disabled bufs rd hx hup hen
  | true => rw [ringDelivery_posted bufs rd hx hup hposted hen, if_pos htok]

end

/-! ### The statement -/

/-- Settles O44: the buckets by their levels, a turn by what it needs, and a ring's head frame by the host, the ring and the bucket. -/
theorem hostTransfers : Obligations.HostTransfers := by
  refine ⟨fun s hs => ⟨⟨_, hostCapRefill_finishes hs, hostCapRefill_frame s, (hostCapRefill_rxTok s).trans (s.capFilled_eq _),
    (hostCapRefill_txTok s).trans (s.capFilled_eq _)⟩, fun ds h => ?idle, fun ds r hup htok hnext => ?turn⟩, fun s r bufs rd hs => ?_⟩
  case idle =>
    have hfin := hostTxFetch_finishes hs ds
    rwa [hostTxFetch_ignored ds h] at hfin
  case turn =>
    have hfin := hostTxFetch_finishes hs ds
    rwa [hostTxFetch_turn ds hup htok hnext] at hfin
  have hfin := ringDelivery_finishes hs r bufs rd
  refine ⟨fun hnone => ?none, fun x hx => ⟨fun hdown => ?noHost, fun hup hen => ?disabled, fun hup hen hempty => ?empty,
    fun htok hup hposted => ?waits, fun hup hen hposted htok => ?delivered⟩⟩
  case none => rwa [ringDelivery_of_none bufs rd hnone] at hfin
  case noHost => rwa [ringDelivery_no_host bufs rd hx hdown] at hfin
  case disabled => rwa [ringDelivery_disabled bufs rd hx hup hen] at hfin
  case empty => rwa [ringDelivery_empty bufs rd hx hup hen hempty] at hfin
  case waits => rwa [ringDelivery_waits bufs rd hx hup hposted htok] at hfin
  case delivered => rwa [ringDelivery_posted bufs rd hx hup hposted hen, if_neg (Int.not_le.mpr htok)] at hfin

end Sys2Proof.Machine
end

section
/-!
PROOF. The rings' registers (R272, R282, R283): TAIL written, a ring enabled, an access error, and the moderation timer. A frame
dropped, an event raised and a fault watched leave the registers of the HDMA region alone. Settles O45.
-/

namespace Sys2Proof.Machine

/-! ### What leaves the HDMA region alone -/

/-- The registers of the HDMA region. -/
def State.hdma (s : State) (i off : Nat) : Word := s.reg i (0xA0000 + off % 0x10000)

/-- A field of the region is a matter of its registers. -/
theorem State.rd_of_hdma {s t : State} (h : t.hdma = s.hdma) {f : Fld} (hf : f.off / 0x10000 = 0xA) (i : Nat) :
    t.rd f i = s.rd f i := by
  have hoff : 0xA0000 + f.off % 0x10000 = f.off := by omega
  have hreg : t.reg i (0xA0000 + f.off % 0x10000) = s.reg i (0xA0000 + f.off % 0x10000) := congrFun (congrFun h i) f.off
  rw [State.rd, ← hoff, hreg, hoff, ← State.rd]

/-- A write of a register outside the region leaves the region alone. -/
theorem State.hdma_wr (s : State) {f : Fld} (i v : Nat) (hf : f.off < 0x100000) (hne : f.off / 0x10000 ≠ 0xA) :
    (s.wr f i v).hdma = s.hdma :=
  funext fun _ => funext fun off => s.reg_setReg_ne _ (rkey_ne_of_off (by omega) hf (by omega))

theorem State.hdma_inc (s : State) {f : Fld} (i : Nat) (hf : f.off < 0x100000) (hne : f.off / 0x10000 ≠ 0xA) :
    (s.inc f i).hdma = s.hdma := s.hdma_wr i _ hf hne

@[simp] theorem State.dequeue_hdma (s : State) (q : Nat) : (s.dequeue q).hdma = s.hdma := rfl
@[simp] theorem State.countDrain_hdma (s : State) (q n : Nat) : (s.countDrain q n).hdma = s.hdma := rfl
@[simp] theorem State.freeCells_hdma (s : State) (xs : List Nat) : (s.freeCells xs).hdma = s.hdma := rfl
@[simp] theorem State.setDeepFr_hdma (s : State) (id : Nat) (x : DeepFr) : (s.setDeepFr id x).hdma = s.hdma := rfl
@[simp] theorem State.setTxJob_hdma (s : State) (r : Nat) (j : TxJob) : (s.setTxJob r j).hdma = s.hdma := rfl
@[simp] theorem State.setWatch_hdma (s : State) (src inst : Nat) (w : Watch) : (s.setWatch src inst w).hdma = s.hdma := rfl
@[simp] theorem State.log_hdma (s : State) (code req index : Nat) (data : List Nat) : (s.log code req index data).hdma = s.hdma := rfl
@[simp] theorem State.emit_hdma (s : State) (o : Out) : (s.emit o).hdma = s.hdma := rfl

/-! ### A frame's cells freed (R186, R192) -/

@[simp] theorem State.freeFs_hdma (s : State) (xs : List Nat) : (s.freeFs xs).hdma = s.hdma := by
  unfold State.freeFs
  exact foldl_keeps State.hdma (fun s x => s.hdma_inc (f := F.OCT_STORE_RETIRED) _ (by decide) (by decide)) _ _

@[simp] theorem State.noteUse_hdma (s : State) (o : Nat) : (s.noteUse o).hdma = s.hdma := by
  have huse (u : Nat) : (s.wr F.OCT_STORE_USE o u).hdma = s.hdma := s.hdma_wr o u (by decide) (by decide)
  unfold State.noteUse
  dsimp only
  split
  · exact (State.hdma_wr _ _ _ (by decide) (by decide)).trans (huse _)
  · exact huse _

@[simp] theorem State.setHeld_hdma (s : State) (o n : Nat) : (s.setHeld o n).hdma = s.hdma := State.noteUse_hdma _ _
@[simp] theorem State.setPool_hdma (s : State) (o n : Nat) : (s.setPool o n).hdma = s.hdma := State.noteUse_hdma _ _

@[simp] theorem State.chUse_hdma (s : State) (x : QFrame) (n : Nat) : (s.chUse x n).hdma = s.hdma := by
  unfold State.chUse
  split
  · exact s.hdma_wr _ _ (by decide) (by decide)
  · rfl

@[simp] theorem State.reclaimLost_hdma (s : State) : s.reclaimLost.hdma = s.hdma := by
  unfold State.reclaimLost
  split <;> rfl

@[simp] theorem State.clearDeep_hdma (s : State) (id : Nat) : (s.clearDeep id).hdma = s.hdma := by
  unfold State.clearDeep
  dsimp only
  rw [State.setDeepFr_hdma, State.freeFs_hdma]
  split <;> rfl

@[simp] theorem State.dropDeep_hdma (s : State) (id : Nat) (withAdv : Bool) : (s.dropDeep id withAdv).hdma = s.hdma := by
  rw [State.dropDeep, State.reclaimLost_hdma, State.clearDeep_hdma, State.freeCells_hdma]

@[simp] theorem State.release_hdma (s : State) (x : QFrame) : (s.release x).hdma = s.hdma := by
  unfold State.release
  split
  · exact s.dropDeep_hdma _ _
  · split
    · rw [State.setPool_hdma, State.freeFs_hdma]
    · rw [State.setHeld_hdma, State.freeFs_hdma, State.chUse_hdma]

@[simp] theorem State.takeDelivery_hdma (s : State) (q : Nat) (x : QFrame) : (s.takeDelivery q x).hdma = s.hdma := by
  rw [State.takeDelivery, State.release_hdma, State.countDrain_hdma, State.dequeue_hdma]

/-! ### An event raised and a fault watched (R320, R400, R404) -/

@[simp] theorem State.eventTask_hdma (s : State) (t : Nat) : (s.eventTask t).hdma = s.hdma := by
  unfold State.eventTask
  extract_lets counted st
  have hcounted : counted.hdma = s.hdma := by
    simp only [counted]
    split
    · exact s.hdma_inc _ (by decide) (by decide)
    · exact s.hdma_wr _ _ (by decide) (by decide)
  split
  · exact hcounted
  · exact hcounted

@[simp] theorem State.raise_hdma (s : State) (cls idx : Nat) : (s.raise cls idx).hdma = s.hdma := by
  unfold State.raise
  split
  · exact s.hdma_inc _ (by decide) (by decide)
  · exact foldl_keeps State.hdma State.eventTask_hdma _ _

@[simp] theorem State.msix_hdma (s : State) (vec : Nat) : (s.msix vec).hdma = s.hdma := by
  unfold State.msix
  split
  · split <;> rfl
  · rfl

/-- A lasting fault of a ring has no action that changes the state (Table: Fault actions). -/
theorem State.applyAction_ring (s : State) (inst action : Nat) : (s.applyAction fsRingErr inst action).1 = s := by
  unfold State.applyAction
  split
  · rfl
  · split
    · rfl
    · split <;> rfl

@[simp] theorem State.lastingBegin_ring_hdma (s : State) (inst : Nat) : (s.lastingBegin fsRingErr inst).hdma = s.hdma := by
  unfold State.lastingBegin
  extract_lets action wc r t w place marked logged raised
  have hraised : raised.hdma = s.hdma := by
    simp only [raised, logged, marked, t, r, State.raise_hdma, State.log_hdma, State.setWatch_hdma, State.applyAction_ring]
  split
  · rw [State.msix_hdma, hraised]
  · exact hraised

/-- An event counted makes the fault lasting or does not. -/
@[simp] theorem State.countEvent_ring_hdma (s : State) (inst : Nat) : (s.countEvent fsRingErr inst).hdma = s.hdma := by
  unfold State.countEvent
  extract_lets w n ticks counted
  rw [apply_ite State.hdma, State.lastingBegin_ring_hdma, ite_self, State.setWatch_hdma]

@[simp] theorem State.watch_ring_hdma (s : State) (inst : Nat) : (s.watch fsRingErr inst).hdma = s.hdma := by
  have hcount : (s.inc F.FLT_INST_TOTAL (256 * fsRingErr + inst)).hdma = s.hdma := s.hdma_inc _ (by decide) (by decide)
  unfold State.watch
  dsimp only
  split
  · rw [State.countEvent_ring_hdma, hcount]
  · exact hcount

/-! ### The fields of a ring -/

theorem HDMA_RING_TAIL_ok : F.HDMA_RING_TAIL.ok := ⟨by decide, by decide⟩
theorem HDMA_RING_HEAD_ok : F.HDMA_RING_HEAD.ok := ⟨by decide, by decide⟩
theorem HDMA_RING_CFG_EN_ok : F.HDMA_RING_CFG_EN.ok := ⟨by decide, by decide⟩
theorem HDMA_RING_STAT_ERR_ok : F.HDMA_RING_STAT_ERR.ok := ⟨by decide, by decide⟩

/-- A ring has at most as many descriptors as HEAD can tell apart. -/
theorem State.ringSize_le (s : State) (r : Nat) : s.ringSize r ≤ 2 ^ 16 := Nat.pow_le_pow_right (by decide) (by omega)

theorem State.ringSize_of_hdma {s t : State} (h : t.hdma = s.hdma) (r : Nat) : t.ringSize r = s.ringSize r := by
  rw [State.ringSize, State.rd_of_hdma h rfl, ← State.ringSize]

theorem State.ringAvail_of_hdma {s t : State} (h : t.hdma = s.hdma) (r : Nat) : t.ringAvail r = s.ringAvail r := by
  rw [State.ringAvail, State.ringSize_of_hdma h, State.rd_of_hdma h rfl, State.rd_of_hdma h rfl, ← State.ringAvail]

theorem State.hostWrite_eff (s : State) (addr : Nat) (bytes : List Byte) : (s.hostWrite addr bytes).eff = s.eff := by
  refine foldl_keeps State.eff (fun s p => ?_) _ _
  rfl

/-- The registers are those in effect. -/
theorem State.rd_of_eff {s t : State} (h : t.eff = s.eff) (f : Fld) (i : Nat) : t.rd f i = s.rd f i := by
  rw [State.rd, State.reg, h, ← State.reg, ← State.rd]

/-- HEAD goes round the ring. -/
theorem State.advanceHead_head (s : State) (r n : Nat) :
    (s.advanceHead r n).rd F.HDMA_RING_HEAD r = (s.rd F.HDMA_RING_HEAD r + n) % s.ringSize r := by
  have hsize : 0 < s.ringSize r := Nat.two_pow_pos _
  have hlt := Nat.lt_of_lt_of_le (Nat.mod_lt (s.rd F.HDMA_RING_HEAD r + n) hsize) (s.ringSize_le r)
  have hwr : (s.wr F.HDMA_RING_HEAD r ((s.rd F.HDMA_RING_HEAD r + n) % s.ringSize r)).rd F.HDMA_RING_HEAD r = _ :=
    (s.rd_wr_same _ _ _ HDMA_RING_HEAD_ok).trans (Nat.mod_eq_of_lt hlt)
  unfold State.advanceHead
  dsimp only
  split
  · rw [State.rd_of_eff (State.hostWrite_eff _ _ _), hwr]
  · exact hwr

/-! ### TAIL_WRITE (R272, R275) -/

@[simp] theorem State.foldWrites_eff (s : State) (req off : Nat) (insts : List Nat) : (s.foldWrites req off insts).eff = s.eff := by
  unfold State.foldWrites
  induction insts generalizing s with
  | nil => rfl
  | cons i l ih => rw [List.foldl_cons, ih, State.foldWrite_eff]

theorem State.writeTail_ignored {s : State} {r tail : Nat} (h : s.ringSize r ≤ tail) : s.writeTail r tail = s := if_pos h

theorem State.writeTail_taken {s : State} {r : Nat} (t : BitVec 16) (h : t.toNat < s.ringSize r) :
    (s.writeTail r t.toNat).rd F.HDMA_RING_TAIL r = t.toNat := by
  have hwr : (s.wr F.HDMA_RING_TAIL r t.toNat).rd F.HDMA_RING_TAIL r = t.toNat :=
    (s.rd_wr_same _ _ _ HDMA_RING_TAIL_ok).trans (Nat.mod_eq_of_lt t.isLt)
  unfold State.writeTail
  rw [if_neg (Nat.not_le.mpr h)]
  dsimp only
  split
  · rw [State.rd_wr_off _ _ _ (by decide), hwr]
  · exact hwr

/-- What TAIL_WRITE brings on a ring: its TAIL, folded where it is taken, and noted for its device cycle. -/
def State.tailWritten (s : State) (req r tail : Nat) : State :=
  ((((s.newAccess req).writeTail r tail).foldWrites req F.HDMA_RING_TAIL.off (if tail < (s.newAccess req).ringSize r then [r] else []))
    ).noteWrite req (rkey r F.HDMA_RING_TAIL.off) 0xFFFFFFFF

/-- A write that no higher requester overrules is carried out and noted. -/
theorem tailWrite_finishes {s : State} {req : Fin 19} {r : Nat} (h : s.Takes req) (halone : s.Alone req) (hr : r < 256)
    (hsel : s.rd F.RINGSEL req = r) (t : BitVec 16) : Finishes (.tailWrite req t) s (s.tailWritten req r t.toNat) := by
  have hfin : Finishes (.tailWrite req t) s _ := doneWrite_takes h
  rwa [State.ordered_alone halone, hsel, Nat.mod_eq_of_lt hr] at hfin

theorem State.tailWritten_rd (s : State) (req r tail : Nat) (f : Fld) (i : Nat) :
    (s.tailWritten req r tail).rd f i = ((s.newAccess req).writeTail r tail).rd f i :=
  State.rd_of_eff ((State.noteWrite_eff _ _ _ _).trans (State.foldWrites_eff _ _ _ _)) f i

/-! ### RING_ENABLE (R272) -/

theorem ringEnable_finishes {s : State} {req : Fin 19} {r : Nat} (h : s.Takes req) (hr : r < 256) (hsel : s.rd F.RINGSEL req = r) :
    Finishes (.ringEnable req) s ((s.enableRing r).foldWrites req F.HDMA_RING_CFG.off [r]) := by
  have hfin : Finishes (.ringEnable req) s _ := doneWrite_takes h
  rwa [hsel, Nat.mod_eq_of_lt hr] at hfin

theorem State.enableRing_enabled {s : State} {r : Nat} (h : s.on F.HDMA_RING_CFG_EN r = true) : s.enableRing r = s := if_pos h

/-- A ring that was disabled starts anew. -/
theorem State.enableRing_started {s : State} {r : Nat} (h : s.on F.HDMA_RING_CFG_EN r = false) :
    (s.enableRing r).rd F.HDMA_RING_CFG_EN r = 1 ∧ (s.enableRing r).rd F.HDMA_RING_HEAD r = 0 ∧
      (s.enableRing r).rd F.HDMA_RING_TAIL r = 0 ∧ (s.enableRing r).rd F.HDMA_RING_STAT_ERR r = 0 := by
  rw [State.enableRing, if_neg (by simp [h])]
  refine ⟨?_, ?_, ?_, State.rd_wr_same _ _ _ _ HDMA_RING_STAT_ERR_ok⟩
  · rw [State.rd_wr_off _ _ _ (by decide), State.rd_wr_off _ _ _ (by decide), State.rd_wr_off _ _ _ (by decide)]
    exact State.rd_wr_same _ _ _ _ HDMA_RING_CFG_EN_ok
  · rw [State.rd_wr_off _ _ _ (by decide), State.rd_wr_off _ _ _ (by decide)]
    exact State.rd_wr_same _ _ _ _ HDMA_RING_HEAD_ok
  · rw [State.rd_wr_off _ _ _ (by decide)]
    exact State.rd_wr_same _ _ _ _ HDMA_RING_TAIL_ok

/-! ### RING_ACCESS_ERROR (R282) -/

theorem ringAccessError_finishes {s : State} (h : s.Runs) (i : Fin 256) (f : RingFault) :
    Finishes (.ringAccessError i f) s (ringAccessError i f.status.toNat f.desc.toNat s) := done_runs h

section
variable {s : State} {r : Nat} (status desc : Nat)

theorem ringAccessError_disabled (h : s.on F.HDMA_RING_CFG_EN r = false) : ringAccessError r status desc s = s := if_pos (by simp [h])

/-- The frame whose transfer failed is given up: a receive ring's head frame, a transmit ring's send. -/
def State.giveUp (s : State) (r : Nat) : State :=
  if r < 128 then (match s.deliverable (qRing r) with | some x => s.takeDelivery (qRing r) x | none => s) else s.setTxJob r TxJob.none

@[simp] theorem State.giveUp_hdma : (s.giveUp r).hdma = s.hdma := by
  unfold State.giveUp
  split
  · split
    · exact s.takeDelivery_hdma _ _
    · rfl
  · exact s.setTxJob_hdma _ _

/-- The ring disabled with ERR set, behind HEAD gone on. -/
def State.ringFailed (s : State) (r desc : Nat) : State :=
  (((s.giveUp r).advanceHead r (min desc ((s.giveUp r).ringAvail r))).wr F.HDMA_RING_STAT_ERR r 1).wr F.HDMA_RING_CFG_EN r 0

theorem State.ringFailed_en : (s.ringFailed r desc).rd F.HDMA_RING_CFG_EN r = 0 := State.rd_wr_same _ _ _ _ HDMA_RING_CFG_EN_ok

theorem State.ringFailed_err : (s.ringFailed r desc).rd F.HDMA_RING_STAT_ERR r = 1 := by
  rw [State.ringFailed, State.rd_wr_off _ _ _ (by decide)]
  exact State.rd_wr_same _ _ _ _ HDMA_RING_STAT_ERR_ok

/-- HEAD goes on to the descriptor that failed, of those posted. -/
theorem State.ringFailed_head : (s.ringFailed r desc).rd F.HDMA_RING_HEAD r =
    (s.rd F.HDMA_RING_HEAD r + min desc (s.ringAvail r)) % s.ringSize r := by
  rw [State.ringFailed, State.rd_wr_off _ _ _ (by decide), State.rd_wr_off _ _ _ (by decide), State.advanceHead_head,
    State.ringAvail_of_hdma State.giveUp_hdma, State.ringSize_of_hdma State.giveUp_hdma, State.rd_of_hdma State.giveUp_hdma rfl]

theorem ringAccessError_enabled (h : s.on F.HDMA_RING_CFG_EN r = true) : ringAccessError r status desc s =
    (((s.ringFailed r desc).log 0x0A01 engineReq r [status]).emit (.aer r)).watch fsRingErr r := by
  rw [ringAccessError, if_neg (by simp [h])]
  rfl

/-- The entry, the message and the fault that follow leave the ring as it failed. -/
theorem ringAccessError_hdma (h : s.on F.HDMA_RING_CFG_EN r = true) :
    (ringAccessError r status desc s).hdma = (s.ringFailed r desc).hdma := by
  rw [ringAccessError_enabled status desc h, State.watch_ring_hdma, State.emit_hdma, State.log_hdma]

end

/-! ### INTERRUPT_TIMER (R283) -/

theorem interruptTimer_finishes {s : State} (h : s.Runs) (i : Fin 256) : Finishes (.interruptTimer i) s (interruptTimer i s) :=
  done_runs h

section
variable {s : State} {r : Nat}

theorem interruptTimer_ignored (h : s.on F.HDMA_RING_IRQ_EN r = false ∨ s.rd F.HDMA_RING_IRQ_TIME_US r = 0 ∨ s.unsig r = 0 ∨
    s.pegs.cyc < tget (fun _ => 0) s.host.unsigAt r + 2000 * s.rd F.HDMA_RING_IRQ_TIME_US r) : interruptTimer r s = s := by
  refine if_neg ?_
  rcases h with hoff | hzero | hnone | hearly
  · simp [hoff]
  · simp [hzero]
  · simp [hnone]
  · rw [decide_eq_false (Nat.not_le.mpr hearly), Bool.and_false]
    exact Bool.false_ne_true

theorem interruptTimer_due (hen : s.on F.HDMA_RING_IRQ_EN r = true) (htime : s.rd F.HDMA_RING_IRQ_TIME_US r ≠ 0)
    (hcount : s.unsig r ≠ 0) (hdue : tget (fun _ => 0) s.host.unsigAt r + 2000 * s.rd F.HDMA_RING_IRQ_TIME_US r ≤ s.pegs.cyc) :
    interruptTimer r s = s.signalRing r :=
  if_pos (by simp [hen, htime, hcount, hdue])

end

/-! ### The statement -/

/-- Settles O45: each command by whether it acts, and an access error by the ring as it failed. -/
theorem ringControl : Obligations.RingControl := by
  intro s r hs hr
  refine ⟨fun req t htakes halone hsel => ?tail, fun req htakes hsel hoff => ?enable, fun req htakes hsel hon => ?again,
    fun i hi hoff f => ?disabled, fun i hi hon f => ?error, fun i hi h => ?early, fun i hi hen htime hcount hdue => ?due⟩
  case tail =>
    refine ⟨_, tailWrite_finishes htakes halone hr hsel t, fun hlt => ?_, fun hle => ?_⟩
    · rw [State.tailWritten_rd]
      exact State.writeTail_taken t hlt
    · rw [State.tailWritten_rd, State.writeTail_ignored (s := s.newAccess req) hle]
      rfl
  case enable =>
    obtain ⟨hen, hhead, htail, herr⟩ := State.enableRing_started hoff
    have heff := (s.enableRing r).foldWrites_eff req F.HDMA_RING_CFG.off [r]
    exact ⟨_, ringEnable_finishes htakes hr hsel, (State.rd_of_eff heff _ _).trans hen, (State.rd_of_eff heff _ _).trans hhead,
      (State.rd_of_eff heff _ _).trans htail, (State.rd_of_eff heff _ _).trans herr⟩
  case again =>
    have hfin := ringEnable_finishes htakes hr hsel
    rwa [State.enableRing_enabled hon] at hfin
  case disabled =>
    subst hi
    have hfin := ringAccessError_finishes hs i f
    rwa [ringAccessError_disabled _ _ hoff] at hfin
  case error =>
    subst hi
    have hring := ringAccessError_hdma f.status.toNat f.desc.toNat hon
    exact ⟨_, ringAccessError_finishes hs i f, (State.rd_of_hdma hring rfl _).trans (State.ringFailed_en _),
      (State.rd_of_hdma hring rfl _).trans (State.ringFailed_err _), (State.rd_of_hdma hring rfl _).trans (State.ringFailed_head _)⟩
  case early =>
    subst hi
    have hfin := interruptTimer_finishes hs i
    rwa [interruptTimer_ignored h] at hfin
  case due =>
    subst hi
    have hfin := interruptTimer_finishes hs i
    rwa [interruptTimer_due hen htime hcount hdue] at hfin

end Sys2Proof.Machine
end

section
/-!
PROOF. The PCI Express function (R269, R271): its link and bus mastering, and what a reset of it empties. Settles O46.
-/

namespace Sys2Proof.Machine

/-! ### Entries taken out of a table by their keys -/

/-- A key left in a table reads as before, one taken out as the default. -/
theorem tget_filter_key {α : Type} (d : Nat → α) (keep : Nat → Bool) (t : Tab α) (k : Nat) :
    tget d (t.filter (fun e => keep e.1)) k = if keep k then tget d t k else d k := by
  have hfind : tfind (t.filter (fun e => keep e.1)) k = if keep k then tfind t k else none := by
    induction t with
    | nil => exact (ite_self _).symm
    | cons e t ih =>
      rw [List.filter_cons]
      by_cases hk : e.1 = k
      · subst hk
        cases hkeep : keep e.1 with
        | false => simpa [hkeep] using ih
        | true => simp [tfind]
      · split <;> simp [tfind, hk, ih]
  rw [tget, hfind]
  split <;> rfl

/-! ### The link and Bus Master Enable (R269, R271) -/

theorem pcieLinkDown_finishes (s : State) (link : Bool) : Finishes (.pcieLinkDown link) s (pcieLinkDown link s) := rfl
theorem pcieLinkUp_finishes (s : State) (up : PcieUp) : Finishes (.pcieLinkUp up) s (pcieLinkUp up s) := rfl

/-- Vectors sent one after another only leave the engine. -/
theorem State.foldr_emit (s : State) (f : Nat → Out) (l : List Nat) :
    l.foldr (fun v s => s.emit (f v)) s = { s with out := l.map f ++ s.out } := by
  induction l with
  | nil => rfl
  | cons v l ih =>
    rw [List.foldr_cons, ih]
    rfl

/-- The vectors that can be sent leave the pending ones and the engine. -/
theorem State.sendPending_frame (s : State) : s.sendPending =
    { s with host := { s.host with msixPend := s.sendPending.host.msixPend }, out := s.sendPending.out } := by
  unfold State.sendPending
  split
  · rfl
  · dsimp only
    rw [State.foldr_emit]

theorem State.sendPending_none {s : State} (h : s.host.msixPend = []) :
    s.sendPending.host.msixPend = [] ∧ s.sendPending.out = s.out := by
  unfold State.sendPending
  split
  · exact ⟨h, rfl⟩
  · dsimp only
    rw [h]
    exact ⟨rfl, rfl⟩

/-- What comes up is the host's part changed, and the vectors then sent. -/
theorem State.sendPending_of_host (s : State) (h : HostIf) {u : State} (hu : u = { s with host := h }.sendPending) :
    u.host = { h with msixPend := u.host.msixPend } ∧ { u with host := s.host, out := s.out } = s ∧
      (h.msixPend = [] → u.host.msixPend = [] ∧ u.out = s.out) := by
  subst hu
  refine ⟨congrArg State.host (State.sendPending_frame _), ?_, State.sendPending_none (s := { s with host := h })⟩
  rw [State.sendPending_frame]

/-! ### PCIE_RESET (R271) -/

theorem pcieReset_finishes (s : State) : Finishes .pcieReset s (pcieReset s) := rfl

/-- Whether a register key lies in the HDMA region. -/
def inHdma (k : Nat) : Bool := k % 0x100000 / 0x10000 == 0xA

/-- Whether a register key is one of a requester's banked copies. -/
def bankKey (req k : Nat) : Bool :=
  match findRow (k % 0x100000) with
  | some r => (r.bank == .req && decide (k / 0x100000 = req)) || (r.bank == .reqChan && decide (k / 0x100000 / 64 = req))
  | none => false

section
variable (s : State)

/-- The registers left are those outside the HDMA region and requester 0's banks. -/
theorem pcieReset_eff : (pcieReset s).eff = (s.eff.filter (fun e => !inHdma e.1)).filter (fun e => !bankKey 0 e.1) := rfl

theorem pcieReset_stage : (pcieReset s).cls.stage = s.cls.stage.filter (fun e => e.1 != 0) := rfl

/-- A register of either kind reads its reset value. -/
theorem pcieReset_reg {i off : Nat} (h : inHdma (rkey i off) = true ∨ bankKey 0 (rkey i off) = true) :
    (pcieReset s).reg i off = regReset (rkey i off) := by
  rw [State.reg, pcieReset_eff, tget_filter_key _ (fun k => !bankKey 0 k), tget_filter_key _ (fun k => !inHdma k)]
  rcases h with hhdma | hbank
  · rw [hhdma, Bool.not_true, if_neg Bool.false_ne_true, ite_self]
  · rw [hbank, Bool.not_true, if_neg Bool.false_ne_true]

/-- The HDMA region takes its reset values. -/
theorem pcieReset_hdma (i : Nat) {off : Nat} (hlt : off < 0x100000) (hreg : off / 0x10000 = 0xA) :
    (pcieReset s).reg i off = regReset (rkey i off) := by
  have hmod : rkey i off % 0x100000 = off := (Nat.mul_add_mod' _ _ _).trans (Nat.mod_eq_of_lt hlt)
  exact pcieReset_reg s (.inl (by rw [inHdma, hmod, hreg, beq_self_eq_true]))

/-- Requester 0's select of channels is one of its banked copies. -/
theorem pcieReset_chsel : (pcieReset s).reg 0 F.CHSEL_CH.off = 0#32 := by
  have hbank : bankKey 0 (rkey 0 F.CHSEL_CH.off) = true := by decide +kernel
  have hzero : regReset (rkey 0 F.CHSEL_CH.off) = 0#32 := by decide +kernel
  rw [pcieReset_reg s (.inr hbank), hzero]

theorem pcieReset_no_stage : ∀ e ∈ (pcieReset s).cls.stage, e.1 ≠ 0 := by
  intro e he
  rw [pcieReset_stage] at he
  obtain ⟨-, hne⟩ := List.mem_filter.mp he
  exact bne_iff_ne.mp hne

end

/-! ### The statement -/

/-- Settles O46: what goes down is a flag of the host's part, what comes up sends what was pending, and a reset takes the entries of
two kinds of registers out of the table of values in effect. -/
theorem pciExpress : Obligations.PciExpress := fun s =>
  ⟨⟨_, pcieLinkDown_finishes s true, rfl, rfl⟩, ⟨_, pcieLinkDown_finishes s false, rfl, rfl⟩,
    fun w r => ⟨_, pcieLinkUp_finishes s (.link w r), s.sendPending_of_host _ rfl⟩,
    fun p q => ⟨_, pcieLinkUp_finishes s (.master p q), s.sendPending_of_host _ rfl⟩,
    ⟨_, pcieReset_finishes s, fun i _ => pcieReset_hdma s i, pcieReset_chsel s, pcieReset_no_stage s, rfl, rfl, rfl,
      rfl, rfl⟩⟩

end Sys2Proof.Machine
end

section
/-!
PROOF. The map-out of a device (R305, R306): what its commands leave of MEM_MAPOUT, MEM_STAT and the use of the device's
channels. Settles O49.
-/

namespace Sys2Proof.Machine

/-! ### Steps made for each number below another -/

/-- What a step brings for its number, and a step for another number leaves, holds of every number behind them all. -/
theorem foldl_range_holds {P : Nat → State → Prop} {f : State → Nat → State} (hset : ∀ s i, P i (f s i))
    (hkeep : ∀ s i j, i ≠ j → P i s → P i (f s j)) (s : State) {n i : Nat} (hi : i < n) : P i ((List.range n).foldl f s) := by
  induction n with
  | zero => omega
  | succ n ih =>
    rw [List.range_succ, List.foldl_append]
    by_cases hn : i = n
    · subst hn
      exact hset _ _
    · exact hkeep _ _ _ hn (ih (by omega))

/-! ### What writes leave alone -/

/-- A write at another offset leaves a field alone, in every instance. -/
theorem State.rd_wr_apart (s : State) {f g : Fld} (i j v : Nat) (hf : f.off < 0x100000) (hg : g.off < 0x100000) (h : g.off ≠ f.off) :
    (s.wr f i v).rd g j = s.rd g j := s.rd_wr_reg v (rkey_ne_of_off hg hf h)

theorem State.rd_inc_apart (s : State) {f g : Fld} (i j : Nat) (hf : f.off < 0x100000) (hg : g.off < 0x100000) (h : g.off ≠ f.off) :
    (s.inc f i).rd g j = s.rd g j := s.rd_wr_apart i j _ hf hg h

/-- A write of another instance leaves a field of the register alone. -/
theorem State.rd_wr_inst (s : State) {f g : Fld} {i j : Nat} (v : Nat) (hf : f.off < 0x100000) (hg : g.off < 0x100000) (h : j ≠ i) :
    (s.wr f i v).rd g j = s.rd g j := s.rd_wr_reg v (fun he => h ((rkey_inj hg hf).mp he).1)

/-- The fold of a write leaves the deep store alone. -/
@[simp] theorem State.foldWrite_mem (s : State) (req k : Nat) : (s.foldWrite req k).mem = s.mem := by
  unfold State.foldWrite
  split
  · rfl
  · rw [State.foldValue_frame]

@[simp] theorem State.foldWrites_mem (s : State) (req off : Nat) (insts : List Nat) : (s.foldWrites req off insts).mem = s.mem := by
  unfold State.foldWrites
  induction insts generalizing s with
  | nil => rfl
  | cons i l ih => rw [List.foldl_cons, ih, State.foldWrite_mem]

theorem State.foldWrites_rd (s : State) (req off : Nat) (insts : List Nat) (f : Fld) (i : Nat) :
    (s.foldWrites req off insts).rd f i = s.rd f i := State.rd_of_eff (s.foldWrites_eff _ _ _) _ _

theorem State.rd_withMem (s : State) (x : Mem) (f : Fld) (i : Nat) : ({ s with mem := x } : State).rd f i = s.rd f i := rfl

/-! ### The registers of a map-out -/

theorem MEM_MAPOUT_STATE_ok : F.MEM_MAPOUT_STATE.ok := ⟨by decide, by decide⟩
theorem MEM_MAPOUT_DEV_ok : F.MEM_MAPOUT_DEV.ok := ⟨by decide, by decide⟩
theorem MEM_MAPOUT_REFUSED_ok : F.MEM_MAPOUT_REFUSED.ok := ⟨by decide, by decide⟩
theorem MEM_STAT_ok : F.MEM_STAT.ok := ⟨by decide, by decide⟩
theorem MEM_CH_STAT_USE_ok : F.MEM_CH_STAT_USE.ok := ⟨by decide, by decide⟩

section
variable (s : State)

theorem State.mapoutState_wr {st : Nat} (h : st < 8) : (s.wr F.MEM_MAPOUT_STATE 0 st).rd F.MEM_MAPOUT_STATE 0 = st :=
  (s.rd_wr_same _ _ _ MEM_MAPOUT_STATE_ok).trans (Nat.mod_eq_of_lt h)

theorem State.mapoutRefused_wr {v : Nat} (h : v < 2) : (s.wr F.MEM_MAPOUT_REFUSED 0 v).rd F.MEM_MAPOUT_REFUSED 0 = v :=
  (s.rd_wr_same _ _ _ MEM_MAPOUT_REFUSED_ok).trans (Nat.mod_eq_of_lt h)

theorem State.mapoutState_refused (v : Nat) : (s.wr F.MEM_MAPOUT_REFUSED 0 v).rd F.MEM_MAPOUT_STATE 0 = s.rd F.MEM_MAPOUT_STATE 0 :=
  s.rd_wr_fld _ _ MEM_MAPOUT_REFUSED_ok MEM_MAPOUT_STATE_ok rfl (by decide)

theorem State.mapoutDev_refused (v : Nat) : (s.wr F.MEM_MAPOUT_REFUSED 0 v).rd F.MEM_MAPOUT_DEV 0 = s.rd F.MEM_MAPOUT_DEV 0 :=
  s.rd_wr_fld _ _ MEM_MAPOUT_REFUSED_ok MEM_MAPOUT_DEV_ok rfl (by decide)

end

/-! ### The channels of a device -/

section
variable (s : State) (d u : Nat)

@[simp] theorem State.useDevice_mem : (s.useDevice d u).mem = s.mem :=
  foldl_keeps State.mem (fun s i => s.wr_mem F.MEM_CH_STAT_USE (4 * d + i) u) _ _

/-- The use of a device's channels stands in MEM_CH_STAT alone. -/
theorem State.useDevice_rd {f : Fld} (i : Nat) (hf : f.off < 0x100000) (h : f.off ≠ F.MEM_CH_STAT_USE.off) :
    (s.useDevice d u).rd f i = s.rd f i :=
  foldl_keeps (fun s => s.rd f i) (fun s j => s.rd_wr_apart (4 * d + j) i u (by decide) hf h) _ _

/-- Each of the four channels of the device shows its use. -/
theorem State.useDevice_use {u : Nat} (hu : u < 4) {i : Nat} (hi : i < 4) :
    (s.useDevice d u).rd F.MEM_CH_STAT_USE (4 * d + i) = u := by
  refine foldl_range_holds (P := fun i t => t.rd F.MEM_CH_STAT_USE (4 * d + i) = u) (fun t i => ?_) (fun t i j hij h => ?_) s hi
  · exact (t.rd_wr_same _ _ _ MEM_CH_STAT_USE_ok).trans (Nat.mod_eq_of_lt hu)
  · exact (t.rd_wr_inst u (by decide) (by decide) (by omega)).trans h

end

/-! ### Accesses released (R306) -/

section
variable {β : Type} (q : State → β) (hinc : ∀ s m, q (State.inc s F.MEM_CH_BQFULL m) = q s)
  (hmch : ∀ s m x, q (State.setMch s m x) = q s)
include hinc hmch

/-- A request reaches its controller's queues, or is held and counted. -/
theorem State.memEnqueue_keeps (s : State) (r : MReq) : q (s.memEnqueue r) = q s := by
  unfold State.memEnqueue
  dsimp only
  split
  · exact (hinc _ _).trans (hmch _ _ _)
  · exact hmch _ _ _

theorem State.memFrame_keeps (s : State) (who id : Nat) (cells : List Nat) (bytes : Nat) (write panic : Bool) :
    q (s.memFrame who id cells bytes write panic) = q s :=
  foldl_keeps q (fun s _ => State.memEnqueue_keeps q hinc hmch s _) _ _

theorem State.sendAcc_keeps (hacc : ∀ s id x, q (State.setAcc s id x) = q s) (s : State) (id : Nat) (x : CoreAcc) :
    q (s.sendAcc id x) = q s :=
  (foldl_keeps q (fun s _ => State.memEnqueue_keeps q hinc hmch s _) _ _).trans (hacc _ _ _)

theorem State.releaseAccs_keeps (hacc : ∀ s id x, q (State.setAcc s id x) = q s) (s : State) : q s.releaseAccs = q s :=
  foldl_keeps q (fun s _ => State.sendAcc_keeps q hinc hmch hacc s _ _) _ _

end

section
variable (s : State)

theorem State.releaseAccs_rd {f : Fld} (i : Nat) (hf : f.off < 0x100000) (h : f.off ≠ F.MEM_CH_BQFULL.off) :
    s.releaseAccs.rd f i = s.rd f i :=
  State.releaseAccs_keeps (fun s => s.rd f i) (fun s m => s.rd_inc_apart m i (by decide) hf h) (fun _ _ _ => rfl) (fun _ _ _ => rfl) s

@[simp] theorem State.releaseAccs_mdev : s.releaseAccs.mem.mdev = s.mem.mdev :=
  State.releaseAccs_keeps (fun s => s.mem.mdev) (fun _ _ => rfl) (fun _ _ _ => rfl) (fun _ _ _ => rfl) s

@[simp] theorem State.releaseAccs_copyDone : s.releaseAccs.mem.copyDone = s.mem.copyDone :=
  State.releaseAccs_keeps (fun s => s.mem.copyDone) (fun _ _ => rfl) (fun _ _ _ => rfl) (fun _ _ _ => rfl) s

theorem State.movePoison_rd (back : Bool) (f : Fld) (i : Nat) : (s.movePoison back).rd f i = s.rd f i := rfl

theorem State.rd_setWatch (src inst i : Nat) (w : Watch) (f : Fld) : (s.setWatch src inst w).rd f i = s.rd f i := rfl

/-- The end of a fault's effect changes no register. -/
theorem State.endEffect_rd (srcs : List Nat) (inst : Nat) (f : Fld) (i : Nat) : (s.endEffect srcs inst).rd f i = s.rd f i :=
  foldl_keeps (fun s => s.rd f i) (fun s src => s.rd_setWatch src inst i _ f) _ _

end

/-! ### GO_OUT and GO_IN (R305, R306) -/

theorem goOut_finishes {s : State} {req : Fin 19} (h : s.Takes req) (d : Fin 16) : Finishes (.goOut req d) s
    ((s.mapOut d).foldWrites req F.MEM_MAPOUT.off (if s.rd F.MEM_MAPOUT_STATE 0 = moIn then [0] else [])) := doneWrite_takes h

theorem goIn_finishes {s : State} {req : Fin 19} (h : s.Takes req) :
    Finishes (.goIn req) s (s.goIn.foldWrites req F.MEM_MAPOUT.off [0]) := doneWrite_takes h

section
variable {s : State}

/-- The device's number and the registers that show it. -/
theorem State.mapOut_eq (h : s.rd F.MEM_MAPOUT_STATE 0 = moIn) (d : Nat) : s.mapOut d =
    let t := ((s.wr F.MEM_MAPOUT_STATE 0 moDrain).wr F.MEM_MAPOUT_DEV 0 d).wr F.MEM_MAPOUT_REFUSED 0 0
    { t with mem := { s.mem with mdev := d } } := if_pos h

theorem State.mapOut_taken (h : s.rd F.MEM_MAPOUT_STATE 0 = moIn) (d : Fin 16) :
    (s.mapOut d).rd F.MEM_MAPOUT_STATE 0 = moDrain ∧ (s.mapOut d).rd F.MEM_MAPOUT_DEV 0 = d ∧
      (s.mapOut d).rd F.MEM_MAPOUT_REFUSED 0 = 0 ∧ (s.mapOut d).mem = { s.mem with mdev := d } := by
  rw [State.mapOut_eq h]
  refine ⟨?_, ?_, ?_, rfl⟩ <;> rw [State.rd_withMem]
  · rw [State.mapoutState_refused, State.rd_wr_fld _ _ _ MEM_MAPOUT_DEV_ok MEM_MAPOUT_STATE_ok rfl (by decide)]
    exact State.mapoutState_wr _ (by decide)
  · rw [State.mapoutDev_refused, State.rd_wr_same _ _ _ _ MEM_MAPOUT_DEV_ok]
    exact Nat.mod_eq_of_lt d.isLt
  · exact State.mapoutRefused_wr _ (by decide)

theorem State.mapOut_refused (h : s.rd F.MEM_MAPOUT_STATE 0 ≠ moIn) (d : Nat) : s.mapOut d = s.wr F.MEM_MAPOUT_REFUSED 0 1 := if_neg h

theorem State.goIn_taken (h : s.rd F.MEM_MAPOUT_STATE 0 = moOut) : s.goIn.rd F.MEM_MAPOUT_STATE 0 = moTrain ∧
    ∀ i < 4, s.goIn.rd F.MEM_CH_STAT_USE (4 * s.mem.mdev + i) = useTrain := by
  rw [State.goIn, if_pos h]
  refine ⟨?_, fun i hi => ?_⟩
  · rw [State.mapoutState_refused, State.mapoutState_wr _ (by decide)]
  · rw [State.rd_wr_apart _ _ _ _ (by decide) (by decide) (by decide), State.rd_wr_apart _ _ _ _ (by decide) (by decide) (by decide)]
    exact s.useDevice_use _ (by decide) hi

theorem State.goIn_refused (h : s.rd F.MEM_MAPOUT_STATE 0 ≠ moOut) : s.goIn = s.wr F.MEM_MAPOUT_REFUSED 0 1 := if_neg h

end

/-! ### The evacuation and the copy (R306) -/

theorem evacuationRewrite_finishes {s : State} (h : s.Runs) : Finishes .evacuationRewrite s (evacuationRewrite s) := done_runs h
theorem drainDone_finishes {s : State} (h : s.Runs) : Finishes .drainDone s (drainDone s) := done_runs h
theorem copyDone_finishes {s : State} (h : s.Runs) : Finishes .copyDone s (copyDone s) := done_runs h
theorem mapoutTrainDone_finishes {s : State} (h : s.Runs) (pass : Bool) : Finishes (.mapoutTrainDone pass) s (mapoutTrainDone pass s) :=
  done_runs h
theorem returnDone_finishes {s : State} (h : s.Runs) : Finishes .returnDone s (returnDone s) := done_runs h

/-- Whether a frame waits for its rewriting: it holds a closed cell and can be read, and is not being rewritten. -/
def State.evacNext (s : State) (e : Nat × DeepFr) : Bool :=
  e.2.wr == 0 && !e.2.reading && e.2.evac.isNone && e.2.held.any s.cellClosed

section
variable {s : State}

theorem evacuationRewrite_elsewhere (h : s.rd F.MEM_MAPOUT_STATE 0 ≠ moDrain) : evacuationRewrite s = s := if_pos (bne_iff_ne.mpr h)

theorem evacuationRewrite_of_none (h : s.mem.deep.find? s.evacNext = none) : evacuationRewrite s = s := by
  unfold State.evacNext at h
  unfold evacuationRewrite
  rw [h]
  exact ite_self _

theorem evacuationRewrite_of_some (hst : s.rd F.MEM_MAPOUT_STATE 0 = moDrain) {e : Nat × DeepFr}
    (h : s.mem.deep.find? s.evacNext = some e) : evacuationRewrite s = s.evacuate e.1 e.2 := by
  unfold State.evacNext at h
  rw [evacuationRewrite, if_neg (by simp [hst]), h]

/-- Where no frame holds a closed cell, none waits. -/
theorem State.evacNext_none (h : s.mem.deep.all (fun e => !e.2.held.any s.cellClosed) = true) : s.mem.deep.find? s.evacNext = none := by
  rw [List.find?_eq_none]
  intro e he
  have hopen : e.2.held.any s.cellClosed = false := Bool.not_eq_true' _ ▸ List.all_eq_true.mp h e he
  rw [State.evacNext, hopen, Bool.and_false]
  exact Bool.false_ne_true

theorem drainDone_eq : drainDone s = if s.rd F.MEM_MAPOUT_STATE 0 = moDrain ∧ s.evacLeft = 0 then s.wr F.MEM_MAPOUT_STATE 0 moCopy else s := by
  unfold drainDone
  simp only [Bool.and_eq_true, decide_eq_true_eq]

theorem copyDone_elsewhere (h : s.rd F.MEM_MAPOUT_STATE 0 ≠ moCopy) : copyDone s = s := if_pos (bne_iff_ne.mpr h)

theorem copyDone_copied (h : s.rd F.MEM_MAPOUT_STATE 0 = moCopy) : (copyDone s).rd F.MEM_MAPOUT_STATE 0 = moOut ∧
    (copyDone s).mem.copyDone = true ∧ (copyDone s).mem.mdev = s.mem.mdev := by
  rw [copyDone, if_neg (by simp [h])]
  refine ⟨?_, State.releaseAccs_copyDone _, State.releaseAccs_mdev _⟩
  rw [State.releaseAccs_rd _ _ (by decide) (by decide)]
  exact State.mapoutState_wr _ (by decide)

/-- The boundary behind a copy puts the device out of use. -/
theorem State.memBoundary_out (hdone : s.mem.copyDone = true) (hst : s.rd F.MEM_MAPOUT_STATE 0 = moOut) :
    s.memBoundary.rd F.MEM_STAT 0 = 60 ∧ s.memBoundary.rd F.MEM_MAPOUT_STATE 0 = moOut ∧
      ∀ i < 4, s.memBoundary.rd F.MEM_CH_STAT_USE (4 * s.mem.mdev + i) = useOut := by
  have heq : s.memBoundary = (({ s with mem := { s.mem with copyDone := false } } : State).useDevice s.mem.mdev useOut).wr F.MEM_STAT 0 60 := by
    have hst' : ({ s with mem := { s.mem with copyDone := false } } : State).rd F.MEM_MAPOUT_STATE 0 = moOut := hst
    rw [State.memBoundary, if_neg (by simp [hdone])]
    dsimp only
    rw [hst', if_neg (by decide), if_pos rfl]
  rw [heq]
  refine ⟨State.rd_wr_same _ _ _ _ MEM_STAT_ok, ?_, fun i hi => ?_⟩
  · rw [State.rd_wr_apart _ _ _ _ (by decide) (by decide) (by decide), State.useDevice_rd _ _ _ _ (by decide) (by decide)]
    exact hst
  · rw [State.rd_wr_apart _ _ _ _ (by decide) (by decide) (by decide)]
    exact State.useDevice_use _ _ (by decide) hi

/-! ### The way back (R306) -/

theorem mapoutTrainDone_elsewhere (h : s.rd F.MEM_MAPOUT_STATE 0 ≠ moTrain) (pass : Bool) : mapoutTrainDone pass s = s :=
  if_pos (bne_iff_ne.mpr h)

theorem mapoutTrainDone_passed (h : s.rd F.MEM_MAPOUT_STATE 0 = moTrain) :
    (mapoutTrainDone true s).rd F.MEM_MAPOUT_STATE 0 = moReturn := by
  rw [mapoutTrainDone, if_neg (by simp [h]), if_pos rfl]
  exact State.mapoutState_wr _ (by decide)

theorem mapoutTrainDone_failed (h : s.rd F.MEM_MAPOUT_STATE 0 = moTrain) :
    (mapoutTrainDone false s).rd F.MEM_MAPOUT_STATE 0 = moOut ∧ (mapoutTrainDone false s).rd F.MEM_MAPOUT_REFUSED 0 = 1 := by
  rw [mapoutTrainDone, if_neg (by simp [h]), if_neg Bool.false_ne_true]
  refine ⟨?_, State.mapoutRefused_wr _ (by decide)⟩
  rw [State.mapoutState_refused, State.mapoutState_wr _ (by decide)]

theorem returnDone_elsewhere (h : s.rd F.MEM_MAPOUT_STATE 0 ≠ moReturn) : returnDone s = s := if_neg h

theorem returnDone_copied (h : s.rd F.MEM_MAPOUT_STATE 0 = moReturn) :
    returnDone s = { s with mem := { s.mem with copyDone := true } } := if_pos h

/-- The device put into use again, with its poison and what waited for it. -/
def State.takeBack (s : State) : State :=
  ((((({ s with mem := { s.mem with copyDone := false } } : State).useDevice s.mem.mdev useIn).wr F.MEM_STAT 0 64).movePoison true).wr
    F.MEM_MAPOUT_STATE 0 moIn).releaseAccs

theorem State.memBoundary_return (hdone : s.mem.copyDone = true) (hst : s.rd F.MEM_MAPOUT_STATE 0 = moReturn) : s.memBoundary =
    (List.range 4).foldl (fun t i => t.endEffect [fsMemCorr, fsMemUnc, fsMemRetrain] (4 * s.mem.mdev + i)) s.takeBack := by
  have hst' : ({ s with mem := { s.mem with copyDone := false } } : State).rd F.MEM_MAPOUT_STATE 0 = moReturn := hst
  rw [State.memBoundary, if_neg (by simp [hdone])]
  dsimp only
  rw [hst', if_pos rfl]
  rfl

theorem State.memBoundary_return_rd (hdone : s.mem.copyDone = true) (hst : s.rd F.MEM_MAPOUT_STATE 0 = moReturn) (f : Fld) (i : Nat) :
    s.memBoundary.rd f i = s.takeBack.rd f i := by
  rw [State.memBoundary_return hdone hst]
  exact foldl_keeps (fun s => s.rd f i) (fun s _ => s.endEffect_rd _ _ f i) _ _

theorem State.takeBack_rd : s.takeBack.rd F.MEM_STAT 0 = 64 ∧ s.takeBack.rd F.MEM_MAPOUT_STATE 0 = moIn ∧
    ∀ i < 4, s.takeBack.rd F.MEM_CH_STAT_USE (4 * s.mem.mdev + i) = useIn := by
  refine ⟨?_, ?_, fun i hi => ?_⟩
  · rw [State.takeBack, State.releaseAccs_rd _ _ (by decide) (by decide), State.rd_wr_apart _ _ _ _ (by decide) (by decide) (by decide),
      State.movePoison_rd]
    exact State.rd_wr_same _ _ _ _ MEM_STAT_ok
  · rw [State.takeBack, State.releaseAccs_rd _ _ (by decide) (by decide)]
    exact State.mapoutState_wr _ (by decide)
  · rw [State.takeBack, State.releaseAccs_rd _ _ (by decide) (by decide), State.rd_wr_apart _ _ _ _ (by decide) (by decide) (by decide),
      State.movePoison_rd, State.rd_wr_apart _ _ _ _ (by decide) (by decide) (by decide)]
    exact State.useDevice_use _ _ (by decide) hi

end

/-! ### The statement -/

/-- Settles O49: each command by the state of the map-out that it finds; OUT and the return by the boundary behind their copy. -/
theorem mapOut : Obligations.MapOut := by
  intro s hs
  refine ⟨fun req d htakes => ⟨fun hin => ?goOut, fun hin => ?goOutRefused⟩, fun req htakes => ⟨fun hout _ => ?goIn, fun hout => ?goInRefused⟩,
    fun hst => ?noEvac, fun hst => ⟨fun hall => ?evacNone, fun e he => ?evacSome, fun hnone => ?evacFree⟩, ?drain, fun hst => ?noCopy,
    fun hst => ?copied, fun hst pass => ?noTrain, fun hst => ⟨?passed, ?failed⟩, fun hst => ?noReturn, fun hst => ?returned⟩
  case goOut =>
    obtain ⟨hstate, hdev, hrefused, hmem⟩ := State.mapOut_taken hin d
    exact ⟨_, goOut_finishes htakes d, (State.foldWrites_rd _ _ _ _ _ _).trans hstate, (State.foldWrites_rd _ _ _ _ _ _).trans hdev,
      (State.foldWrites_rd _ _ _ _ _ _).trans hrefused, (State.foldWrites_mem _ _ _ _).trans hmem⟩
  case goOutRefused =>
    have hfin := goOut_finishes htakes d
    rw [State.mapOut_refused hin, if_neg hin] at hfin
    exact ⟨_, hfin, State.mapoutState_refused _ _, State.mapoutDev_refused _ _, State.mapoutRefused_wr _ (by decide), rfl⟩
  case goIn =>
    obtain ⟨hstate, huse⟩ := State.goIn_taken hout
    exact ⟨_, goIn_finishes htakes, (State.foldWrites_rd _ _ _ _ _ _).trans hstate,
      fun i hi => (State.foldWrites_rd _ _ _ _ _ _).trans (huse i hi)⟩
  case goInRefused =>
    have hfin := goIn_finishes htakes
    rw [State.goIn_refused hout] at hfin
    exact ⟨_, hfin, (State.foldWrites_rd _ _ _ _ _ _).trans (State.mapoutState_refused _ _),
      (State.foldWrites_rd _ _ _ _ _ _).trans (State.mapoutRefused_wr _ (by decide)), State.foldWrites_mem _ _ _ _⟩
  case noEvac =>
    have hfin := evacuationRewrite_finishes hs
    rwa [evacuationRewrite_elsewhere hst] at hfin
  case evacNone =>
    have hfin := evacuationRewrite_finishes hs
    rwa [evacuationRewrite_of_none (State.evacNext_none hall)] at hfin
  case evacSome =>
    have hfin := evacuationRewrite_finishes hs
    rwa [evacuationRewrite_of_some hst he] at hfin
  case evacFree =>
    have hfin := evacuationRewrite_finishes hs
    rwa [evacuationRewrite_of_none hnone] at hfin
  case drain =>
    have hfin := drainDone_finishes hs
    rwa [drainDone_eq] at hfin
  case noCopy =>
    have hfin := copyDone_finishes hs
    rwa [copyDone_elsewhere hst] at hfin
  case copied =>
    obtain ⟨hstate, hdone, hdev⟩ := copyDone_copied hst
    obtain ⟨hstat, hout, huse⟩ := State.memBoundary_out hdone hstate
    exact ⟨_, copyDone_finishes hs, hstate, hstat, hout, fun i hi => hdev ▸ huse i hi⟩
  case noTrain =>
    have hfin := mapoutTrainDone_finishes hs pass
    rwa [mapoutTrainDone_elsewhere hst] at hfin
  case passed => exact ⟨_, mapoutTrainDone_finishes hs true, mapoutTrainDone_passed hst⟩
  case failed =>
    obtain ⟨hstate, hrefused⟩ := mapoutTrainDone_failed hst
    exact ⟨_, mapoutTrainDone_finishes hs false, hstate, hrefused⟩
  case noReturn =>
    have hfin := returnDone_finishes hs
    rwa [returnDone_elsewhere hst] at hfin
  case returned =>
    have hfin := returnDone_finishes hs
    rw [returnDone_copied hst] at hfin
    have hback := State.memBoundary_return_rd (s := { s with mem := { s.mem with copyDone := true } }) rfl hst
    obtain ⟨hstat, hin, huse⟩ := State.takeBack_rd (s := { s with mem := { s.mem with copyDone := true } })
    exact ⟨_, hfin, (hback _ _).trans hstat, (hback _ _).trans hin, fun i hi => (hback _ _).trans (huse i hi)⟩

end Sys2Proof.Machine
end

section
/-!
PROOF. A channel of the deep store's memory (R289 to R300): refreshes and what they postpone, the command slot's order, the
temperature of a device and the slots of retraining. Settles O47.
-/

namespace Sys2Proof.Machine

/-! ### The record and the registers of a channel -/

@[simp] theorem State.mch_setMch_same (s : State) (m : Nat) (x : MCh) : (s.setMch m x).mch m = x := tget_tput_same _ _ _ _
@[simp] theorem State.mch_modMch_same (s : State) (m : Nat) (f : MCh → MCh) : (s.modMch m f).mch m = f (s.mch m) :=
  tget_tput_same _ _ _ _
@[simp] theorem State.mch_emit (s : State) (o : Out) (m : Nat) : (s.emit o).mch m = s.mch m := rfl
@[simp] theorem State.mch_wr (s : State) (f : Fld) (i v m : Nat) : (s.wr f i v).mch m = s.mch m := rfl
@[simp] theorem State.mch_inc (s : State) (f : Fld) (i m : Nat) : (s.inc f i).mch m = s.mch m := rfl

theorem MEM_CH_STAT_HOT_ok : F.MEM_CH_STAT_HOT.ok := ⟨by decide, by decide⟩
theorem MEM_CH_STAT_RETRAIN_ok : F.MEM_CH_STAT_RETRAIN.ok := ⟨by decide, by decide⟩
theorem MEM_CH_STAT_RETRAIN_FAIL_ok : F.MEM_CH_STAT_RETRAIN_FAIL.ok := ⟨by decide, by decide⟩
theorem MEM_CH_STAT_DEBT_ok : F.MEM_CH_STAT_DEBT.ok := ⟨by decide, by decide⟩
theorem MEM_CH_TEMP_SLOTS_ok : F.MEM_CH_TEMP_SLOTS.ok := ⟨by decide, by decide⟩
theorem MEM_CH_TEMP_T_TRAIN_ok : F.MEM_CH_TEMP_T_TRAIN.ok := ⟨by decide, by decide⟩
theorem MEM_CH_TEMP_TEMP_ok : F.MEM_CH_TEMP_TEMP.ok := ⟨by decide, by decide⟩
theorem MEM_CH_REF_FORCED_ok : F.MEM_CH_REF_FORCED.ok := ⟨by decide, by decide⟩

/-- Panic is a matter of CH_BOW_STAT alone. -/
theorem State.memPanic_wr (s : State) {f : Fld} (i v : Nat) (hf : f.off < 0x100000) (hne : f.off ≠ F.CH_BOW_STAT_PANIC.off) :
    (s.wr f i v).memPanic = s.memPanic := by
  refine congrArg (List.any (List.range 64)) (funext fun c => ?_)
  rw [State.on, s.rd_wr_apart i c v hf (by decide) (Ne.symm hne), ← State.on]

/-! ### Refreshes (R294 to R296, R298) -/

theorem refreshInterval_finishes {s : State} (h : s.Runs) (m : Fin 64) : Finishes (.refreshInterval m) s (refreshInterval m s) :=
  done_runs h

theorem refreshPayback_finishes {s : State} (h : s.Runs) (m : Fin 64) : Finishes (.refreshPayback m) s (refreshPayback m s) :=
  done_runs h

/-- A refresh goes out against the debt. -/
def State.refreshSent (s : State) (m : Nat) : State := (s.lowerDebt m).modMch m (fun x => { x with refPend := x.refPend + 1 })

section
variable (s : State) (m : Nat)

theorem State.refreshSent_debt : (s.refreshSent m).rd F.MEM_CH_STAT_DEBT m = s.rd F.MEM_CH_STAT_DEBT m - 1 := by
  have hlt : s.rd F.MEM_CH_STAT_DEBT m < 2 ^ F.MEM_CH_STAT_DEBT.width := getF_lt _ _
  exact (s.rd_wr_same _ _ _ MEM_CH_STAT_DEBT_ok).trans (Nat.mod_eq_of_lt (by omega))

theorem State.refreshSent_pend : ((s.refreshSent m).mch m).refPend = (s.mch m).refPend + 1 := by
  rw [State.refreshSent, State.mch_modMch_same, State.lowerDebt, State.mch_modMch_same]
  rfl

theorem State.refreshSent_memPanic : (s.refreshSent m).memPanic = s.memPanic := s.memPanic_wr m _ (by decide) (by decide)

/-- A refresh that falls due and goes out leaves the debt. -/
theorem State.refreshDue_debt (h : s.rd F.MEM_CH_STAT_DEBT m + 1 < 16) :
    ((s.wr F.MEM_CH_STAT_DEBT m (s.rd F.MEM_CH_STAT_DEBT m + 1)).refreshSent m).rd F.MEM_CH_STAT_DEBT m = s.rd F.MEM_CH_STAT_DEBT m := by
  rw [State.refreshSent_debt, State.rd_wr_same _ _ _ _ MEM_CH_STAT_DEBT_ok, Nat.mod_eq_of_lt (by exact h)]
  rfl

/-- Of the registers it touches MEM_CH_STAT alone. -/
theorem State.refreshDue_onlyRegs (v : Nat) : OnlyRegs [rkey m F.MEM_CH_STAT.off]
    { s with mem := ((s.wr F.MEM_CH_STAT_DEBT m v).refreshSent m).mem } ((s.wr F.MEM_CH_STAT_DEBT m v).refreshSent m) := by
  refine ⟨rfl, fun k hk => ?_⟩
  have hne : k ≠ rkey m F.MEM_CH_STAT.off := fun he => hk (List.mem_singleton.mpr he)
  exact (tget_tput_ne _ _ _ hne).trans (tget_tput_ne _ _ _ hne)

end

section
variable {s : State} {m : Nat}

theorem refreshInterval_unused (huse : s.rd F.MEM_CH_STAT_USE m ≠ useIn) : refreshInterval m s = s := if_pos (bne_iff_ne.mpr huse)

theorem refreshPayback_unused (huse : s.rd F.MEM_CH_STAT_USE m ≠ useIn) : refreshPayback m s = s := if_pos (by simp [huse])

theorem refreshPayback_ignored (h : s.memPanic = true ∨ s.rd F.MEM_CH_STAT_DEBT m = 0 ∨ s.inSlot m = true) : refreshPayback m s = s := by
  refine if_pos ?_
  rcases h with hpanic | hdebt | hslot
  · simp [hpanic]
  · simp [hdebt]
  · simp [hslot]

section
variable (huse : s.rd F.MEM_CH_STAT_USE m = useIn)
include huse

theorem refreshInterval_inSlot (hslot : s.inSlot m = true) :
    refreshInterval m s = s.wr F.MEM_CH_STAT_DEBT m (s.rd F.MEM_CH_STAT_DEBT m + 1) := by
  rw [refreshInterval, if_neg (by simp [huse])]
  exact if_pos hslot

variable (hslot : s.inSlot m = false)
include hslot

theorem refreshInterval_postponed (hpanic : s.memPanic = true) (hmax : s.rd F.MEM_CH_STAT_DEBT m + 1 ≤ s.postponeMax) :
    refreshInterval m s = (s.wr F.MEM_CH_STAT_DEBT m (s.rd F.MEM_CH_STAT_DEBT m + 1)).inc F.MEM_CH_REF_POSTP m := by
  rw [refreshInterval, if_neg (by simp [huse])]
  exact (if_neg (by simp [hslot])).trans (if_pos (by simp [hpanic, hmax]))

/-- A refresh that cannot be postponed goes out; in panic it is counted as forced. -/
theorem refreshInterval_sent (h : s.memPanic = false ∨ s.postponeMax < s.rd F.MEM_CH_STAT_DEBT m + 1) : refreshInterval m s =
    let u := (s.wr F.MEM_CH_STAT_DEBT m (s.rd F.MEM_CH_STAT_DEBT m + 1)).refreshSent m
    if s.memPanic then u.inc F.MEM_CH_REF_FORCED m else u := by
  have hnot : ¬ (s.memPanic && decide (s.rd F.MEM_CH_STAT_DEBT m + 1 ≤ s.postponeMax)) = true := by
    rcases h with hpanic | hmax
    · simp [hpanic]
    · simp [Nat.not_le.mpr hmax]
  have hpanic : ((s.wr F.MEM_CH_STAT_DEBT m (s.rd F.MEM_CH_STAT_DEBT m + 1)).refreshSent m).memPanic = s.memPanic :=
    (State.refreshSent_memPanic _ _).trans (s.memPanic_wr _ _ (by decide) (by decide))
  rw [refreshInterval, if_neg (by simp [huse])]
  refine ((if_neg (by simp [hslot])).trans (if_neg hnot)).trans ?_
  rw [← hpanic]
  rfl

theorem refreshInterval_calm (hpanic : s.memPanic = false) :
    refreshInterval m s = (s.wr F.MEM_CH_STAT_DEBT m (s.rd F.MEM_CH_STAT_DEBT m + 1)).refreshSent m := by
  rw [refreshInterval_sent huse hslot (.inl hpanic)]
  exact if_neg (by simp [hpanic])

theorem refreshInterval_forced (hpanic : s.memPanic = true) (hmax : s.postponeMax < s.rd F.MEM_CH_STAT_DEBT m + 1) :
    refreshInterval m s =
      ((s.wr F.MEM_CH_STAT_DEBT m (s.rd F.MEM_CH_STAT_DEBT m + 1)).refreshSent m).inc F.MEM_CH_REF_FORCED m := by
  rw [refreshInterval_sent huse hslot (.inr hmax)]
  exact if_pos hpanic

theorem refreshPayback_sent (hpanic : s.memPanic = false) (hdebt : s.rd F.MEM_CH_STAT_DEBT m ≠ 0) :
    refreshPayback m s = s.refreshSent m := if_neg (by simp [huse, hpanic, hdebt, hslot])

end

end

/-- The count of forced refreshes. -/
theorem State.refreshForced_count (s : State) (m v : Nat) :
    (((s.wr F.MEM_CH_STAT_DEBT m v).refreshSent m).inc F.MEM_CH_REF_FORCED m).rd F.MEM_CH_REF_FORCED m =
      min (s.rd F.MEM_CH_REF_FORCED m + 1) (2 ^ 32 - 1) := by
  have hkeep : ((s.wr F.MEM_CH_STAT_DEBT m v).refreshSent m).rd F.MEM_CH_REF_FORCED m = s.rd F.MEM_CH_REF_FORCED m :=
    (State.rd_wr_off _ _ _ (by decide)).trans (s.rd_wr_off _ _ (by decide))
  rw [State.rd_inc_same _ _ MEM_CH_REF_FORCED_ok, hkeep]
  rfl

/-! ### The command slot (R289 to R292, R295) -/

theorem memCommandSlot_finishes {s : State} (h : s.Runs) (m : Fin 64) (ready : BitVec 16) :
    Finishes (.memCommandSlot m ready) s (memCommandSlot m ready.toNat s) := done_runs h

/-- A panic read (R289). -/
def isPanicRead (r : MReq) : Bool := r.panic && !r.write

/-- What a slot serves where no all-bank refresh waits: a panic read, else a per-bank refresh, else another request. -/
def State.serveSlot (s : State) (m ready : Nat) : State :=
  match (s.mch m).pick ready isPanicRead with
  | some r => s.issue m r
  | none => match s.refreshBanks m ready with
    | [] => (match (s.mch m).pickNormal ready with | some r => s.issue m r | none => s)
    | bs => s.bankRefresh m bs

/-- The channel behind the decision whether a write drain runs (R291). -/
def State.drained (s : State) (m : Nat) : State := s.modMch m (fun x => { x with drain := s.drains x })

section
variable (s : State) (m : Nat)

@[simp] theorem State.drained_mch : (s.drained m).mch m = { s.mch m with drain := s.drains (s.mch m) } := s.mch_modMch_same m _

theorem MCh.pick_drain (x : MCh) (b : Bool) (ready : Nat) (p : MReq → Bool) : { x with drain := b }.pick ready p = x.pick ready p := rfl

@[simp] theorem State.drained_pick (ready : Nat) (p : MReq → Bool) : ((s.drained m).mch m).pick ready p = (s.mch m).pick ready p := by
  rw [State.drained_mch, MCh.pick_drain]

@[simp] theorem State.drained_refreshBanks (ready : Nat) : (s.drained m).refreshBanks m ready = s.refreshBanks m ready := by
  unfold State.refreshBanks
  rw [State.drained_mch]
  rfl

theorem memCommandSlot_unused (ready : Nat) (huse : s.rd F.MEM_CH_STAT_USE m ≠ useIn) : memCommandSlot m ready s = s :=
  if_pos (bne_iff_ne.mpr huse)

end

section
variable {s : State} {m : Nat} (ready : Nat) (huse : s.rd F.MEM_CH_STAT_USE m = useIn)
include huse

theorem memCommandSlot_inSlot (hslot : s.inSlot m = true) : memCommandSlot m ready s = s.emit (.mem m mcTrain 0 0 0) := by
  rw [memCommandSlot, if_neg (by simp [huse])]
  exact if_pos hslot

variable (hslot : s.inSlot m = false)
include hslot

/-- An all-bank refresh goes before every request. -/
theorem memCommandSlot_refresh (hpend : (s.mch m).refPend ≠ 0) : memCommandSlot m ready s =
    ((s.drained m).setMch m { (s.drained m).mch m with refPend := ((s.drained m).mch m).refPend - 1, openAt := none }).emit
      (.mem m mcAll 0 0 0) := by
  have hpend' : ((s.drained m).mch m).refPend ≠ 0 := by rwa [State.drained_mch]
  rw [memCommandSlot, if_neg (by simp [huse])]
  exact (if_neg (by simp [hslot])).trans (if_pos hpend')

variable (hpend : (s.mch m).refPend = 0)
include hpend

theorem memCommandSlot_open : memCommandSlot m ready s = (s.drained m).serveSlot m ready := by
  have hpend' : ¬ ((s.drained m).mch m).refPend ≠ 0 := by rwa [State.drained_mch, not_not]
  rw [memCommandSlot, if_neg (by simp [huse])]
  exact (if_neg (by simp [hslot])).trans (if_neg hpend')

theorem memCommandSlot_panicRead {q : MReq} (hpick : (s.mch m).pick ready isPanicRead = some q) :
    memCommandSlot m ready s = (s.drained m).issue m q := by
  rw [memCommandSlot_open ready huse hslot hpend, State.serveSlot, State.drained_pick, hpick]

variable (hpick : (s.mch m).pick ready isPanicRead = none)
include hpick

theorem memCommandSlot_bank (hbanks : s.refreshBanks m ready ≠ []) :
    memCommandSlot m ready s = (s.drained m).bankRefresh m (s.refreshBanks m ready) := by
  rw [memCommandSlot_open ready huse hslot hpend, State.serveSlot, State.drained_pick, hpick, State.drained_refreshBanks]
  cases hb : s.refreshBanks m ready with
  | nil => exact absurd hb hbanks
  | cons b bs => rfl

variable (hbanks : s.refreshBanks m ready = [])
include hbanks

theorem memCommandSlot_request {q : MReq} (hnormal : ((s.drained m).mch m).pickNormal ready = some q) :
    memCommandSlot m ready s = (s.drained m).issue m q := by
  rw [memCommandSlot_open ready huse hslot hpend, State.serveSlot, State.drained_pick, hpick, State.drained_refreshBanks, hbanks, hnormal]

theorem memCommandSlot_idle (hnormal : ((s.drained m).mch m).pickNormal ready = none) : memCommandSlot m ready s = s.drained m := by
  rw [memCommandSlot_open ready huse hslot hpend, State.serveSlot, State.drained_pick, hpick, State.drained_refreshBanks, hbanks, hnormal]

end

/-! ### A request issued and a per-bank refresh (R290, R295) -/

theorem MCh.admitHeld_fly (x : MCh) : x.admitHeld.fly = x.fly := by
  have hfold (l : List MReq) (y : MCh) : (l.foldl (fun y r =>
      if y.inBank r.bank < 16 then { y with queue := y.queue ++ [r] } else { y with heldReq := y.heldReq ++ [r] }) y).fly = y.fly := by
    induction l generalizing y with
    | nil => rfl
    | cons r l ih =>
      rw [List.foldl_cons, ih]
      split <;> rfl
  exact hfold _ _

theorem MCh.serve_fly (x : MCh) (r : MReq) : (x.serve r).fly = x.fly := by
  unfold MCh.serve
  dsimp only
  rw [MCh.admitHeld_fly]
  split <;> rfl

section
variable {s : State} {m : Nat}

/-- A request that is not answered from the poison table goes to the device. -/
theorem State.issue_access {r : MReq} (h : r.write = true ∨ s.isPoisoned r.cell r.gran = false) : s.issue m r =
    (s.modMch m (fun x => { x.serve r with fly := (x.serve r).fly ++ [r] })).emit (.mem m (if r.write then mcWrite else mcRead) r.bank r.row
      (4 * (cellPlace (s.rd F.MEM_CFG_ORDER 0) (r.cell / 64)).2.2 + r.gran)) := by
  refine if_neg ?_
  rcases h with hwrite | hclean
  · simp [hwrite]
  · simp [hclean]

theorem State.issue_fly {r : MReq} (h : r.write = true ∨ s.isPoisoned r.cell r.gran = false) :
    ((s.issue m r).mch m).fly = (s.mch m).fly ++ [r] := by
  rw [State.issue_access h, State.mch_emit, State.mch_modMch_same, MCh.serve_fly]

theorem State.bankRefresh_out {bs : List Nat} (h : bs ≠ []) : ∃ b ∈ bs, (s.bankRefresh m bs).out = .mem m mcBank b 0 0 :: s.out := by
  have hlt : s.takeFree.1 % bs.length < bs.length := Nat.mod_lt _ (List.length_pos_of_ne_nil h)
  refine ⟨bs.getD (s.takeFree.1 % bs.length) 0, ?_, ?_⟩
  · rw [List.getD_eq_getElem _ _ hlt]
    exact List.getElem_mem hlt
  · unfold State.bankRefresh
    dsimp only
    split <;> rfl

theorem State.bankRefresh_queue (bs : List Nat) : ((s.bankRefresh m bs).mch m).queue = (s.mch m).queue := by
  have hset (set : Nat) : (s.takeFree.2.modMch m (fun x => { x with refSet := set })).mch m = { s.mch m with refSet := set } :=
    State.mch_modMch_same _ _ _
  unfold State.bankRefresh
  dsimp only
  split
  · rw [State.lowerDebt, State.mch_modMch_same, State.mch_wr, State.mch_emit, hset]
  · rw [State.mch_emit, hset]

end

/-! ### Temperature (R293) -/

theorem memTempRead_finishes {s : State} (h : s.Runs) (d : Fin 16) (t : BitVec 8) :
    Finishes (.memTempRead d t) s (memTempRead d t.toNat s) := done_runs h

/-- HOT set, cleared or left as a reading asks. -/
def State.setHot (s : State) (m t : Nat) : State :=
  if (s.rd F.MEM_REF_CFG_HOT_ON 0 : Int) < degrees t then s.wr F.MEM_CH_STAT_HOT m 1
  else if degrees t ≤ min (s.rd F.MEM_REF_CFG_HOT_OFF 0 : Int) ((s.rd F.MEM_REF_CFG_HOT_ON 0 : Int) - 1) then s.wr F.MEM_CH_STAT_HOT m 0
  else s

theorem State.chTemp_eq (s : State) (m t : Nat) : s.chTemp m t =
    let u := (s.wr F.MEM_CH_TEMP_TEMP m t).setHot m t
    if u.drifted m then u.wr F.MEM_CH_STAT_RETRAIN m 1 else u := by
  have hcfg {f : Fld} (hf : f.off = F.MEM_REF_CFG.off) : (s.wr F.MEM_CH_TEMP_TEMP m t).rd f 0 = s.rd f 0 :=
    s.rd_wr_apart _ _ _ (by decide) (by rw [hf]; decide) (by rw [hf]; decide)
  rw [State.setHot, hcfg (f := F.MEM_REF_CFG_HOT_ON) rfl, hcfg (f := F.MEM_REF_CFG_HOT_OFF) rfl]
  rfl

/-- A reading touches the channel's MEM_CH_STAT and MEM_CH_TEMP alone. -/
theorem State.chTemp_keeps {β : Type} (q : State → β) {m : Nat}
    (hwr : ∀ (s : State) (f : Fld) (v : Nat), f.off = F.MEM_CH_STAT.off ∨ f.off = F.MEM_CH_TEMP.off → q (s.wr f m v) = q s)
    (s : State) (t : Nat) : q (s.chTemp m t) = q s := by
  have htemp : q (s.wr F.MEM_CH_TEMP_TEMP m t) = q s := hwr _ F.MEM_CH_TEMP_TEMP _ (.inr rfl)
  have hhot (u : State) : q (u.setHot m t) = q u := by
    unfold State.setHot
    split
    · exact hwr _ F.MEM_CH_STAT_HOT _ (.inl rfl)
    · split
      · exact hwr _ F.MEM_CH_STAT_HOT _ (.inl rfl)
      · rfl
  rw [State.chTemp_eq]
  dsimp only
  split
  · exact (hwr _ F.MEM_CH_STAT_RETRAIN _ (.inl rfl)).trans ((hhot _).trans htemp)
  · exact (hhot _).trans htemp

/-- What a channel shows of a reading of its device: the temperature, and HOT where it is above or below what HOT holds on to. -/
def State.ShowsTemp (s : State) (t m : Nat) : Prop :=
  s.rd F.MEM_CH_TEMP_TEMP m = t ∧
    ((s.rd F.MEM_REF_CFG_HOT_ON 0 : Int) < degrees t → s.rd F.MEM_CH_STAT_HOT m = 1) ∧
    (degrees t ≤ min (s.rd F.MEM_REF_CFG_HOT_OFF 0 : Int) ((s.rd F.MEM_REF_CFG_HOT_ON 0 : Int) - 1) → s.rd F.MEM_CH_STAT_HOT m = 0)

section
variable {s : State} {t m : Nat}

theorem State.ShowsTemp.congr {u : State} (h : s.ShowsTemp t m) (htemp : u.rd F.MEM_CH_TEMP_TEMP m = s.rd F.MEM_CH_TEMP_TEMP m)
    (hhot : u.rd F.MEM_CH_STAT_HOT m = s.rd F.MEM_CH_STAT_HOT m) (hon : u.rd F.MEM_REF_CFG_HOT_ON 0 = s.rd F.MEM_REF_CFG_HOT_ON 0)
    (hoff : u.rd F.MEM_REF_CFG_HOT_OFF 0 = s.rd F.MEM_REF_CFG_HOT_OFF 0) : u.ShowsTemp t m := by
  unfold State.ShowsTemp
  rw [htemp, hhot, hon, hoff]
  exact h

/-- A reading leaves the limits of HOT. -/
theorem State.chTemp_cfg (s : State) (m t : Nat) {f : Fld} (hf : f.off = F.MEM_REF_CFG.off) : (s.chTemp m t).rd f 0 = s.rd f 0 := by
  refine State.chTemp_keeps (fun s => s.rd f 0) (fun s g v hg => ?_) s t
  have hlt : g.off < 0x100000 ∧ f.off ≠ g.off := by
    rw [hf]
    rcases hg with hg | hg <;> rw [hg] <;> decide
  exact s.rd_wr_apart _ _ _ hlt.1 (by rw [hf]; decide) hlt.2

/-- A reading of one channel leaves what another shows. -/
theorem State.ShowsTemp.chTemp_ne {j : Nat} (h : s.ShowsTemp t m) (hj : m ≠ j) (t' : Nat) : (s.chTemp j t').ShowsTemp t m := by
  have hkeep {f : Fld} (hf : f.off < 0x100000) : (s.chTemp j t').rd f m = s.rd f m := by
    refine State.chTemp_keeps (fun s => s.rd f m) (fun s g v hg => ?_) s t'
    refine s.rd_wr_inst v ?_ hf hj
    rcases hg with hg | hg <;> rw [hg] <;> decide
  exact h.congr (hkeep (by decide)) (hkeep (by decide)) (s.chTemp_cfg j t' rfl) (s.chTemp_cfg j t' rfl)

theorem State.setHot_shows (h : s.rd F.MEM_CH_TEMP_TEMP m = t) : (s.setHot m t).ShowsTemp t m := by
  have hkeep (f : Fld) (i v : Nat) (hf : f.off < 0x100000 ∧ f.off ≠ F.MEM_CH_STAT_HOT.off) :
      (s.wr F.MEM_CH_STAT_HOT m v).rd f i = s.rd f i := s.rd_wr_apart _ _ _ (by decide) hf.1 hf.2
  have hhot {v : Nat} (hv : v < 2) : (s.wr F.MEM_CH_STAT_HOT m v).rd F.MEM_CH_STAT_HOT m = v :=
    (s.rd_wr_same _ _ _ MEM_CH_STAT_HOT_ok).trans (Nat.mod_eq_of_lt hv)
  unfold State.setHot
  split
  next habove =>
    refine ⟨(hkeep _ _ _ (by decide)).trans h, fun _ => hhot (by decide), fun hbelow => ?_⟩
    rw [hkeep _ _ _ (by decide), hkeep _ _ _ (by decide)] at hbelow
    omega
  next habove =>
    split
    next hbelow =>
      refine ⟨(hkeep _ _ _ (by decide)).trans h, fun hon => ?_, fun _ => hhot (by decide)⟩
      rw [hkeep _ _ _ (by decide)] at hon
      exact absurd hon habove
    next hbelow => exact ⟨h, fun hon => absurd hon habove, fun hoff => absurd hoff hbelow⟩

theorem State.chTemp_shows (s : State) (m : Nat) {t : Nat} (ht : t < 256) : (s.chTemp m t).ShowsTemp t m := by
  have htemp : (s.wr F.MEM_CH_TEMP_TEMP m t).rd F.MEM_CH_TEMP_TEMP m = t :=
    (s.rd_wr_same _ _ _ MEM_CH_TEMP_TEMP_ok).trans (Nat.mod_eq_of_lt ht)
  rw [State.chTemp_eq]
  dsimp only
  split
  · exact (State.setHot_shows htemp).congr (State.rd_wr_off _ _ _ (by decide))
      (State.rd_wr_fld _ _ _ MEM_CH_STAT_RETRAIN_ok MEM_CH_STAT_HOT_ok rfl (by decide))
      (State.rd_wr_apart _ _ _ _ (by decide) (by decide) (by decide)) (State.rd_wr_apart _ _ _ _ (by decide) (by decide) (by decide))
  · exact State.setHot_shows htemp

/-- Each of the device's four channels shows its reading. -/
theorem memTempRead_shows (s : State) (d : Nat) {t : Nat} (ht : t < 256) {i : Nat} (hi : i < 4) :
    (memTempRead d t s).ShowsTemp t (4 * d + i) :=
  foldl_range_holds (P := fun i u => u.ShowsTemp t (4 * d + i)) (fun u i => u.chTemp_shows (4 * d + i) ht)
    (fun _ _ _ hij h => h.chTemp_ne (by omega) t) s hi

theorem memTempRead_cfg (s : State) (d t : Nat) {f : Fld} (hf : f.off = F.MEM_REF_CFG.off) : (memTempRead d t s).rd f 0 = s.rd f 0 :=
  foldl_keeps (fun s => s.rd f 0) (fun s i => s.chTemp_cfg (4 * d + i) t hf) _ _

end

/-! ### What a watched fault leaves alone (R400, R404) -/

section
variable {β : Type} (q : State → β) (hflt : ∀ (s : State) (x : Flt), q { s with flt := x } = q s)
  (hmsix : ∀ s v, q (State.msix s v) = q s) (htotal : ∀ s i, q (State.inc s F.FLT_INST_TOTAL i) = q s)
  (hraise : ∀ s cls idx, q (State.raise s cls idx) = q s) (src inst : Nat)
  (hact : ∀ s action, q (State.applyAction s src inst action).1 = q s)
include hflt hmsix hraise hact

theorem State.lastingBegin_keeps (s : State) : q (s.lastingBegin src inst) = q s := by
  unfold State.lastingBegin
  extract_lets action wc r t w place marked logged raised
  have hraised : q raised = q s := (hraise _ _ _).trans ((hflt _ _).trans ((hflt _ _).trans (hact _ _)))
  split
  · exact (hmsix _ _).trans hraised
  · exact hraised

theorem State.countEvent_keeps (s : State) : q (s.countEvent src inst) = q s := by
  unfold State.countEvent
  extract_lets w n ticks counted
  have hcounted : q counted = q s := hflt _ _
  rw [apply_ite q, State.lastingBegin_keeps q hflt hmsix hraise src inst hact, ite_self, hcounted]

include htotal

theorem State.watch_keeps (s : State) : q (s.watch src inst) = q s := by
  unfold State.watch
  dsimp only
  rw [apply_ite q, State.countEvent_keeps q hflt hmsix hraise src inst hact, ite_self, htotal]

end

/-- A device that does not hold its training can only be mapped out (Table: Fault actions). -/
theorem State.applyAction_retrain (s : State) (inst action : Nat) : (s.applyAction fsMemRetrain inst action).1 = s ∨
    (s.applyAction fsMemRetrain inst action).1 = s.mapOut (inst / 4) := by
  unfold State.applyAction
  split
  · exact .inr rfl
  · split
    · exact .inl rfl
    · split <;> exact .inl rfl

/-- A GO_OUT touches MEM_MAPOUT alone. -/
theorem State.mapOut_rd (s : State) (d i : Nat) {f : Fld} (hf : f.off < 0x100000) (hne : f.off ≠ F.MEM_MAPOUT.off) :
    (s.mapOut d).rd f i = s.rd f i := by
  have hwr (t : State) (g : Fld) (v : Nat) (hg : g.off = F.MEM_MAPOUT.off) : (t.wr g 0 v).rd f i = t.rd f i :=
    t.rd_wr_apart _ _ _ (by rw [hg]; decide) hf (by rwa [hg])
  unfold State.mapOut
  split
  · rw [State.rd_withMem, hwr _ F.MEM_MAPOUT_REFUSED _ rfl, hwr _ F.MEM_MAPOUT_DEV _ rfl, hwr _ F.MEM_MAPOUT_STATE _ rfl]
  · exact hwr _ F.MEM_MAPOUT_REFUSED _ rfl

theorem State.log_rd (s : State) (code req index : Nat) (data : List Nat) (f : Fld) (i : Nat) :
    (s.log code req index data).rd f i = s.rd f i := rfl

theorem State.msix_rd (s : State) (vec : Nat) (f : Fld) (i : Nat) : (s.msix vec).rd f i = s.rd f i := by
  unfold State.msix
  split
  · split <;> rfl
  · rfl

/-- A fault of a device's training leaves the registers of its channels alone. -/
theorem State.watch_retrain_rd (s : State) (inst i : Nat) {f : Fld} (hf : f.off < 0x90000) (hne : f.off ≠ F.MEM_MAPOUT.off) :
    (s.watch fsMemRetrain inst).rd f i = s.rd f i := by
  have htotal : f.off ≠ F.FLT_INST_TOTAL.off := Nat.ne_of_lt (Nat.lt_trans hf (by decide))
  refine State.watch_keeps (fun s => s.rd f i) (fun _ _ => rfl) (fun s v => s.msix_rd v f i)
    (fun s j => s.rd_inc_apart j i (by decide) (by omega) htotal) (fun s cls idx => s.raise_rd cls idx i hf) _ _ (fun s action => ?_) s
  rcases s.applyAction_retrain inst action with hsame | hout
  · rw [hsame]
  · rw [hout]
    exact s.mapOut_rd _ i (by omega) hne

/-! ### Retraining (R298 to R300) -/

theorem retrainSlot_finishes {s : State} (h : s.Runs) (m : Fin 64) (outOfReach : Bool) :
    Finishes (.retrainSlot m outOfReach) s (retrainSlot m outOfReach s) := done_runs h

/-- A slot begun. -/
def State.slotBegun (s : State) (m : Nat) : State :=
  s.modMch m (fun x => { x with slotDone := true, deferred := 0, slotEnd := s.pegs.cyc + slotCycles })

theorem State.slotBegun_rd (s : State) (m : Nat) (f : Fld) (i : Nat) : (s.slotBegun m).rd f i = s.rd f i := rfl

/-- The eighth slot behind: the device is trained at its present temperature. -/
def State.trainedAt (s : State) (m : Nat) : State :=
  ((s.wr F.MEM_CH_TEMP_SLOTS m 0).wr F.MEM_CH_STAT_RETRAIN m 0).wr F.MEM_CH_TEMP_T_TRAIN m (s.rd F.MEM_CH_TEMP_TEMP m)

/-- A device out of reach: its retraining has failed. -/
def State.trainFailed (s : State) (m : Nat) : State :=
  ((s.wr F.MEM_CH_STAT_RETRAIN_FAIL m 1).wr F.MEM_CH_STAT_RETRAIN m 0).wr F.MEM_CH_TEMP_SLOTS m 0

section
variable (s : State) (m : Nat)

theorem State.trainedAt_rd : (s.trainedAt m).rd F.MEM_CH_TEMP_SLOTS m = 0 ∧ (s.trainedAt m).rd F.MEM_CH_STAT_RETRAIN m = 0 ∧
    (s.trainedAt m).rd F.MEM_CH_TEMP_T_TRAIN m = s.rd F.MEM_CH_TEMP_TEMP m := by
  refine ⟨?_, ?_, ?_⟩ <;> unfold State.trainedAt
  · rw [State.rd_wr_fld _ _ _ MEM_CH_TEMP_T_TRAIN_ok MEM_CH_TEMP_SLOTS_ok rfl (by decide), State.rd_wr_off _ _ _ (by decide)]
    exact s.rd_wr_same _ _ _ MEM_CH_TEMP_SLOTS_ok
  · rw [State.rd_wr_off _ _ _ (by decide)]
    exact State.rd_wr_same _ _ _ _ MEM_CH_STAT_RETRAIN_ok
  · rw [State.rd_wr_same _ _ _ _ MEM_CH_TEMP_T_TRAIN_ok]
    exact Nat.mod_eq_of_lt (getF_lt _ F.MEM_CH_TEMP_TEMP)

theorem State.trainFailed_rd : (s.trainFailed m).rd F.MEM_CH_STAT_RETRAIN_FAIL m = 1 ∧
    (s.trainFailed m).rd F.MEM_CH_STAT_RETRAIN m = 0 := by
  refine ⟨?_, ?_⟩ <;> unfold State.trainFailed <;> rw [State.rd_wr_off _ _ _ (by decide)]
  · rw [State.rd_wr_fld _ _ _ MEM_CH_STAT_RETRAIN_ok MEM_CH_STAT_RETRAIN_FAIL_ok rfl (by decide)]
    exact s.rd_wr_same _ _ _ MEM_CH_STAT_RETRAIN_FAIL_ok
  · exact State.rd_wr_same _ _ _ _ MEM_CH_STAT_RETRAIN_ok

end

section
variable {s : State} {m : Nat}

theorem retrainSlot_not_yet (h : s.slotMayStart m = false) (outOfReach : Bool) : retrainSlot m outOfReach s = s := if_pos (by simp [h])

/-- A slot starts only on a channel that wants retraining. -/
theorem State.slotMayStart_retrain (h : s.slotMayStart m = true) : s.rd F.MEM_CH_STAT_RETRAIN m = 1 := by
  have hon : s.on F.MEM_CH_STAT_RETRAIN m = true := by
    simp only [State.slotMayStart, Bool.and_eq_true] at h
    obtain ⟨⟨⟨⟨⟨hon, -⟩, -⟩, -⟩, -⟩, -⟩ := h
    exact hon
  have hlt : s.rd F.MEM_CH_STAT_RETRAIN m < 2 := getF_lt _ F.MEM_CH_STAT_RETRAIN
  have hne : s.rd F.MEM_CH_STAT_RETRAIN m ≠ 0 := bne_iff_ne.mp hon
  omega

variable (h : s.slotMayStart m = true)
include h

theorem retrainSlot_counts (hslots : s.rd F.MEM_CH_TEMP_SLOTS m + 1 < 8) :
    retrainSlot m false s = (s.slotBegun m).inc F.MEM_CH_TEMP_SLOTS m := by
  rw [retrainSlot, if_neg (by simp [h])]
  exact (if_neg Bool.false_ne_true).trans (if_pos hslots)

theorem retrainSlot_ends (hslots : 8 ≤ s.rd F.MEM_CH_TEMP_SLOTS m + 1) :
    retrainSlot m false s = ((s.slotBegun m).trainedAt m).inc F.MEM_CH_RETRAIN m := by
  rw [retrainSlot, if_neg (by simp [h])]
  exact (if_neg Bool.false_ne_true).trans (if_neg (Nat.not_lt.mpr hslots))

theorem retrainSlot_fails : retrainSlot m true s =
    ((((s.slotBegun m).trainFailed m).log 0x0802 engineReq m [((s.slotBegun m).trainFailed m).rd F.MEM_CH_TEMP_TEMP m]).raise 12 m).watch
      fsMemRetrain m := by
  rw [retrainSlot, if_neg (by simp [h])]
  rfl

/-- What follows a failed retraining leaves the registers of the channels. -/
theorem retrainSlot_fails_rd {f : Fld} (hf : f.off < 0x90000) (hne : f.off ≠ F.MEM_MAPOUT.off) (i : Nat) :
    (retrainSlot m true s).rd f i = ((s.slotBegun m).trainFailed m).rd f i := by
  rw [retrainSlot_fails h, State.watch_retrain_rd _ _ _ hf hne, State.raise_rd _ _ _ _ hf, State.log_rd]

end

/-! ### The statement -/

/-- Settles O47: each command by whether the channel is in use and in a slot; the command slot by what it serves; the temperature by
what each of a device's channels shows. -/
theorem memoryChannels : Obligations.MemoryChannels := by
  intro s m hs
  have hdue := refreshInterval_finishes hs m
  have hpay := refreshPayback_finishes hs m
  have hcmd := memCommandSlot_finishes hs m
  refine ⟨fun huse => ⟨?unusedDue, ?unusedPay, fun ready => ?unusedSlot⟩, fun huse hslot => ⟨?dueInSlot, fun ready => ?cmdInSlot⟩,
    fun h => ?payIgnored, fun huse hslot hroom => ⟨fun hpanic => ?calm, fun hpanic hmax => ?postponed, fun hpanic hmax => ?forced,
      fun hpanic hdebt => ?payback⟩, fun ready huse hslot hpend => ?refresh, fun ready x huse hslot hpend hx => ?opened, fun d t => ?temp,
    fun h b => ?notYet, fun h => ⟨fun hslots => ?counts, fun hslots => ?ends, ?fails⟩⟩
  case unusedDue => rwa [refreshInterval_unused huse] at hdue
  case unusedPay => rwa [refreshPayback_unused huse] at hpay
  case unusedSlot =>
    have hfin := hcmd ready
    rwa [memCommandSlot_unused _ _ _ huse] at hfin
  case dueInSlot => rwa [refreshInterval_inSlot huse hslot] at hdue
  case cmdInSlot =>
    have hfin := hcmd ready
    rwa [memCommandSlot_inSlot _ huse hslot] at hfin
  case payIgnored => rwa [refreshPayback_ignored h] at hpay
  case calm =>
    rw [refreshInterval_calm huse hslot hpanic] at hdue
    refine ⟨_, hdue, s.refreshDue_debt m hroom, ?_, s.refreshDue_onlyRegs m _⟩
    rw [State.refreshSent_pend, State.mch_wr]
  case postponed => rwa [refreshInterval_postponed huse hslot hpanic hmax] at hdue
  case forced =>
    rw [refreshInterval_forced huse hslot hpanic hmax] at hdue
    refine ⟨_, hdue, ?_, ?_, s.refreshForced_count m _⟩
    · rw [State.rd_inc_apart _ _ _ (by decide) (by decide) (by decide)]
      exact s.refreshDue_debt m hroom
    · rw [State.mch_inc, State.refreshSent_pend, State.mch_wr]
  case payback =>
    rw [refreshPayback_sent huse hslot hpanic hdebt] at hpay
    exact ⟨_, hpay, s.refreshSent_debt m, s.refreshSent_pend m⟩
  case refresh =>
    have hfin := hcmd ready
    rw [memCommandSlot_refresh _ huse hslot hpend, State.drained_mch] at hfin
    refine ⟨_, hfin, rfl, ?_, ?_, rfl⟩ <;> rw [State.mch_emit, State.mch_setMch_same]
  case opened =>
    subst hx
    refine ⟨fun q hq => ?request, fun hpick hbanks => ?bank, fun hpick hbanks hnormal => ?idle⟩
    case request =>
      have hserved : memCommandSlot m ready.toNat s = (s.drained m).issue m q := by
        rcases hq with hpanic | ⟨hpick, hbanks, hnormal⟩
        · exact memCommandSlot_panicRead _ huse hslot hpend hpanic
        · exact memCommandSlot_request _ huse hslot hpend hpick hbanks (by rwa [State.drained_mch])
      have hfin := hcmd ready
      rw [hserved] at hfin
      refine ⟨hfin, fun hclean => ⟨_, hfin, ?_, ?_, ?_⟩⟩
      · rw [State.issue_fly (s := s.drained m) hclean, State.drained_mch]
      · rw [State.issue_access (s := s.drained m) hclean]
        rfl
      · rw [State.issue_access (s := s.drained m) hclean]
        rfl
    case bank =>
      have hfin := hcmd ready
      rw [memCommandSlot_bank _ huse hslot hpend hpick hbanks] at hfin
      obtain ⟨b, hb, hout⟩ := State.bankRefresh_out (s := s.drained m) (m := m) hbanks
      refine ⟨_, b, hfin, hb, hout, ?_⟩
      rw [State.bankRefresh_queue, State.drained_mch]
    case idle =>
      have hfin := hcmd ready
      rw [memCommandSlot_idle _ huse hslot hpend hpick hbanks (by rwa [State.drained_mch])] at hfin
      exact ⟨_, hfin, s.drained_mch m, rfl⟩
  case temp =>
    refine ⟨_, memTempRead_finishes hs d t, fun i hi => ?_⟩
    obtain ⟨htemp, hhot, hcool⟩ := memTempRead_shows s d t.isLt hi
    rw [memTempRead_cfg s d t.toNat (f := F.MEM_REF_CFG_HOT_ON) rfl] at hhot hcool
    rw [memTempRead_cfg s d t.toNat (f := F.MEM_REF_CFG_HOT_OFF) rfl] at hcool
    exact ⟨htemp, hhot, hcool⟩
  case notYet =>
    have hfin := retrainSlot_finishes hs m b
    rwa [retrainSlot_not_yet h] at hfin
  case counts =>
    have hfin := retrainSlot_finishes hs m false
    rw [retrainSlot_counts h hslots] at hfin
    refine ⟨_, hfin, ?_, ?_, ?_⟩
    · rw [State.rd_inc_same _ _ MEM_CH_TEMP_SLOTS_ok]
      exact Nat.min_eq_left (Nat.le_trans (Nat.le_of_lt hslots) (by decide))
    · rw [State.rd_inc_apart _ _ _ (by decide) (by decide) (by decide)]
      exact (s.slotBegun_rd m _ _).trans (State.slotMayStart_retrain h)
    · rw [State.mch_inc, State.slotBegun, State.mch_modMch_same]
  case ends =>
    have hfin := retrainSlot_finishes hs m false
    rw [retrainSlot_ends h hslots] at hfin
    obtain ⟨hzero, hdone, htrain⟩ := (s.slotBegun m).trainedAt_rd m
    exact ⟨_, hfin, (State.rd_wr_off _ _ _ (by decide)).trans hzero, (State.rd_wr_off _ _ _ (by decide)).trans hdone,
      (State.rd_wr_off _ _ _ (by decide)).trans htrain⟩
  case fails =>
    obtain ⟨hfail, hdone⟩ := (s.slotBegun m).trainFailed_rd m
    exact ⟨_, retrainSlot_finishes hs m true, (retrainSlot_fails_rd h (by decide) (by decide) _).trans hfail,
      (retrainSlot_fails_rd h (by decide) (by decide) _).trans hdone⟩

end Sys2Proof.Machine
end

section
/-!
PROOF. What a command leaves alone of service-core memory (R286, R307): its bytes, the accesses under way to it, the reservations and
the answers. Faults that are watched, frames that leave the deep store and bursts on their way touch none of them.
-/

namespace Sys2Proof.Machine

/-- Service-core memory and what the cores have of it: its bytes, their accesses under way, their reservations, their answers. -/
def State.coreSide (s : State) : Tab Byte × Tab (Option CoreAcc) × Tab (Option Nat) × Tab (List Byte) :=
  (s.tds.coreMem, s.tds.accs, s.tds.resv, s.rdata)

section
variable {s t : State} (h : t.coreSide = s.coreSide)
include h

theorem State.coreMem_of_coreSide : t.tds.coreMem = s.tds.coreMem := congrArg Prod.fst h
theorem State.accOf_of_coreSide (id : Nat) : t.accOf id = s.accOf id :=
  congrArg (fun x : Tab Byte × Tab (Option CoreAcc) × Tab (Option Nat) × Tab (List Byte) => tget (fun _ => none) x.2.1 id) h
theorem State.resvOf_of_coreSide (core : Nat) : t.resvOf core = s.resvOf core :=
  congrArg (fun x : Tab Byte × Tab (Option CoreAcc) × Tab (Option Nat) × Tab (List Byte) => tget (fun _ => none) x.2.2.1 core) h
theorem State.rdata_of_coreSide : t.rdata = s.rdata := congrArg (fun x => x.2.2.2) h
theorem State.coreBytes_of_coreSide (a n : Nat) : t.coreBytes a n = s.coreBytes a n := by
  rw [State.coreBytes, State.coreMem_of_coreSide h, ← State.coreBytes]

end

/-! ### The updates of the state -/

section
variable (s : State)

@[simp] theorem State.coreSide_wr (f : Fld) (i v : Nat) : (s.wr f i v).coreSide = s.coreSide := rfl
@[simp] theorem State.coreSide_wrB (f : Fld) (i : Nat) (b : Bool) : (s.wrB f i b).coreSide = s.coreSide := rfl
@[simp] theorem State.coreSide_inc (f : Fld) (i : Nat) : (s.inc f i).coreSide = s.coreSide := rfl
@[simp] theorem State.coreSide_addN (f : Fld) (i n : Nat) : (s.addN f i n).coreSide = s.coreSide := rfl
@[simp] theorem State.coreSide_emit (o : Out) : (s.emit o).coreSide = s.coreSide := rfl
@[simp] theorem State.coreSide_log (code req index : Nat) (data : List Nat) : (s.log code req index data).coreSide = s.coreSide := rfl
@[simp] theorem State.coreSide_setWatch (src inst : Nat) (w : Watch) : (s.setWatch src inst w).coreSide = s.coreSide := rfl
@[simp] theorem State.coreSide_modLane (l : Nat) (f : Lane → Lane) : (s.modLane l f).coreSide = s.coreSide := rfl
@[simp] theorem State.coreSide_modTree (c : Nat) (f : Tree → Tree) : (s.modTree c f).coreSide = s.coreSide := rfl
@[simp] theorem State.coreSide_setQueue (q : Nat) (l : List QEnt) : (s.setQueue q l).coreSide = s.coreSide := rfl
@[simp] theorem State.coreSide_countDrain (q n : Nat) : (s.countDrain q n).coreSide = s.coreSide := rfl
@[simp] theorem State.coreSide_freeCells (xs : List Nat) : (s.freeCells xs).coreSide = s.coreSide := rfl
@[simp] theorem State.coreSide_setDeepFr (id : Nat) (x : DeepFr) : (s.setDeepFr id x).coreSide = s.coreSide := rfl
@[simp] theorem State.coreSide_modDeepFr (id : Nat) (f : DeepFr → DeepFr) : (s.modDeepFr id f).coreSide = s.coreSide := rfl
@[simp] theorem State.coreSide_setMch (m : Nat) (x : MCh) : (s.setMch m x).coreSide = s.coreSide := rfl
@[simp] theorem State.coreSide_modMch (m : Nat) (f : MCh → MCh) : (s.modMch m f).coreSide = s.coreSide := rfl
@[simp] theorem State.coreSide_setStq (c : Nat) (l : List (List Byte)) : (s.setStq c l).coreSide = s.coreSide := rfl
@[simp] theorem State.coreSide_setRet (k : Nat) (v : Int) : (s.setRet k v).coreSide = s.coreSide := rfl
@[simp] theorem State.coreSide_resetBank (req : Nat) : (s.resetBank req).coreSide = s.coreSide := rfl
@[simp] theorem State.coreSide_putFrame (l block : Nat) (bytes : List Byte) : (s.putFrame l block bytes).coreSide = s.coreSide := rfl
@[simp] theorem State.coreSide_setHeadPlan (c : Nat) (p : Option Plan) : (s.setHeadPlan c p).coreSide = s.coreSide := rfl
@[simp] theorem State.coreSide_sendBurstLine (c payload k : Nat) : (s.sendBurstLine c payload k).coreSide = s.coreSide := rfl

theorem State.coreSide_withFlt (x : Flt) : ({ s with flt := x } : State).coreSide = s.coreSide := rfl
theorem State.coreSide_withMem (x : Mem) : ({ s with mem := x } : State).coreSide = s.coreSide := rfl
theorem State.coreSide_withStore (x : Store) : ({ s with store := x } : State).coreSide = s.coreSide := rfl

end

/-! ### Events raised and faults watched (R320, R400, R404, R405) -/

section
variable (s : State)

@[simp] theorem State.coreSide_eventTask (t : Nat) : (s.eventTask t).coreSide = s.coreSide := by
  unfold State.eventTask
  extract_lets counted st
  have hcounted : counted.coreSide = s.coreSide := by
    simp only [counted]
    split <;> rfl
  split
  · exact hcounted
  · exact hcounted

@[simp] theorem State.coreSide_raise (cls idx : Nat) : (s.raise cls idx).coreSide = s.coreSide := by
  unfold State.raise
  split
  · rfl
  · exact foldl_keeps State.coreSide State.coreSide_eventTask _ _

@[simp] theorem State.coreSide_msix (vec : Nat) : (s.msix vec).coreSide = s.coreSide := by
  unfold State.msix
  split
  · split <;> rfl
  · rfl

@[simp] theorem State.coreSide_mapOut (d : Nat) : (s.mapOut d).coreSide = s.coreSide := by
  unfold State.mapOut
  split <;> rfl

@[simp] theorem State.coreSide_lanesOut (out : Nat) : (s.lanesOut out).coreSide = s.coreSide := by
  unfold State.lanesOut
  split <;> rfl

@[simp] theorem State.coreSide_retireRow (o row : Nat) : (s.retireRow o row).1.coreSide = s.coreSide := by
  unfold State.retireRow
  split
  · rfl
  · split <;> rfl

@[simp] theorem State.coreSide_coreReset (k : Nat) : (s.coreReset k).coreSide = s.coreSide := by simp [State.coreReset]

/-- A core taken out of dispatch leaves its accesses and the memory as they are (R325). -/
@[simp] theorem State.coreSide_offlineCore (k : Nat) : (s.offlineCore k).coreSide = s.coreSide := by
  unfold State.offlineCore
  split
  · rfl
  · extract_lets before offline stopped waiting
    have hstopped : stopped.coreSide = s.coreSide := by
      simp only [stopped, offline]
      split
      · split <;> simp
      · simp
    refine (foldl_keeps State.coreSide (fun s t => ?_) _ _).trans hstopped
    split <;> rfl

@[simp] theorem State.coreSide_applyAction (src inst action : Nat) : (s.applyAction src inst action).1.coreSide = s.coreSide := by
  unfold State.applyAction
  split
  · split
    · simp
    · split <;> simp
  · split
    · split
      · rfl
      · split
        · dsimp only
          split <;> simp
        · split <;> simp
    · split <;> rfl

@[simp] theorem State.coreSide_countEvent (src inst : Nat) : (s.countEvent src inst).coreSide = s.coreSide :=
  State.countEvent_keeps State.coreSide State.coreSide_withFlt State.coreSide_msix State.coreSide_raise src inst
    (fun s action => s.coreSide_applyAction src inst action) s

@[simp] theorem State.coreSide_watch (src inst : Nat) : (s.watch src inst).coreSide = s.coreSide :=
  State.watch_keeps State.coreSide State.coreSide_withFlt State.coreSide_msix (fun s i => s.coreSide_inc F.FLT_INST_TOTAL i)
    State.coreSide_raise src inst (fun s action => s.coreSide_applyAction src inst action) s

@[simp] theorem State.coreSide_watchRow (o row : Nat) : (s.watchRow o row).coreSide = s.coreSide := by
  unfold State.watchRow
  dsimp only
  split
  · rfl
  · split
    · simp
    · split
      · rfl
      · split <;> simp

end

/-! ### Frames that leave the frame store and the deep store (R186, R192, R304) -/

section
variable (s : State)

@[simp] theorem State.coreSide_freeFs (xs : List Nat) : (s.freeFs xs).coreSide = s.coreSide := by
  unfold State.freeFs
  exact foldl_keeps State.coreSide (fun s x => s.coreSide_inc F.OCT_STORE_RETIRED (x / 98304)) _ _

@[simp] theorem State.coreSide_noteUse (o : Nat) : (s.noteUse o).coreSide = s.coreSide := by
  unfold State.noteUse
  dsimp only
  split <;> rfl

@[simp] theorem State.coreSide_setHeld (o n : Nat) : (s.setHeld o n).coreSide = s.coreSide := State.coreSide_noteUse _ _
@[simp] theorem State.coreSide_setPool (o n : Nat) : (s.setPool o n).coreSide = s.coreSide := State.coreSide_noteUse _ _
@[simp] theorem State.coreSide_showStaged (c : Nat) : (s.showStaged c).coreSide = s.coreSide := State.coreSide_noteUse _ _

@[simp] theorem State.coreSide_chUse (x : QFrame) (n : Nat) : (s.chUse x n).coreSide = s.coreSide := by
  unfold State.chUse
  split <;> rfl

@[simp] theorem State.coreSide_reclaimLost : s.reclaimLost.coreSide = s.coreSide := by
  unfold State.reclaimLost
  split <;> rfl

@[simp] theorem State.coreSide_clearDeep (id : Nat) : (s.clearDeep id).coreSide = s.coreSide := by
  unfold State.clearDeep
  dsimp only
  rw [State.coreSide_setDeepFr, State.coreSide_freeFs]
  split <;> rfl

@[simp] theorem State.coreSide_dropDeep (id : Nat) (withAdv : Bool) : (s.dropDeep id withAdv).coreSide = s.coreSide := by
  simp [State.dropDeep]

@[simp] theorem State.coreSide_release (x : QFrame) : (s.release x).coreSide = s.coreSide := by
  unfold State.release
  split
  · simp
  · split <;> simp

@[simp] theorem State.coreSide_countNoEntry (q : Nat) : (s.countNoEntry q).coreSide = s.coreSide := by
  unfold State.countNoEntry
  split <;> rfl

@[simp] theorem State.coreSide_dropDeficit (q : Nat) : (s.dropDeficit q).coreSide = s.coreSide := by
  unfold State.dropDeficit
  split
  · rfl
  · dsimp only
    split <;> rfl

@[simp] theorem State.coreSide_pull (q i : Nat) : (s.pull q i).coreSide = s.coreSide := by
  unfold State.pull
  dsimp only
  split
  · split <;> rfl
  · rfl

@[simp] theorem State.coreSide_takeOutDeep (id : Nat) : (s.takeOutDeep id).coreSide = s.coreSide := by
  unfold State.takeOutDeep
  split
  · extract_lets d term pulled pooled
    have hpooled : pooled.coreSide = s.coreSide := by
      simp only [pooled, pulled]
      split <;> simp
    split
    · rw [State.coreSide_showStaged, hpooled]
    · exact hpooled
  · rfl

@[simp] theorem State.coreSide_dropDeepFrame (id : Nat) : (s.dropDeepFrame id).coreSide = s.coreSide := by
  simp [State.dropDeepFrame]

@[simp] theorem State.coreSide_breakChain (id cell : Nat) : (s.breakChain id cell).coreSide = s.coreSide := by
  unfold State.breakChain
  dsimp only
  rw [State.coreSide_reclaimLost, State.coreSide_addN, State.coreSide_withMem, State.coreSide_freeCells]
  exact foldl_keeps State.coreSide (fun s j => by simp) _ _

@[simp] theorem State.coreSide_readFailed (r : MReq) (poisoned : Bool) : (s.readFailed r poisoned).coreSide = s.coreSide := by
  unfold State.readFailed
  split
  · split <;> simp
  · rfl

@[simp] theorem State.coreSide_landRestaged (q n : Nat) : (s.landRestaged q n).coreSide = s.coreSide := by
  induction n generalizing s with
  | zero => rfl
  | succ n ih =>
    unfold State.landRestaged
    split
    · rfl
    · dsimp only
      split
      · rw [ih]
        split <;> simp
      · rfl

end

/-! ### Bursts on their way (R138, R152) -/

section
variable (s : State)

@[simp] theorem State.coreSide_noteSent (q : Nat) (x : QFrame) : (s.noteSent q x).coreSide = s.coreSide := by
  unfold State.noteSent
  dsimp only
  rw [State.coreSide_dropDeficit, State.coreSide_withStore, State.coreSide_countDrain, State.coreSide_inc]

@[simp] theorem State.coreSide_readWords (r : FsRead) (i o : Nat) : (s.readWords r i o).1.coreSide = s.coreSide := by
  unfold State.readWords
  extract_lets rows
  have hrows : rows.coreSide = s.coreSide := by
    simp only [rows]
    exact foldl_keeps State.coreSide (fun s _ => s.coreSide_watchRow o _) _ _
  split
  · simpa using hrows
  · exact hrows

@[simp] theorem State.coreSide_bowTake (c : Nat) (f : PFrame) (x : QFrame) (t16 : Nat) (r : FsRead) (i : Nat) :
    (s.bowTake c f x t16 r i).1.coreSide = s.coreSide := by
  unfold State.bowTake
  dsimp only
  rw [State.coreSide_readWords]
  split <;> simp

@[simp] theorem State.coreSide_sealFrame (c dir tid : Nat) (bc asks : Bool) (ltn idx : Nat) (bytes : List Byte) :
    (s.sealFrame c dir tid bc asks ltn idx bytes).2.coreSide = s.coreSide := by
  unfold State.sealFrame
  extract_lets t
  split
  · rfl
  · split <;> rfl

@[simp] theorem State.coreSide_stampRecord (c stamp : Nat) (tx tc : Bool) (added : Nat) (frame : List Byte) (ofs : Nat) :
    (s.stampRecord c stamp tx tc added frame ofs).coreSide = s.coreSide := by
  unfold State.stampRecord
  dsimp only
  split <;> simp

@[simp] theorem State.coreSide_ptpCorrect (c : Nat) (f : Frame) (p : PtpAt) (body : List Byte) (exit : Nat) :
    (s.ptpCorrect c f p body exit).2.2.2.coreSide = s.coreSide := by
  unfold State.ptpCorrect
  split
  · rfl
  · dsimp only
    split
    · dsimp only
      split <;> rfl
    · rfl

@[simp] theorem State.coreSide_ptpExit (c : Nat) (f : Frame) (body : List Byte) (exit : Nat) :
    (s.ptpExit c f body exit).2.2.coreSide = s.coreSide := by
  unfold State.ptpExit
  split
  · rfl
  · dsimp only
    split <;> simp

@[simp] theorem State.coreSide_treeOut (c dir tid : Nat) (bc asks : Bool) (ltn block exit : Nat) (x : QFrame) (lob : Bool) :
    (s.treeOut c dir tid bc asks ltn block exit x lob).2.coreSide = s.coreSide := by
  unfold State.treeOut
  split <;> simp

@[simp] theorem State.coreSide_bowEmit (c u pos : Nat) (a : Arr) (prot : Bool) (x : QFrame) (lob : Bool) :
    (s.bowEmit c u pos a prot x lob).coreSide = s.coreSide := by
  unfold State.bowEmit
  dsimp only
  split <;> simp

@[simp] theorem State.coreSide_bowKeeps (c : Nat) (p : Plan) (chs : List Nat) (o : Nat) :
    (s.bowKeeps c p chs o).coreSide = s.coreSide := by
  induction chs generalizing s o with
  | nil => rfl
  | cons ch chs ih =>
    unfold State.bowKeeps
    dsimp only
    rw [ih]
    split <;> simp

@[simp] theorem State.coreSide_shpReturn (k bytes : Nat) : (s.shpReturn k bytes).coreSide = s.coreSide := by
  unfold State.shpReturn
  split <;> rfl

@[simp] theorem State.coreSide_unplanned (c : Nat) (prot : Bool) (fs : List PFrame) : (s.unplanned c prot fs).coreSide = s.coreSide := by
  refine foldl_keeps State.coreSide (fun s f => ?_) _ _
  split
  · rfl
  · exact foldl_keeps State.coreSide (fun s k => s.coreSide_shpReturn k _) _ _

@[simp] theorem State.coreSide_panicSettle (c : Nat) : (s.panicSettle c).coreSide = s.coreSide := by
  unfold State.panicSettle
  split <;> rfl

@[simp] theorem State.coreSide_burstDone (c : Nat) (p : Plan) : (s.burstDone c p).coreSide = s.coreSide := by
  unfold State.burstDone
  dsimp only
  rw [State.coreSide_panicSettle]
  split <;> simp

@[simp] theorem State.coreSide_underrun (c : Nat) (p : Plan) : (s.underrun c p).coreSide = s.coreSide := by
  simp [State.underrun]

@[simp] theorem State.coreSide_burstFrame (c : Nat) (p : Plan) (r : BurstRun) (f : PFrame) (x : QFrame) :
    (s.burstFrame c p r f x).coreSide = s.coreSide := by
  unfold State.burstFrame
  dsimp only
  rw [State.coreSide_modTree]
  split <;> simp

@[simp] theorem State.coreSide_burstMove (c : Nat) (last : Bool) (n : Nat) : (s.burstMove c last n).coreSide = s.coreSide := by
  induction n generalizing s with
  | zero => rfl
  | succ n ih =>
    unfold State.burstMove
    split
    · rfl
    · split
      · rfl
      · simp
      · split
        · simp [ih]
        · split
          · simp [ih]
          · split <;> simp

@[simp] theorem State.coreSide_burstRun (c : Nat) : (s.burstRun c).coreSide = s.coreSide := by simp [State.burstRun]

/-- The bursts on their way, brought up to now, leave service-core memory alone. -/
@[simp] theorem State.coreSide_burstsRun : s.burstsRun.coreSide = s.coreSide := by
  refine foldl_keeps State.coreSide (fun s c => ?_) _ _
  rw [apply_ite State.coreSide, State.coreSide_burstRun, ite_self]

end

/-! ### Granules of frames (R192, R302, R303, R306) -/

section
variable (s : State)

@[simp] theorem State.coreSide_poison (cell gran a b : Nat) : (s.poison cell gran a b).coreSide = s.coreSide := by
  unfold State.poison
  split <;> rfl

@[simp] theorem State.coreSide_unpoison (cell gran : Nat) : (s.unpoison cell gran).coreSide = s.coreSide := rfl

@[simp] theorem State.coreSide_memFrame (who id : Nat) (cells : List Nat) (bytes : Nat) (write panic : Bool) :
    (s.memFrame who id cells bytes write panic).coreSide = s.coreSide :=
  State.memFrame_keeps State.coreSide (fun s m => s.coreSide_inc F.MEM_CH_BQFULL m) State.coreSide_setMch s who id cells bytes write panic

@[simp] theorem State.coreSide_evacDone (id : Nat) (d : DeepFr) (e : Evac) : (s.evacDone id d e).coreSide = s.coreSide := rfl

@[simp] theorem State.coreSide_wroteGranule (r : MReq) : (s.wroteGranule r).coreSide = s.coreSide := by
  unfold State.wroteGranule
  dsimp only
  split
  · split <;> rfl
  · split
    · rfl
    · split
      · rfl
      · split <;> simp

@[simp] theorem State.coreSide_evacRead (id : Nat) : (s.evacRead id).coreSide = s.coreSide := by
  unfold State.evacRead
  dsimp only
  split
  · rfl
  · split <;> simp

@[simp] theorem State.coreSide_readGranule (r : MReq) : (s.readGranule r).coreSide = s.coreSide := by
  unfold State.readGranule
  split
  · rfl
  · split
    · simp
    · dsimp only
      split
      · split <;> simp
      · simp

@[simp] theorem State.coreSide_writeFailed (r : MReq) : (s.writeFailed r).coreSide = s.coreSide := by
  unfold State.writeFailed
  split
  · rfl
  · split <;> simp

@[simp] theorem State.coreSide_accessCounts (m : Nat) (r : DeepRes) : (s.accessCounts m r).coreSide = s.coreSide := by
  unfold State.accessCounts
  rw [State.coreSide_addN]
  exact foldl_keeps State.coreSide (fun s _ => s.coreSide_watch fsMemCorr m) _ _

@[simp] theorem State.coreSide_accessError (m kind bank row col who : Nat) :
    (s.accessError m kind bank row col who).coreSide = s.coreSide := by
  unfold State.accessError
  dsimp only
  rw [State.coreSide_watch, State.coreSide_raise, State.coreSide_log]
  split <;> rfl

/-- The copy of a granule touches the poison table and the counts alone. -/
@[simp] theorem State.coreSide_copyGranule (m a : Nat) (res : DeepRes) : (s.copyGranule m a res).coreSide = s.coreSide := by
  unfold State.copyGranule
  split
  · rfl
  · split <;> simp

/-- An access of another requester than a core leaves service-core memory alone. -/
theorem State.coreSide_requestDone {r : MReq} (hwho : r.who ≠ whoCore) (m : Nat) (res : DeepRes) :
    (s.requestDone m r res).coreSide = s.coreSide := by
  unfold State.requestDone
  split
  · rw [if_neg hwho]
    split <;> simp
  · dsimp only
    rw [if_neg hwho]
    split <;> simp

end

end Sys2Proof.Machine
end

section
/-!
PROOF. Service-core memory, granule by granule (R301 to R303, R306 to R308): what a granule that completes stores, answers and
poisons. Settles O48.
-/

namespace Sys2Proof.Machine

/-! ### Numbers and their bytes -/

theorem bytesLE_succ (n v : Nat) : bytesLE (n + 1) v = v % 256 :: bytesLE n (v / 256) := by
  have hbyte (i : Nat) : v / 2 ^ (8 * (i + 1)) = v / 256 / 2 ^ (8 * i) := by
    rw [Nat.div_div_eq_div_mul, Nat.mul_succ, Nat.pow_add, Nat.mul_comm]
  rw [bytesLE, List.range_succ_eq_map, List.map_cons, List.map_map, Nat.mul_zero, Nat.pow_zero, Nat.div_one]
  exact congrArg (v % 256 :: ·) (List.map_congr_left (fun i _ => congrArg (· % 256) (hbyte i)))

/-- The bytes of a number made of bytes are those bytes. -/
theorem toBytes_bytesLE_ofLE (l : List Byte) : toBytes (bytesLE l.length (ofLE (l.map BitVec.toNat))) = l := by
  induction l with
  | nil => rfl
  | cons b l ih =>
    have hlow : (b.toNat + 256 * ofLE (l.map BitVec.toNat)) % 256 = b.toNat := by
      rw [Nat.add_mul_mod_self_left]
      exact Nat.mod_eq_of_lt b.isLt
    have hhigh : (b.toNat + 256 * ofLE (l.map BitVec.toNat)) / 256 = ofLE (l.map BitVec.toNat) := by
      rw [Nat.add_mul_div_left _ _ (by decide), Nat.div_eq_of_lt b.isLt, Nat.zero_add]
    rw [List.length_cons, List.map_cons, ofLE, bytesLE_succ, hlow, hhigh, toBytes, List.map_cons, ← toBytes, ih,
      BitVec.ofNat_toNat, BitVec.setWidth_eq]

/-- The value of bytes, laid out again, is those bytes. -/
theorem toBytes_bytesLE_coreValue (l : List Byte) : toBytes (bytesLE l.length (coreValue l)) = l := by
  have hbytes : (List.range l.length).map (fun i => byteAt l (0 + i)) = l.map BitVec.toNat := by
    refine List.ext_getElem (by simp) (fun i hi _ => ?_)
    have hlt : i < l.length := by simpa using hi
    simp [byteAt, hlt]
  rw [coreValue, fieldLE_eq_ofLE, hbytes, toBytes_bytesLE_ofLE]

theorem length_exactly (n : Nat) (l : List Byte) : (exactly n l).length = n := by simp [exactly]

/-! ### Bytes stored (R307) -/

section
variable (s : State)

theorem State.getElem_coreBytes (a n i : Nat) (h : i < (s.coreBytes a n).length) :
    (s.coreBytes a n)[i] = tget (fun _ => 0) s.tds.coreMem (a + i) := by
  simp only [State.coreBytes, List.getElem_map, List.getElem_range]

theorem State.coreBytes_coreAnswer (core a n : Nat) (b : List Byte) : (s.coreAnswer core b).coreBytes a n = s.coreBytes a n := rfl
theorem State.coreBytes_setResv (core a n : Nat) (g : Option Nat) : (s.setResv core g).coreBytes a n = s.coreBytes a n := rfl
theorem State.coreBytes_breakResv (core g a n : Nat) : (s.breakResv core g).coreBytes a n = s.coreBytes a n := rfl

/-- Bytes put into service-core memory stand there. -/
theorem State.coreBytes_putCoreBytes (a : Nat) (bs : List Byte) : (s.putCoreBytes a bs).coreBytes a bs.length = bs := by
  refine List.ext_getElem (by simp [State.coreBytes]) (fun i hi hlt => ?_)
  rw [State.getElem_coreBytes, putCoreBytes_get, if_pos ⟨by omega, by omega⟩, Nat.add_sub_cancel_left, List.getD_eq_getElem _ _ hlt]

/-- The part of a core's write that lies in a granule, byte by byte: each enabled byte where it belongs. -/
theorem storeGranule_fold_get (d : List (Option Byte)) (t : Tab Byte) (a g k b : Nat) :
    tget (fun _ => 0) ((d.zipIdx k).foldl (fun t (e : Option Byte × Nat) => match e.1 with
      | none => t
      | some v => if (a + e.2) / 64 * 64 = g then tput (fun _ => 0) t (a + e.2) v else t) t) b =
    if a + k ≤ b ∧ b / 64 * 64 = g then (d[b - (a + k)]?.join).getD (tget (fun _ => 0) t b) else tget (fun _ => 0) t b := by
  induction d generalizing t k with
  | nil => simp
  | cons e d ih =>
    rw [List.zipIdx_cons, List.foldl_cons, ih]
    by_cases hb : b = a + k
    · subst hb
      have hpast : ¬ a + (k + 1) ≤ a + k := by omega
      rw [if_neg (fun h => hpast h.1), Nat.sub_self]
      by_cases hg : (a + k) / 64 * 64 = g
      · cases e with
        | none => simp
        | some v => simp [hg, tget_tput_same]
      · cases e with
        | none => simp
        | some v => simp [hg]
    · have hother (v : Byte) : tget (fun _ => 0) (tput (fun _ => 0) t (a + k) v) b = tget (fun _ => 0) t b := tget_tput_ne _ _ _ hb
      have hsame : tget (fun _ => 0) (match e with
          | none => t
          | some v => if (a + k) / 64 * 64 = g then tput (fun _ => 0) t (a + k) v else t) b = tget (fun _ => 0) t b := by
        cases e with
        | none => rfl
        | some v =>
          dsimp only
          split
          · exact hother v
          · rfl
      by_cases hle : a + k ≤ b
      · have hnext : b - (a + k) = b - (a + (k + 1)) + 1 := by omega
        have hle' : a + (k + 1) ≤ b := by omega
        simp only [hsame, hle, hle', hnext, List.getElem?_cons_succ]
      · have hle' : ¬ a + (k + 1) ≤ b := by omega
        simp only [hsame, hle, hle', false_and, if_false]

theorem State.storeGranule_get (core a g b : Nat) (d : List (Option Byte)) :
    tget (fun _ => 0) (s.storeGranule core a g d).tds.coreMem b =
      if a ≤ b ∧ b / 64 * 64 = g then (d[b - a]?.join).getD (tget (fun _ => 0) s.tds.coreMem b) else tget (fun _ => 0) s.tds.coreMem b :=
  storeGranule_fold_get d s.tds.coreMem a g 0 b

/-- Every byte outside the granule or outside the write stays. -/
theorem State.storeGranule_outside {core a g b : Nat} {d : List (Option Byte)} (h : b / 64 * 64 ≠ g ∨ b < a ∨ a + d.length ≤ b) :
    tget (fun _ => 0) (s.storeGranule core a g d).tds.coreMem b = tget (fun _ => 0) s.tds.coreMem b := by
  rw [State.storeGranule_get]
  split
  next hin =>
    have hend : d[b - a]? = none := List.getElem?_eq_none (by omega)
    rw [hend]
    rfl
  next => rfl

theorem State.storeGranule_inside {core a g k : Nat} {d : List (Option Byte)} {v : Byte} (hd : d[k]? = some (some v))
    (hg : (a + k) / 64 * 64 = g) : tget (fun _ => 0) (s.storeGranule core a g d).tds.coreMem (a + k) = v := by
  rw [State.storeGranule_get, if_pos ⟨Nat.le_add_right _ _, hg⟩, Nat.add_sub_cancel_left, hd]
  rfl

/-! ### Atomic operations (R307) -/

theorem State.coreAnswer_rdata (core : Nat) (b : List Byte) : tget (fun _ => []) (s.coreAnswer core b).rdata (core + 1) = b :=
  tget_tput_same _ _ _ _

theorem State.resvOf_setResv (core : Nat) (g : Option Nat) : (s.setResv core g).resvOf core = g := tget_tput_same _ _ _ _

section
variable (core a : Nat) (wide : Bool) (d : List Byte)

/-- An operation answers the value that stood, but for a store-conditional. -/
theorem State.amo_answer {op : Amo} (h : op ≠ .sc) :
    tget (fun _ => []) (s.amo core a op wide d).rdata (core + 1) = s.coreBytes a (amoSize wide) := by
  unfold State.amo
  dsimp only
  rw [if_neg h]
  split
  · exact State.coreAnswer_rdata _ _ _
  · exact State.coreAnswer_rdata _ _ _

theorem State.amo_lr : (s.amo core a .lr wide d).tds.coreMem = s.tds.coreMem ∧
    (s.amo core a .lr wide d).resvOf core = some (a / 64 * 64) := ⟨rfl, s.resvOf_setResv core _⟩

theorem State.amo_sc_broken (h : s.resvOf core ≠ some (a / 64 * 64)) : (s.amo core a .sc wide d).tds.coreMem = s.tds.coreMem ∧
    tget (fun _ => []) (s.amo core a .sc wide d).rdata (core + 1) = toBytes (bytesLE (amoSize wide) 1) := by
  have heq : s.amo core a .sc wide d = (s.setResv core none).coreAnswer core (toBytes (bytesLE (amoSize wide) 1)) := if_neg h
  rw [heq]
  exact ⟨rfl, State.coreAnswer_rdata _ _ _⟩

/-- The bytes that an operation leaves. -/
def State.amoBytes (op : Amo) : List Byte :=
  toBytes (bytesLE (amoSize wide) (amoValue op (8 * amoSize wide) (coreValue (s.coreBytes a (amoSize wide)))
    (coreValue (exactly (amoSize wide) d))))

theorem State.coreBytes_putAmo (op : Amo) :
    (s.putCoreBytes a (s.amoBytes a wide d op)).coreBytes a (amoSize wide) = s.amoBytes a wide d op := by
  have hlen : (s.amoBytes a wide d op).length = amoSize wide := length_toBytes_bytesLE _ _
  have hput := s.coreBytes_putCoreBytes a (s.amoBytes a wide d op)
  rwa [hlen] at hput

theorem State.amo_sc_stored (h : s.resvOf core = some (a / 64 * 64)) :
    (s.amo core a .sc wide d).coreBytes a (amoSize wide) = exactly (amoSize wide) d ∧
    tget (fun _ => []) (s.amo core a .sc wide d).rdata (core + 1) = toBytes (bytesLE (amoSize wide) 0) := by
  have heq : s.amo core a .sc wide d = (((s.putCoreBytes a (s.amoBytes a wide d .sc)).breakResv core (a / 64 * 64)).setResv core
      none).coreAnswer core (toBytes (bytesLE (amoSize wide) 0)) := if_pos h
  have hbytes : s.amoBytes a wide d .sc = exactly (amoSize wide) d := by
    have hlaid := toBytes_bytesLE_coreValue (exactly (amoSize wide) d)
    rwa [length_exactly] at hlaid
  rw [heq, State.coreBytes_coreAnswer, State.coreBytes_setResv, State.coreBytes_breakResv, State.coreBytes_putAmo]
  exact ⟨hbytes, State.coreAnswer_rdata _ _ _⟩

theorem State.amo_stores {op : Amo} (hlr : op ≠ .lr) (hsc : op ≠ .sc) :
    (s.amo core a op wide d).coreBytes a (amoSize wide) = s.amoBytes a wide d op := by
  have heq : s.amo core a op wide d = ((s.putCoreBytes a (s.amoBytes a wide d op)).breakResv core (a / 64 * 64)).coreAnswer core
      (s.coreBytes a (amoSize wide)) := (if_neg hlr).trans (if_neg hsc)
  rw [heq, State.coreBytes_coreAnswer, State.coreBytes_breakResv, State.coreBytes_putAmo]

end

/-! ### A granule of a core's access (R302, R303, R308) -/

/-- What a granule that completes leaves in memory: the part of a write in it, or in error its poison. -/
def State.granuleStored (x : CoreAcc) (r : MReq) (err : Bool) : State :=
  match err, x.op with
  | false, .write d =>
    let t := s.storeGranule x.core x.addr (coreByte r.cell r.gran) d
    if rewrites x.addr (coreByte r.cell r.gran) d then t.unpoison r.cell r.gran else t
  | true, .write _ => s.poison r.cell r.gran 0 0
  | _, _ => s

/-- The access fault that the first granule in error raises. -/
def State.granuleFault (x : CoreAcc) (err : Bool) : State :=
  if err && !x.bad then s.coreFault x.core x.addr x.op.stores else s

/-- An access without a granule that has completed. -/
def CoreAcc.without (x : CoreAcc) (g : Nat) (err : Bool) : CoreAcc := { x with todo := x.todo.erase g, bad := x.bad || err }

/-- An access whose granule has completed goes on, or ends. -/
def State.accMoves (id : Nat) (x : CoreAcc) : State := if x.todo = [] then s.accDone id x else s.setAcc id (some x)

@[simp] theorem State.coreSide_coreFault (core a : Nat) (store : Bool) : (s.coreFault core a store).coreSide = s.coreSide := by
  unfold State.coreFault
  dsimp only
  rw [State.coreSide_watch, State.coreSide_log, State.coreSide_emit]
  split <;> rfl

@[simp] theorem State.coreSide_granuleFault (x : CoreAcc) (err : Bool) : (s.granuleFault x err).coreSide = s.coreSide := by
  unfold State.granuleFault
  split
  · exact s.coreSide_coreFault _ _ _
  · rfl

end

section
variable {s : State} {r : MReq} {x : CoreAcc}

theorem State.coreGranule_moves (err : Bool) (hacc : s.accOf r.frame = some x) (htodo : x.todo.contains (coreByte r.cell r.gran) = true) :
    s.coreGranule r err =
      ((s.granuleStored x r err).granuleFault x err).accMoves r.frame (x.without (coreByte r.cell r.gran) err) := by
  rw [State.coreGranule, hacc]
  exact if_neg (by rw [htodo]; decide)

theorem CoreAcc.without_last {g : Nat} (htodo : x.todo = [g]) (hbad : x.bad = false) :
    (x.without g false).todo = [] ∧ (x.without g false).bad = false := by simp [CoreAcc.without, htodo, hbad]

theorem State.granuleStored_write {d : List (Option Byte)} (hop : x.op = .write d) :
    (s.granuleStored x r false).tds.coreMem = (s.storeGranule x.core x.addr (coreByte r.cell r.gran) d).tds.coreMem := by
  unfold State.granuleStored
  rw [hop]
  dsimp only
  split <;> rfl

/-- A granule in error stores nothing. -/
theorem State.granuleStored_error (x : CoreAcc) : (s.granuleStored x r true).coreSide = s.coreSide := by
  unfold State.granuleStored
  split
  next herr _ => cases herr
  next => exact s.coreSide_poison _ _ _ _
  next => rfl

/-- Only a write stores at its granules. -/
theorem State.granuleStored_other (err : Bool) (hop : ∀ d, x.op ≠ .write d) : s.granuleStored x r err = s := by
  unfold State.granuleStored
  split
  next d hd => exact absurd hd (hop d)
  next d hd => exact absurd hd (hop d)
  next => rfl

/-! ### The end of an access -/

theorem State.accMoves_write_coreMem {d : List (Option Byte)} (id : Nat) (hop : x.op = .write d) :
    (s.accMoves id x).tds.coreMem = s.tds.coreMem := by
  unfold State.accMoves State.accDone
  rw [hop]
  split
  · dsimp only
    split <;> rfl
  · rfl

theorem State.accMoves_read_coreMem {n : Nat} (id : Nat) (hop : x.op = .read n) : (s.accMoves id x).tds.coreMem = s.tds.coreMem := by
  unfold State.accMoves State.accDone
  rw [hop]
  split
  · dsimp only
    split <;> rfl
  · rfl

/-- An access in error answers nothing. -/
theorem State.accMoves_bad_rdata (id : Nat) (hbad : x.bad = true) : (s.accMoves id x).rdata = s.rdata := by
  have hdone : s.accDone id x = s.setAcc id none := if_pos hbad
  rw [State.accMoves, hdone]
  split <;> rfl

section
variable (id : Nat) (htodo : x.todo = []) (hbad : x.bad = false)
include htodo hbad

theorem State.accMoves_read_rdata {n : Nat} (hop : x.op = .read n) :
    tget (fun _ => []) (s.accMoves id x).rdata (x.core + 1) = s.coreBytes x.addr n := by
  have heq : s.accMoves id x = (s.setAcc id none).coreAnswer x.core ((s.setAcc id none).coreBytes x.addr n) := by
    rw [State.accMoves, if_pos htodo, State.accDone, hop]
    exact if_neg (by rw [hbad]; decide)
  rw [heq]
  exact State.coreAnswer_rdata _ _ _

theorem State.accMoves_amo {op : Amo} {wide : Bool} {d : List Byte} (hop : x.op = .amo op wide d) :
    s.accMoves id x = (s.setAcc id none).amo x.core x.addr op wide d := by
  rw [State.accMoves, if_pos htodo, State.accDone, hop]
  exact if_neg (by rw [hbad]; decide)

end

/-! ### The granules of writes, reads and atomic operations -/

section
variable (hacc : s.accOf r.frame = some x) (hcont : x.todo.contains (coreByte r.cell r.gran) = true)
include hacc hcont

theorem State.coreGranule_write_coreMem {d : List (Option Byte)} (err : Bool) (hop : x.op = .write d) :
    (s.coreGranule r err).tds.coreMem = (s.granuleStored x r err).tds.coreMem := by
  rw [State.coreGranule_moves err hacc hcont, State.accMoves_write_coreMem _ (by exact hop)]
  exact State.coreMem_of_coreSide (State.coreSide_granuleFault _ _ _)

theorem State.coreGranule_read_coreMem {n : Nat} (err : Bool) (hop : x.op = .read n) :
    (s.coreGranule r err).tds.coreMem = s.tds.coreMem := by
  rw [State.coreGranule_moves err hacc hcont, State.accMoves_read_coreMem _ (by exact hop),
    State.granuleStored_other err (fun d hd => by rw [hop] at hd; cases hd)]
  exact State.coreMem_of_coreSide (State.coreSide_granuleFault _ _ _)

theorem State.coreGranule_read_bad {n : Nat} (err : Bool) (hop : x.op = .read n) (hbad : x.bad = true ∨ err = true) :
    (s.coreGranule r err).rdata = s.rdata := by
  have hbad' : (x.without (coreByte r.cell r.gran) err).bad = true := (Bool.or_eq_true _ _).mpr hbad
  rw [State.coreGranule_moves err hacc hcont, State.accMoves_bad_rdata _ hbad',
    State.granuleStored_other err (fun d hd => by rw [hop] at hd; cases hd)]
  exact State.rdata_of_coreSide (State.coreSide_granuleFault _ _ _)

end

section
variable (hacc : s.accOf r.frame = some x) (htodo : x.todo = [coreByte r.cell r.gran])
include hacc htodo

/-- The last granule of an access that stores nothing by granules ends it. -/
theorem State.coreGranule_last (hop : ∀ d, x.op ≠ .write d) :
    s.coreGranule r false = s.accMoves r.frame (x.without (coreByte r.cell r.gran) false) := by
  rw [State.coreGranule_moves false hacc (by simp [htodo]), State.granuleStored_other false hop]
  rfl

variable (hbad : x.bad = false)
include hbad

theorem State.coreGranule_read_answer {n : Nat} (hop : x.op = .read n) :
    tget (fun _ => []) (s.coreGranule r false).rdata (x.core + 1) = s.coreBytes x.addr n := by
  obtain ⟨hdone, hgood⟩ := CoreAcc.without_last htodo hbad
  rw [State.coreGranule_last hacc htodo (fun d hd => by rw [hop] at hd; cases hd)]
  exact State.accMoves_read_rdata (x := x.without (coreByte r.cell r.gran) false) _ hdone hgood hop

theorem State.coreGranule_amo {op : Amo} {wide : Bool} {d : List Byte} (hop : x.op = .amo op wide d) :
    s.coreGranule r false = (s.setAcc r.frame none).amo x.core x.addr op wide d := by
  obtain ⟨hdone, hgood⟩ := CoreAcc.without_last htodo hbad
  rw [State.coreGranule_last hacc htodo (fun d hd => by rw [hop] at hd; cases hd)]
  exact State.accMoves_amo (x := x.without (coreByte r.cell r.gran) false) _ hdone hgood hop

end

end

/-! ### DEEP_ACCESS_COMPLETE (R301, R302) -/

theorem deepAccessComplete_finishes {s : State} (h : s.Runs) (m : Fin 64) (acc : DeepAcc) (res : DeepRes) :
    Finishes (.deepAccessComplete m acc res) s (deepAccessComplete m acc res s) := done_runs h

/-- An access in flight taken out of its channel. -/
def State.flyTaken (s : State) (m n : Nat) : State := s.modMch m (fun x => { x with fly := x.fly.eraseIdx n })

section
variable {s : State} {m n : Nat} (res : DeepRes)

theorem deepAccessComplete_of_none (h : (s.mch m).fly.length ≤ n) : deepAccessComplete m (.issued n) res s = s := by
  rw [deepAccessComplete, List.getElem?_eq_none h]

variable {q : MReq} (hq : (s.mch m).fly[n]? = some q)
include hq

theorem deepAccessComplete_port (hwho : q.who = whoPort) : deepAccessComplete m (.issued n) res s =
    (((s.burstsRun.flyTaken m n).accessCounts m res).requestDone m q res).burstsRun := by
  rw [deepAccessComplete, hq]
  dsimp only
  rw [if_pos hwho, if_pos hwho]
  rfl

theorem deepAccessComplete_other (hwho : q.who ≠ whoPort) : deepAccessComplete m (.issued n) res s =
    ((s.flyTaken m n).accessCounts m res).requestDone m q res := by
  rw [deepAccessComplete, hq]
  dsimp only
  rw [if_neg hwho, if_neg hwho]
  rfl

/-- An access of another requester than a core leaves service-core memory alone. -/
theorem deepAccessComplete_coreMem (hwho : q.who ≠ whoCore) : (deepAccessComplete m (.issued n) res s).tds.coreMem = s.tds.coreMem := by
  refine State.coreMem_of_coreSide ?_
  by_cases hport : q.who = whoPort
  · rw [deepAccessComplete_port res hq hport, State.coreSide_burstsRun, State.coreSide_requestDone _ hwho, State.coreSide_accessCounts,
      State.flyTaken, State.coreSide_modMch, State.coreSide_burstsRun]
  · rw [deepAccessComplete_other res hq hport, State.coreSide_requestDone _ hwho, State.coreSide_accessCounts, State.flyTaken,
      State.coreSide_modMch]

/-- An access of a core completes a granule of it, on a state in which memory, accesses, reservations and answers stand as they did. -/
theorem deepAccessComplete_core (hwho : q.who = whoCore) : ∃ t : State, t.coreSide = s.coreSide ∧
    deepAccessComplete m (.issued n) res s = t.coreGranule q res.err.isSome := by
  have hcounted : ((s.flyTaken m n).accessCounts m res).coreSide = s.coreSide := State.coreSide_accessCounts _ _ _
  have hport : q.who ≠ whoPort := by rw [hwho]; decide
  rw [deepAccessComplete_other res hq hport]
  cases herr : res.err with
  | none => exact ⟨_, hcounted, by rw [State.requestDone, herr]; exact if_pos hwho⟩
  | some k => exact ⟨_, (State.coreSide_accessError _ _ _ _ _ _ _).trans hcounted, by
      rw [State.requestDone, herr]; exact if_pos hwho⟩

end

/-! ### Poison (R303) -/

/-- A granule poisoned where there is room reads as poisoned. -/
theorem State.isPoisoned_poison {s : State} {cell : Nat} (hroom : s.poisonRoom cell = true) (gran a b : Nat) :
    (s.poison cell gran a b).isPoisoned cell gran = true := by
  have hcell : ((s.poisonOf cell).getD { cell, mask := 0, runNext := 0, next := 0 }).cell = cell := by
    cases hp : s.poisonOf cell with
    | none => rfl
    | some p =>
      have hfound := List.find?_some (p := fun p : Poison => p.cell == cell) hp
      exact eq_of_beq hfound
  have hgone : (s.mem.poison.filter (·.cell != cell)).find? (·.cell == cell) = none := by
    rw [List.find?_eq_none]
    intro p hp
    obtain ⟨-, hne⟩ := List.mem_filter.mp hp
    simpa using hne
  rw [State.isPoisoned, State.poisonOf, State.poison, if_neg (by rw [hroom]; decide)]
  dsimp only
  rw [List.find?_append, hgone, Option.none_or, List.find?_singleton, hcell, if_pos (beq_self_eq_true _)]
  exact bit_putBit_same _ _ _

/-! ### The statement -/

/-- Settles O48: an access by its requester, a core's by its operation; everything else that completes leaves memory, accesses,
reservations and answers alone. -/
theorem coreMemory : Obligations.CoreMemory := by
  refine ⟨fun s m res hs => ?access, fun s cell gran a b hroom => State.isPoisoned_poison hroom gran a b⟩
  have hfin (acc : DeepAcc) := deepAccessComplete_finishes hs m acc res
  refine ⟨fun a => ?copy, fun n hn => ?absent, fun n q hq hwho => ?port, fun n q hq hwho => ?others, fun n q hq hwho => ?keeps,
    fun n q x g hq hwho hacc hg hcont => ?core⟩
  case copy =>
    exact ⟨_, hfin (.copy a), rfl,
      State.coreMem_of_coreSide ((State.coreSide_copyGranule _ _ _ _).trans (State.coreSide_accessCounts _ _ _))⟩
  case absent =>
    have hnone := hfin (.issued n)
    rwa [deepAccessComplete_of_none res hn] at hnone
  case port =>
    have hport := hfin (.issued n)
    rwa [deepAccessComplete_port res hq hwho] at hport
  case others =>
    have hother := hfin (.issued n)
    rwa [deepAccessComplete_other res hq hwho] at hother
  case keeps => exact ⟨_, hfin (.issued n), deepAccessComplete_coreMem res hq hwho⟩
  case core =>
    subst hg
    obtain ⟨t, hside, heq⟩ := deepAccessComplete_core res hq hwho
    have hcore := hfin (.issued n)
    rw [heq] at hcore
    have hacc' : t.accOf q.frame = some x := (State.accOf_of_coreSide hside _).trans hacc
    have hmem := State.coreMem_of_coreSide hside
    refine ⟨fun d hop => ⟨_, hcore, ?write⟩, fun k hop => ⟨_, hcore, ?read⟩,
      fun op wide d k hop hk htodo hbad hgood => ⟨_, hcore, ?amo⟩⟩
    case write =>
      rw [State.coreGranule_write_coreMem hacc' hcont _ hop, ← hmem]
      cases herr : res.err with
      | none =>
        rw [Option.isSome_none, State.granuleStored_write hop]
        exact ⟨fun b hb => t.storeGranule_outside hb, fun _ k v hd hg => t.storeGranule_inside hd hg, fun hne => absurd rfl hne⟩
      | some k =>
        have hstays := State.coreMem_of_coreSide (State.granuleStored_error (s := t) (r := q) x)
        rw [Option.isSome_some, hstays]
        exact ⟨fun _ _ => rfl, fun hnone => absurd hnone (Option.some_ne_none k), fun _ => rfl⟩
    case read =>
      refine ⟨(State.coreGranule_read_coreMem hacc' hcont _ hop).trans hmem, fun htodo hbad hgood => ?_, fun hbad => ?_⟩
      · rw [hgood, Option.isSome_none, State.coreGranule_read_answer hacc' htodo hbad hop, State.coreBytes_of_coreSide hside]
      · rw [← Option.isSome_iff_ne_none] at hbad
        rw [State.coreGranule_read_bad hacc' hcont _ hop hbad, State.rdata_of_coreSide hside]
    case amo =>
      subst hk
      have hset : (t.setAcc q.frame none).resvOf x.core = s.resvOf x.core := State.resvOf_of_coreSide hside x.core
      have hbytes : (t.setAcc q.frame none).coreBytes x.addr (amoSize wide) = s.coreBytes x.addr (amoSize wide) :=
        State.coreBytes_of_coreSide hside _ _
      rw [hgood, Option.isSome_none, State.coreGranule_amo hacc' htodo hbad hop]
      refine ⟨fun hsc => ?_, fun hlr => ?_, fun hsc hresv => ?_, fun hsc hresv => ?_, fun hlr hsc => ?_⟩
      · rw [State.amo_answer _ _ _ _ _ hsc, hbytes]
      · subst hlr
        obtain ⟨hstays, hreserved⟩ := (t.setAcc q.frame none).amo_lr x.core x.addr wide d
        exact ⟨hstays.trans hmem, hreserved⟩
      · subst hsc
        obtain ⟨hstays, hone⟩ := (t.setAcc q.frame none).amo_sc_broken x.core x.addr wide d (by rwa [hset])
        exact ⟨hstays.trans hmem, hone⟩
      · subst hsc
        exact (t.setAcc q.frame none).amo_sc_stored x.core x.addr wide d (by rwa [hset])
      · rw [State.amo_stores _ _ _ _ _ hlr hsc, State.amoBytes, hbytes]

end Sys2Proof.Machine
end

section
/-!
PROOF. The dispatch as a whole (R360, R376, R397, R408): every command is one that a running engine carries out, one that acts on a
held engine too, or a read, and each of the three answers a next state. Settles O1 to O5, O8 and O9.
-/

namespace Sys2Proof.Machine
open Host (Outcome)

/-! ### What a command can answer -/

/-- What a command may leave: the state as it was, an effect followed by what ends every command, or a read's answer alone. -/
inductive State.Leaves (s : State) : State → Prop
  | same : s.Leaves s
  | ended (u : State) : s.Leaves (s.after u)
  | answered (req : Nat) (bytes : List Byte) : s.Leaves (s.answer req bytes)

theorem done_leaves (s u : State) : ∃ t, done s u = .next t ∧ s.Leaves t := by
  refine ⟨_, rfl, ?_⟩
  split
  · exact .same
  · exact .ended u

theorem doneRead_leaves (req n : Nat) (s u : State) : ∃ t, doneRead req n s u = .next t ∧ s.Leaves t := by
  refine ⟨_, rfl, ?_⟩
  split
  · exact .answered _ _
  · exact .ended u

/-- Each command by its kind: what a running engine alone carries out, what acts on a held engine too, and the reads. -/
theorem exec_kinds (c : Instr) (s : State) :
    (actsHeld c = false ∧ isRead c = false ∧ ∃ u, exec c s = done s u) ∨
    (actsHeld c = true ∧ ∃ t, exec c s = .next t ∧ s.Leaves t) ∨
    (isRead c = true ∧ ∃ req n u, exec c s = doneRead req n s u) := by
  cases c
  case readClear req ofs len => exact .inr (.inr ⟨rfl, _, _, _, rfl⟩)
  case devTickLoRead req => exact .inr (.inr ⟨rfl, _, _, _, rfl⟩)
  case wakePatternMatch c f t b p =>
    refine .inr (.inl ⟨rfl, ?_⟩)
    show ∃ t, execWakePatternMatch _ _ _ _ _ s = .next t ∧ s.Leaves t
    unfold execWakePatternMatch
    split
    · exact ⟨_, rfl, .ended _⟩
    · exact done_leaves _ _
  case resetInput | resetRelease | feedUnhealthy | feedHealthy | holdupShutdown | powerOnRelease | thermalTrip | thermalRelease |
      dsExit | pcieReset | pcieLinkDown | pcieLinkUp => exact .inr (.inl ⟨rfl, _, rfl, .ended _⟩)
  all_goals exact .inl ⟨rfl, rfl, _, rfl⟩

theorem exec_leaves (c : Instr) (s : State) : ∃ t, exec c s = .next t ∧ s.Leaves t := by
  obtain ⟨-, -, u, h⟩ | ⟨-, h⟩ | ⟨-, req, n, u, h⟩ := exec_kinds c s
  · exact h ▸ done_leaves s u
  · exact h
  · exact h ▸ doneRead_leaves req n s u

theorem step_cons (s : State) {c : Instr} {l : List Instr} (h : s.pending = c :: l) : step s = exec c (s.withPending l) := by
  unfold step
  rw [h]

theorem step_idle (s : State) (h : s.pending = []) : step s = .next s.idle := by
  unfold step
  rw [h]

/-! ### What becomes of the queue and of the log's cycle -/

theorem State.Leaves.pending {s t : State} (h : s.Leaves t) : t.pending = s.pending := by
  cases h <;> rfl

/-- What ends every command writes the entries of its cycle (R408). -/
theorem State.after_cycle (s u : State) : (s.after u).flt.cycle = [] := State.flushLog_cycle _

theorem State.Leaves.cycle {s t : State} (h : s.Leaves t) (hs : s.flt.cycle = []) : t.flt.cycle = [] := by
  cases h with
  | same => exact hs
  | ended u => exact s.after_cycle u
  | answered => exact hs

theorem State.idle_flt (s : State) : s.idle.flt = s.flt := by
  unfold State.idle
  split <;> rfl

/-! ### A held engine -/

/-- A held engine takes up no command that acts on a running engine alone, and answers a read with ones (R376, R397). -/
theorem exec_of_held {s : State} (c : Instr) (hs : s.isHeld = true) (hc : actsHeld c = false) :
    (isRead c = false ∧ exec c s = .next s) ∨ (isRead c = true ∧ ∃ req bytes, exec c s = .next (s.answer req bytes)) := by
  obtain ⟨-, hread, u, h⟩ | ⟨hacts, -⟩ | ⟨hread, req, n, u, h⟩ := exec_kinds c s
  · exact .inl ⟨hread, h.trans (done_held hs)⟩
  · rw [hc] at hacts
    cases hacts
  · refine .inr ⟨hread, req, List.replicate n 0xFF, h.trans ?_⟩
    rw [doneRead, if_pos hs]

/-- The invariant of O4 along one command: the engine is held, and nothing that waits can release it. -/
theorem exec_keeps_held {s t : State} {c : Instr} (hs : s.isHeld = true) (hc : actsHeld c = false) (h : exec c s = .next t) :
    t.isHeld = true ∧ t.pending = s.pending ∧ (isRead c = false → t = s) := by
  obtain ⟨-, hsame⟩ | ⟨hread, req, bytes, hans⟩ := exec_of_held c hs hc
  · obtain rfl := Outcome.next.inj (hsame.symm.trans h)
    exact ⟨hs, rfl, fun _ => rfl⟩
  · obtain rfl := Outcome.next.inj (hans.symm.trans h)
    refine ⟨hs, rfl, fun hnot => ?_⟩
    rw [hread] at hnot
    cases hnot

/-! ### Writes before RUN -/

/-- A command that writes a register outside the IMG region is subject to R360. -/
theorem exec_of_writer {c : Instr} {req : Fin 19} (h : writerOf c = some req) (s : State) :
    ∃ u, exec c s = doneWrite req s u := by
  unfold writerOf at h
  split at h <;> cases h
  all_goals exact ⟨_, rfl⟩

/-! ### The obligations -/

/-- Settles O1: both cases are the step's own. -/
theorem stepRunsFront : Obligations.StepRunsFront := by
  unfold Obligations.StepRunsFront
  exact fun c l s => ⟨step_cons _ rfl, step_idle _ rfl⟩

theorem step_next (s : State) : ∃ t, step s = .next t := by
  cases hq : s.pending with
  | nil => exact ⟨_, step_idle s hq⟩
  | cons c l =>
    obtain ⟨t, h, -⟩ := exec_leaves c (s.withPending l)
    exact ⟨t, (step_cons s hq).trans h⟩

/-- Settles O2, by induction on the number of steps: every command answers a next state. -/
theorem everyRunGoesOn : Obligations.EveryRunGoesOn := by
  unfold Obligations.EveryRunGoesOn
  intro n
  induction n with
  | zero => exact fun _ => trivial
  | succ n ih =>
    intro s
    obtain ⟨t, h⟩ := step_next s
    exact ⟨t, h, ih t⟩

/-- Settles O3: a held engine by the kind of the command, the two reads by the bytes they ask for. -/
theorem heldIgnores : Obligations.HeldIgnores := by
  unfold Obligations.HeldIgnores
  intro c s hs hc
  refine ⟨fun hread => ?_, ?_, ?_⟩
  · obtain ⟨-, h⟩ | ⟨hnot, -⟩ := exec_of_held c hs hc
    · exact h
    · rw [hread] at hnot
      cases hnot
  · rintro req ofs len rfl
    show doneRead _ _ _ _ = _
    rw [doneRead, if_pos hs]
  · rintro req rfl
    show doneRead _ _ _ _ = _
    rw [doneRead, if_pos hs]

/-- Settles O4: one step of the invariant, an idle cycle or the command at the front. -/
theorem heldStaysHeld : Obligations.HeldStaysHeld := by
  unfold Obligations.HeldStaysHeld
  rintro s t ⟨hs, hall⟩ hstep
  cases hq : s.pending with
  | nil =>
    have hidle : s.idle = s := by rw [State.idle, if_pos hs]
    rw [step_idle s hq, hidle] at hstep
    obtain rfl := Outcome.next.inj hstep
    exact ⟨⟨hs, by rw [hq]; rfl⟩, fun _ => by rw [List.drop_nil, ← hq]⟩
  | cons c l =>
    rw [step_cons s hq] at hstep
    rw [hq, List.all_cons, Bool.and_eq_true, Bool.not_eq_true'] at hall
    obtain ⟨hc, hl⟩ := hall
    obtain ⟨hheld, hpending, hsame⟩ := exec_keeps_held (s := s.withPending l) hs hc hstep
    refine ⟨⟨hheld, by rw [hpending]; exact hl⟩, fun hreads => ?_⟩
    rw [List.all_cons, Bool.and_eq_true, Bool.not_eq_true'] at hreads
    exact hsame hreads.1

/-- Settles O5: a write that R360 turns away leaves what ends every command. -/
theorem writesBeforeRun : Obligations.WritesBeforeRun := by
  unfold Obligations.WritesBeforeRun
  intro c req s hw hruns hreq hphase
  obtain ⟨u, h⟩ := exec_of_writer hw s
  exact h.trans (doneWrite_ignored hruns hreq hphase)

/-- Settles O8: what ends every command writes the entries of its cycle, and a step without one makes none. -/
theorem entriesWritten : Obligations.EntriesWritten := by
  unfold Obligations.EntriesWritten
  intro s t hs hstep
  cases hq : s.pending with
  | nil =>
    obtain rfl := Outcome.next.inj ((step_idle s hq).symm.trans hstep)
    rw [State.idle_flt, hs]
  | cons c l =>
    obtain ⟨t', h, hleaves⟩ := exec_leaves c (s.withPending l)
    rw [step_cons s hq, h] at hstep
    obtain rfl := Outcome.next.inj hstep
    exact hleaves.cycle hs

/-- Settles O9: a command keeps the queue, for what ends it puts the queue back. -/
theorem queueKept : Obligations.QueueKept := by
  unfold Obligations.QueueKept
  intro c s t h
  obtain ⟨t', h', hleaves⟩ := exec_leaves c s
  obtain rfl := Outcome.next.inj (h'.symm.trans h)
  exact hleaves.pending

end Sys2Proof.Machine
end

section
/-!
PROOF. The state after reset (R428): nothing is stored in any table, so every register reads as Table: Registers gives it. Settles O7.
-/

namespace Sys2Proof.Machine

/-- Empty tables and memories are in canonical form. -/
theorem State.reset_canonical : State.reset.Canonical := ⟨twf_nil _, twf_nil _, twf_nil _, rfl, rfl, rfl⟩

/-- With no value of its own stored, a register reads as its reset value (R428). -/
theorem State.reset_reg (i off : Nat) : State.reset.reg i off = regReset (rkey i off) := tget_nil _ _

theorem State.reset_shadow (i off : Nat) : State.reset.shadow i off = regReset (rkey i off) := tget_nil _ _

/-- Settles O7: empty tables read as their defaults, and the six values are those of the register map. -/
theorem resetState : Obligations.ResetState := by
  unfold Obligations.ResetState
  refine ⟨fun i off => ⟨State.reset_reg i off, State.reset_shadow i off⟩, rfl, rfl, tget_nil _ _, fun _ => tget_nil _ _,
    fun _ => tget_nil _ _, fun _ => tget_nil _ _, ?_, ?_, ?_, ?_, ?_, ?_, State.reset_canonical, rfl⟩
  all_goals
    rw [State.reset_reg]
    decide +kernel

end Sys2Proof.Machine
end

section
/-!
PROOF. Task records and task commands (R311 to R313, R316, R324): what a write of one field leaves of the others, what becoming READY
leaves alone, and the state that each command takes its record to. Settles O50.
-/

namespace Sys2Proof.Machine

/-! ### Fields beside each other -/

/-- Writing field f leaves field g alone, whichever instances: they lie in registers at different offsets, or beside each other. -/
def Fld.clearOf (f g : Fld) : Bool :=
  decide (f.off < 0x100000) && decide (g.off < 0x100000) && (decide (g.off ≠ f.off) ||
    (decide (f.lo ≤ f.hi ∧ f.hi < 32) && decide (g.lo ≤ g.hi ∧ g.hi < 32) && decide (f.hi < g.lo ∨ g.hi < f.lo)))

/-- A field lies in a word and holds a value. -/
def Fld.holds (f : Fld) (v : Nat) : Bool := decide (f.lo ≤ f.hi ∧ f.hi < 32) && decide (v < 2 ^ f.width)

theorem Fld.clearOf_of_off {f g : Fld} (hf : f.off < 0x100000) (hg : g.off < 0x100000) (h : g.off ≠ f.off) : f.clearOf g = true := by
  simp [Fld.clearOf, hf, hg, h]

section
variable (s : State) {f g : Fld} (i j : Nat)

theorem State.rd_wr_clear (v : Nat) (h : f.clearOf g = true) : (s.wr f i v).rd g j = s.rd g j := by
  simp only [Fld.clearOf, Bool.and_eq_true, Bool.or_eq_true, decide_eq_true_eq] at h
  obtain ⟨⟨hf, hg⟩, hoff | ⟨⟨hfok, hgok⟩, hbits⟩⟩ := h
  · exact s.rd_wr_apart i j v hf hg hoff
  · by_cases hoff : g.off = f.off
    · by_cases hij : j = i
      · subst hij
        exact s.rd_wr_fld j v hfok hgok hoff hbits
      · exact s.rd_wr_inst v hf hg hij
    · exact s.rd_wr_apart i j v hf hg hoff

theorem State.rd_wr_held {v : Nat} (h : f.holds v = true) : (s.wr f i v).rd f i = v := by
  simp only [Fld.holds, Bool.and_eq_true, decide_eq_true_eq] at h
  obtain ⟨hok, hv⟩ := h
  exact (s.rd_wr_same f i v hok).trans (Nat.mod_eq_of_lt hv)

theorem State.rd_inc_clear (h : f.clearOf g = true) : (s.inc f i).rd g j = s.rd g j := s.rd_wr_clear i j _ h

theorem State.rd_addN_clear (n : Nat) (h : f.clearOf g = true) : (s.addN f i n).rd g j = s.rd g j := s.rd_wr_clear i j _ h

theorem State.on_wr_clear (v : Nat) (h : f.clearOf g = true) : (s.wr f i v).on g j = s.on g j := by
  rw [State.on, State.rd_wr_clear s i j v h, ← State.on]

theorem State.rd_setReg_same {o : Nat} (w : Word) (h : g.off = o) : (s.setReg i o w).rd g i = getF w g := by
  rw [State.rd, h, State.reg_setReg_same]

@[simp] theorem State.rd_emit (o : Out) : (s.emit o).rd g j = s.rd g j := rfl
@[simp] theorem State.rd_setReady (p : Nat) (l : List Nat) : (s.setReady p l).rd g j = s.rd g j := rfl
@[simp] theorem State.rd_withTds (x : Tds) : ({ s with tds := x } : State).rd g j = s.rd g j := rfl

@[simp] theorem State.unready_eff (t : Nat) : (s.unready t).eff = s.eff := by
  unfold State.unready
  dsimp only

@[simp] theorem State.rd_unready (t : Nat) : (s.unready t).rd g j = s.rd g j := State.rd_of_eff (s.unready_eff t) g j

end

/-! ### The ready lists -/

section
variable (s : State) (t : Nat)

/-- The ready lists with a task taken out of one level. -/
def readyWithout (r : Tab (List Nat)) (p : Nat) : Tab (List Nat) :=
  if (tget (fun _ => []) r p).contains t then tput (fun _ => []) r p ((tget (fun _ => []) r p).filter (fun x => x != t)) else r

theorem readyWithout_same (r : Tab (List Nat)) (p : Nat) : t ∉ tget (fun _ => []) (readyWithout t r p) p := by
  unfold readyWithout
  split
  · rw [tget_tput_same]
    simp
  next hnot => simpa using hnot

theorem readyWithout_ne (r : Tab (List Nat)) {p p' : Nat} (h : p' ≠ p) :
    tget (fun _ => []) (readyWithout t r p) p' = tget (fun _ => []) r p' := by
  unfold readyWithout
  split
  · exact tget_tput_ne _ _ _ h
  · rfl

theorem readyWithout_levels (r : Tab (List Nat)) {n p : Nat} (h : p < n) :
    t ∉ tget (fun _ => []) ((List.range n).foldl (readyWithout t) r) p := by
  induction n with
  | zero => omega
  | succ n ih =>
    rw [List.range_succ, List.foldl_append, List.foldl_cons, List.foldl_nil]
    by_cases hpn : p = n
    · subst hpn
      exact readyWithout_same t _ p
    · rw [readyWithout_ne t _ hpn]
      exact ih (by omega)

theorem State.unready_ready : (s.unready t).tds.ready = (List.range 32).foldl (readyWithout t) s.tds.ready := by
  unfold State.unready readyWithout
  dsimp only

/-- A task taken out of the ready lists stands in none of the 32 levels. -/
theorem State.unready_not_mem {p : Nat} (hp : p < 32) : t ∉ (s.unready t).readyList p := by
  rw [State.readyList, State.unready_ready]
  exact readyWithout_levels t s.tds.ready hp

@[simp] theorem State.readyList_setReady (p : Nat) (l : List Nat) : (s.setReady p l).readyList p = l := tget_tput_same _ _ _ _

@[simp] theorem State.readyList_wr (f : Fld) (i v p : Nat) : (s.wr f i v).readyList p = s.readyList p := rfl

end

/-! ### The examination of a task that has become READY (R316) -/

/-- The fields that the examination of a READY task writes: a count of tasks without a core, or the claim on one of 16 cores. -/
def Fld.examined (f : Fld) : Prop :=
  f = F.TDS_STRANDED ∨ f = F.TDS_PREEMPTS ∨ ∃ k < 16, f = F.TDS_CORE_STAT_PREEMPT k ∨ f = F.TDS_CORE_STAT_PRIO k

theorem Fld.examined_clearOf {f g : Fld} (h : f.examined) (hg : g.off < 0x90100) : f.clearOf g = true := by
  have hoff : 0x90100 ≤ f.off ∧ f.off < 0x100000 := by
    obtain rfl | rfl | ⟨k, hk, rfl | rfl⟩ := h
    · decide
    · decide
    · simp only [F.TDS_CORE_STAT_PREEMPT]; omega
    · simp only [F.TDS_CORE_STAT_PRIO]; omega
  exact Fld.clearOf_of_off hoff.2 (by omega) (by omega)

/-- The core claimed is one of those asked for. -/
theorem State.victim_mem {s : State} {cores : List Nat} {p k : Nat} (h : s.victim cores p = some k) : k ∈ cores := by
  have key : ∀ (l : List Nat) (best : Option Nat), (∀ b, best = some b → b ∈ cores) → (∀ x ∈ l, x ∈ cores) →
      ∀ b, l.foldl (fun best k =>
        let q := s.rd (F.TDS_CORE_STAT_PRIO k) 0
        let nop := s.on T.nopreempt (s.rd (F.TDS_CORE_STAT_TASK k) 0)
        if decide (q < p) && !nop && !s.on (F.TDS_CORE_STAT_PREEMPT k) 0 then
          match best with
          | none => some k
          | some b => if s.rd (F.TDS_CORE_STAT_PRIO b) 0 < q then best else some k
        else best) best = some b → b ∈ cores := by
    intro l
    induction l with
    | nil => exact fun best hbest _ b hb => hbest b hb
    | cons x l ih =>
      intro best hbest hl b hb
      refine ih _ (fun c hc => ?_) (fun y hy => hl y (List.mem_cons_of_mem _ hy)) b hb
      have hx : ∀ c, some x = some c → c ∈ cores := fun c hc => Option.some.inj hc ▸ hl x List.mem_cons_self
      dsimp only at hc
      split at hc
      · split at hc
        · exact hx c hc
        · split at hc
          · exact hbest c hc
          · exact hx c hc
      · exact hbest c hc
  exact key cores none (fun b hb => absurd hb.symm (Option.some_ne_none b)) (fun _ h => h) k h

theorem State.taskCores_lt {s : State} {t k : Nat} (h : k ∈ s.taskCores t) : k < 16 := by
  simp only [State.taskCores, bitsSet, List.mem_filter, List.mem_range] at h
  exact h.1.1

section
variable {β : Type} (q : State → β) (hwr : ∀ (s : State) (f : Fld) (i v : Nat), f.examined → q (s.wr f i v) = q s)
  (hemit : ∀ (s : State) (o : Out), q (s.emit o) = q s)
include hwr hemit

theorem State.examine_keeps (s : State) (t : Nat) : q (s.examine t) = q s := by
  unfold State.examine
  dsimp only
  split
  · exact hwr _ _ _ _ (.inl rfl)
  · split
    · exact foldl_keeps q (fun s k => hemit s _) _ s
    · split
      · rfl
      next k hk =>
        have hlt := State.taskCores_lt (State.victim_mem hk)
        unfold State.claim
        exact ((hwr _ _ _ _ (.inr (.inl rfl))).trans (hemit _ _)).trans
          ((hwr _ _ _ _ (.inr (.inr ⟨k, hlt, .inr rfl⟩))).trans (hwr _ _ _ _ (.inr (.inr ⟨k, hlt, .inl rfl⟩))))

end

section
variable (s : State) (t : Nat)

@[simp] theorem State.examine_tds : (s.examine t).tds = s.tds := State.examine_keeps State.tds (fun _ _ _ _ _ => rfl) (fun _ _ => rfl) s t

theorem State.examine_rd {g : Fld} (j : Nat) (hg : g.off < 0x90100) : (s.examine t).rd g j = s.rd g j :=
  State.examine_keeps (fun s => s.rd g j) (fun s _ i v hf => s.rd_wr_clear i j v (Fld.examined_clearOf hf hg)) (fun _ _ => rfl) s t

/-- A task that becomes READY changes of the registers below those of the cores its STATE alone. -/
theorem State.makeReady_rd {g : Fld} (j : Nat) (hg : g.off < 0x90100) (h : T.state.clearOf g = true) :
    (s.makeReady t).rd g j = s.rd g j := by
  unfold State.makeReady
  rw [State.examine_rd _ t j hg, State.rd_setReady, State.rd_wr_clear _ t j _ h, State.rd_unready]

theorem State.makeReady_state : (s.makeReady t).rd T.state t = tsReady := by
  unfold State.makeReady
  rw [State.examine_rd _ t t (by decide), State.rd_setReady, State.rd_wr_held _ t (by decide)]

/-- It stands at the tail of its level's list. -/
theorem State.makeReady_mem : t ∈ (s.makeReady t).readyList (s.taskPrio t) := by
  unfold State.makeReady State.readyList
  rw [State.examine_tds]
  show t ∈ State.readyList (State.setReady _ _ _) _
  rw [State.readyList_setReady]
  exact List.mem_append_right _ List.mem_cons_self

end

/-! ### The words of a record (R311) -/

section
variable {s : State} {req t st : Nat} (hsel : s.taskSel req = t) (hst : s.rd T.state t = st)
include hsel hst

theorem State.writeTask_refused (k : Nat) (w : Word) (h1 : st ≠ tsFree) (h2 : st ≠ tsSuspended) :
    s.writeTask req k w = s.wr F.TDS_TASK_CMD_REFUSED req 1 := by
  subst hsel hst
  unfold State.writeTask
  exact if_neg (by simp [h1, h2])

theorem State.writeTask_taken (k : Nat) (w : Word) (h : st = tsFree ∨ st = tsSuspended) :
    s.writeTask req k w = (s.setReg t (0x90010 + 4 * k)
      (BitVec.ofNat 32 ((w.toNat &&& taskWordMask k) + if k = 4 then st * 2 ^ 24 else 0))).wr F.TDS_TASK_CMD_REFUSED req 0 := by
  subst hsel hst
  unfold State.writeTask
  exact if_pos (by simpa using h)

end

/-- TDS_TASK_W_WRITE changes no register but as the write itself does: its note and its fold lie elsewhere. -/
theorem tdsTaskWWrite_finishes {s : State} {req : Fin 19} (h : s.Takes req) (ha : s.Alone req) (k : Fin 8) (w : Word) :
    ∃ u, Finishes (.tdsTaskWWrite req k w) s u ∧ u.eff = (s.writeTask req k w).eff := by
  refine ⟨_, doneWrite_takes h, ?_⟩
  rw [State.ordered_alone ha, List.foldl_cons, List.foldl_nil, State.noteWrite_eff, State.foldWrites_eff]
  have hsel : (s.newAccess req).taskSel req = s.taskSel req := rfl
  have hst : (s.newAccess req).rd T.state (s.taskSel req) = s.rd T.state (s.taskSel req) := rfl
  unfold State.writeTask
  dsimp only
  rw [hsel, hst]
  split <;> rfl

/-- A record's words lie at offsets of their own. -/
theorem State.reg_wr_refused (s : State) (req v i j : Nat) (hj : j < 8) :
    (s.wr F.TDS_TASK_CMD_REFUSED req v).reg i (0x90010 + 4 * j) = s.reg i (0x90010 + 4 * j) :=
  s.reg_setReg_ne _ (rkey_ne_of_off (by omega) (by decide) (by simp only [F.TDS_TASK_CMD_REFUSED]; omega))

/-! ### The commands (R312) -/

section
variable {s : State} {req t st : Nat} (hsel : s.taskSel req = t) (hst : s.rd T.state t = st)
include hsel

theorem State.armTask_taken (h : s.armable t = true) :
    s.armTask req = (s.wr T.state t tsIdle).wr F.TDS_TASK_CMD_REFUSED req 0 := by
  subst hsel
  exact if_pos h

theorem State.armTask_refused (h : s.armable t = false) : s.armTask req = s.wr F.TDS_TASK_CMD_REFUSED req 1 := by
  subst hsel
  exact if_neg (by rw [h]; decide)

include hst

theorem State.kickTask_taken (h : st = tsIdle ∨ st = tsDelayed) :
    s.kickTask req = ((s.inc T.evpend t).makeReady t).wr F.TDS_TASK_CMD_REFUSED req 0 := by
  subst hsel hst
  exact if_pos (by simpa using h)

theorem State.kickTask_refused (h1 : st ≠ tsIdle) (h2 : st ≠ tsDelayed) :
    s.kickTask req = s.wr F.TDS_TASK_CMD_REFUSED req 1 := by
  subst hsel hst
  exact if_neg (by simp [h1, h2])

theorem State.suspendTask_taken (h : st = tsIdle ∨ st = tsReady ∨ st = tsDelayed) :
    s.suspendTask req = ((s.unready t).wr T.state t tsSuspended).wr F.TDS_TASK_CMD_REFUSED req 0 := by
  subst hsel hst
  exact if_pos (by simpa [or_assoc] using h)

theorem State.suspendTask_running (h : st = tsRunning) :
    s.suspendTask req =
      ({ s with tds := { s.tds with suspend := t :: s.tds.suspend.filter (· != t) } } : State).wr F.TDS_TASK_CMD_REFUSED req 0 := by
  subst hsel
  rw [h] at hst
  unfold State.suspendTask
  dsimp only
  rw [hst]
  rfl

theorem State.suspendTask_refused (h1 : st ≠ tsIdle) (h2 : st ≠ tsReady) (h3 : st ≠ tsDelayed) (h4 : st ≠ tsRunning) :
    s.suspendTask req = s.wr F.TDS_TASK_CMD_REFUSED req 1 := by
  subst hsel hst
  exact (if_neg (by simp [h1, h2, h3])).trans (if_neg h4)

theorem State.resumeTask_taken (h : st = tsSuspended) :
    s.resumeTask req =
      (if s.rd T.evpend t = 0 then s.wr T.state t tsIdle else s.makeReady t).wr F.TDS_TASK_CMD_REFUSED req 0 := by
  subst hsel hst
  exact if_pos h

theorem State.resumeTask_refused (h : st ≠ tsSuspended) : s.resumeTask req = s.wr F.TDS_TASK_CMD_REFUSED req 1 := by
  subst hsel hst
  exact if_neg h

theorem State.delayTask_taken (n : Nat) (h : st = tsIdle) :
    s.delayTask req n = (s.delayFor t n).wr F.TDS_TASK_CMD_REFUSED req 0 := by
  subst hsel hst
  exact if_pos h

theorem State.delayTask_refused (n : Nat) (h : st ≠ tsIdle) : s.delayTask req n = s.wr F.TDS_TASK_CMD_REFUSED req 1 := by
  subst hsel hst
  exact if_neg h

theorem State.freeTask_taken (h : st = tsSuspended) :
    s.freeTask req = (((s.wr T.state t tsFree).wr T.evpend t 0).unbind t).wr F.TDS_TASK_CMD_REFUSED req 0 := by
  subst hsel hst
  exact if_pos h

theorem State.freeTask_refused (h : st ≠ tsSuspended) : s.freeTask req = s.wr F.TDS_TASK_CMD_REFUSED req 1 := by
  subst hsel hst
  exact if_neg h

end

/-- The bindings removed with a task are registers of their own. -/
theorem State.unbind_rd (s : State) (t j : Nat) {g : Fld} (h0 : F.TDS_EV_BIND_EN0.clearOf g = true)
    (h1 : F.TDS_EV_BIND_EN1.clearOf g = true) : (s.unbind t).rd g j = s.rd g j := by
  refine foldl_keeps (fun s => s.rd g j) (fun s ev => ?_) _ _
  dsimp only
  split
  · split
    · rw [State.rd_wr_clear _ _ _ _ h1, State.rd_wr_clear _ _ _ _ h0]
    · exact State.rd_wr_clear _ _ _ _ h0
  · split
    · exact State.rd_wr_clear _ _ _ _ h1
    · rfl

/-- A task delayed is DELAYED, and WAKE the tick at which it wakes (R312). -/
theorem State.delayFor_state (s : State) (t n : Nat) : (s.delayFor t n).rd T.state t = tsDelayed := by
  rw [State.delayFor, State.rd_wr_clear _ _ _ _ (by decide), State.rd_wr_held _ _ (by decide)]

theorem State.delayFor_wake (s : State) (t n : Nat) :
    (s.delayFor t n).rd T.wake t = (s.tick32 + max 1 n) % 2 ^ 32 := by
  rw [State.delayFor, State.rd_wr_same _ _ _ _ ⟨by decide, by decide⟩]
  exact Nat.mod_mod _ _

theorem T_evpend_ok : T.evpend.ok := ⟨by decide, by decide⟩

section
variable (s : State) (req t : Nat)

/-- What REFUSED shows does not touch a record. -/
theorem State.refused_state (v : Nat) : (s.wr F.TDS_TASK_CMD_REFUSED req v).rd T.state t = s.rd T.state t :=
  s.rd_wr_clear _ _ _ (by decide)

theorem State.refused_evpend (v : Nat) : (s.wr F.TDS_TASK_CMD_REFUSED req v).rd T.evpend t = s.rd T.evpend t :=
  s.rd_wr_clear _ _ _ (by decide)

theorem State.refused_wake (v : Nat) : (s.wr F.TDS_TASK_CMD_REFUSED req v).rd T.wake t = s.rd T.wake t :=
  s.rd_wr_clear _ _ _ (by decide)

theorem State.refused_set {v : Nat} (h : v < 2) : (s.wr F.TDS_TASK_CMD_REFUSED req v).rd F.TDS_TASK_CMD_REFUSED req = v :=
  (s.rd_wr_same _ _ _ ⟨by decide, by decide⟩).trans (Nat.mod_eq_of_lt h)

/-- A kick counts an event and makes the task READY at its level. -/
theorem State.kicked_evpend : ((s.inc T.evpend t).makeReady t).rd T.evpend t = min (s.rd T.evpend t + 1) 255 := by
  rw [State.makeReady_rd _ _ _ (by decide) (by decide)]
  exact s.rd_inc_same t T_evpend_ok

theorem State.taskPrio_kicked : (s.inc T.evpend t).taskPrio t = s.taskPrio t := by
  unfold State.taskPrio
  rw [State.rd_inc_clear _ _ _ (by decide), State.rd_inc_clear _ _ _ (by decide)]

theorem State.kicked_mem : t ∈ ((s.inc T.evpend t).makeReady t).readyList (s.taskPrio t) := by
  have h := (s.inc T.evpend t).makeReady_mem t
  rwa [State.taskPrio_kicked] at h

end

/-- What a taken write leaves in its word: all of words 0 to 3, and PRIO of word 4 beside the STATE that stays. -/
theorem taskWord_plain (w : Word) {st k : Nat} (hk : k < 4) :
    BitVec.ofNat 32 ((w.toNat &&& taskWordMask k) + if k = 4 then st * 2 ^ 24 else 0) = w := by
  have hmask : taskWordMask k = 2 ^ 32 - 1 := by
    unfold taskWordMask
    rw [if_neg (by omega), if_neg (by omega), if_neg (by omega)]
    rfl
  rw [hmask, if_neg (by omega), Nat.and_two_pow_sub_one_eq_mod, Nat.add_zero, Nat.mod_eq_of_lt w.isLt, BitVec.ofNat_toNat, BitVec.setWidth_eq]

theorem taskWord_four (w : Word) {st : Nat} (hst : st < 8) :
    getF (BitVec.ofNat 32 ((w.toNat &&& taskWordMask 4) + st * 2 ^ 24)) T.state = st ∧
    getF (BitVec.ofNat 32 ((w.toNat &&& taskWordMask 4) + st * 2 ^ 24)) T.prio = getF w T.prio := by
  have hmask : w.toNat &&& taskWordMask 4 = w.toNat % 2 ^ 21 := Nat.and_two_pow_sub_one_eq_mod w.toNat 21
  simp only [hmask, getF, Fld.width, T.state, T.prio, BitVec.toNat_ofNat]
  omega

theorem State.writeTask_state {s : State} {req t st : Nat} (hsel : s.taskSel req = t) (hst : s.rd T.state t = st) {k : Nat} (hk : k < 8)
    (w : Word) (h : st = tsFree ∨ st = tsSuspended) : (s.writeTask req k w).rd T.state t = st := by
  rw [State.writeTask_taken hsel hst k w h, State.refused_state]
  by_cases h4 : k = 4
  · subst h4
    rw [State.rd_setReg_same (o := 0x90010 + 4 * 4) _ _ _ rfl, if_pos rfl]
    exact (taskWord_four w (by rcases h with rfl | rfl <;> decide)).1
  · rw [State.rd, State.reg_setReg_ne, ← State.rd, hst]
    exact rkey_ne_of_off (by decide) (by omega) (by simp only [T.state]; omega)

/-! ### Where the commands do not act -/

/-- From a state that Table: Task commands does not name for it, each of the five commands only sets REFUSED. -/
theorem taskCommand_refused {s : State} {req : Fin 19} {t st : Nat} (h : s.Takes req) (hsel : s.taskSel req = t)
    (hst : s.rd T.state t = st) {c : Instr} (hc : c ∈ [Instr.arm req, .kick req, .suspend req, .resume req, .free req])
    (hnot : (c, st) ∉ [(Instr.arm req, tsFree), (.kick req, tsIdle), (.kick req, tsDelayed), (.suspend req, tsIdle),
      (.suspend req, tsReady), (.suspend req, tsDelayed), (.suspend req, tsRunning), (.resume req, tsSuspended),
      (.free req, tsSuspended)]) :
    Finishes c s (s.wr F.TDS_TASK_CMD_REFUSED req 1) := by
  have hfin {u : State} (hu : u = s.wr F.TDS_TASK_CMD_REFUSED req 1) (hexec : exec c s = doneWrite req s u) :
      Finishes c s (s.wr F.TDS_TASK_CMD_REFUSED req 1) := by
    rw [Finishes, hexec, hu]
    exact doneWrite_takes h
  simp only [List.mem_cons, List.not_mem_nil, or_false] at hc
  obtain rfl | rfl | rfl | rfl | rfl := hc
  · have hfree : st ≠ tsFree := by simpa using hnot
    refine hfin (State.armTask_refused hsel ?_) rfl
    simp [State.armable, hst, hfree]
  · obtain ⟨h1, h2⟩ : st ≠ tsIdle ∧ st ≠ tsDelayed := by simpa using hnot
    exact hfin (State.kickTask_refused hsel hst h1 h2) rfl
  · obtain ⟨h1, h2, h3, h4⟩ : st ≠ tsIdle ∧ st ≠ tsReady ∧ st ≠ tsDelayed ∧ st ≠ tsRunning := by simpa using hnot
    exact hfin (State.suspendTask_refused hsel hst h1 h2 h3 h4) rfl
  · have hsusp : st ≠ tsSuspended := by simpa using hnot
    exact hfin (State.resumeTask_refused hsel hst hsusp) rfl
  · have hsusp : st ≠ tsSuspended := by simpa using hnot
    exact hfin (State.freeTask_refused hsel hst hsusp) rfl

/-- A record of the engine's own can be armed wherever it is FREE (R324). -/
theorem State.armable_of_own {s : State} {t : Nat} (hst : s.rd T.state t = tsFree) (ht : t < 256) : s.armable t = true := by
  have hown : isExt t = false := decide_eq_false (by omega)
  rw [State.armable, hst, hown]
  rfl

/-- Settles O50: each command by whether the state of the record selected is one that it acts from. -/
theorem taskCommands : Obligations.TaskCommands := by
  unfold Obligations.TaskCommands
  intro s req t st h hsel hst
  have harm (ha : s.armable t = true) :
      ∃ u, Finishes (.arm req) s u ∧ u.rd T.state t = tsIdle ∧ u.rd F.TDS_TASK_CMD_REFUSED req = 0 := by
    refine ⟨_, doneWrite_takes h, ?_⟩
    rw [State.armTask_taken hsel ha]
    exact ⟨(State.refused_state _ _ _ _).trans (s.rd_wr_held t (by decide)), State.refused_set _ _ (by decide)⟩
  refine ⟨fun c hc hnot => taskCommand_refused h hsel hst hc hnot, fun k w ha h1 h2 => ?shut, fun k w ha hopen => ?open_,
    fun hfree hno => ?notArmable, fun _ => harm, fun hfree ht => harm (State.armable_of_own (hst.trans hfree) ht),
    fun hkick => ?kick, fun hsusp => ?suspend, fun hrun => ?running, fun hsusp => ?resume, fun n hne => ?notIdle,
    fun n hidle => ?delay, fun hsusp => ?free⟩
  case shut =>
    obtain ⟨u, hfin, heff⟩ := tdsTaskWWrite_finishes h ha k w
    rw [State.writeTask_refused hsel hst k w h1 h2] at heff
    refine ⟨u, hfin, (State.rd_of_eff heff _ _).trans (State.refused_set _ _ (by decide)), fun j hj => ?_⟩
    rw [State.reg, heff, ← State.reg, State.reg_wr_refused _ _ _ _ _ hj]
  case open_ =>
    obtain ⟨u, hfin, heff⟩ := tdsTaskWWrite_finishes h ha k w
    refine ⟨u, hfin, ?_, (State.rd_of_eff heff _ _).trans (State.writeTask_state hsel hst k.isLt w hopen), fun hk => ?_, fun hk => ?_⟩
    · rw [State.rd_of_eff heff, State.writeTask_taken hsel hst k w hopen]
      exact State.refused_set _ _ (by decide)
    · rw [State.reg, heff, ← State.reg, State.writeTask_taken hsel hst k w hopen, State.reg_wr_refused _ _ _ _ _ k.isLt,
        State.reg_setReg_same, taskWord_plain w hk]
    · rw [State.rd_of_eff heff, State.writeTask_taken hsel hst k w hopen, State.rd_wr_clear _ _ _ _ (by decide), hk,
        State.rd_setReg_same (o := 0x90010 + 4 * 4) _ _ _ rfl, if_pos rfl]
      exact (taskWord_four w (by rcases hopen with rfl | rfl <;> decide)).2
  case notArmable =>
    rw [← State.armTask_refused hsel hno]
    exact doneWrite_takes h
  case kick =>
    refine ⟨_, doneWrite_takes h, ?_⟩
    rw [State.kickTask_taken hsel hst hkick]
    exact ⟨(State.refused_state _ _ _ _).trans (State.makeReady_state _ _), s.kicked_mem t,
      (State.refused_evpend _ _ _ _).trans (s.kicked_evpend t), State.refused_set _ _ (by decide)⟩
  case suspend =>
    refine ⟨_, doneWrite_takes h, ?_⟩
    rw [State.suspendTask_taken hsel hst hsusp]
    exact ⟨(State.refused_state _ _ _ _).trans (State.rd_wr_held _ t (by decide)), fun p hp => s.unready_not_mem t hp,
      State.refused_set _ _ (by decide)⟩
  case running =>
    refine ⟨_, doneWrite_takes h, ?_⟩
    rw [State.suspendTask_running hsel hst hrun]
    exact ⟨(State.refused_state _ _ _ _).trans (hst.trans hrun), List.mem_cons_self⟩
  case resume =>
    refine ⟨_, doneWrite_takes h, ?_⟩
    rw [State.resumeTask_taken hsel hst hsusp]
    refine ⟨(State.refused_state _ _ _ _).trans ?_, State.refused_set _ _ (by decide)⟩
    split
    · exact s.rd_wr_held t (by decide)
    · exact s.makeReady_state t
  case notIdle =>
    rw [← State.delayTask_refused hsel hst n.toNat hne]
    exact doneWrite_takes h
  case delay =>
    refine ⟨_, doneWrite_takes h, ?_⟩
    rw [State.delayTask_taken hsel hst _ hidle]
    exact ⟨(State.refused_state _ _ _ _).trans (s.delayFor_state t _), (State.refused_wake _ _ _ _).trans (s.delayFor_wake t _)⟩
  case free =>
    refine ⟨_, doneWrite_takes h, ?_⟩
    rw [State.freeTask_taken hsel hst hsusp]
    constructor
    · rw [State.refused_state, State.unbind_rd _ _ _ (by decide) (by decide), State.rd_wr_clear _ _ _ _ (by decide)]
      exact s.rd_wr_held t (by decide)
    · rw [State.refused_evpend, State.unbind_rd _ _ _ (by decide) (by decide)]
      exact State.rd_wr_held _ t (by decide)

end Sys2Proof.Machine
end

section
/-!
PROOF. Dispatch, the end of a run, wakes and cores taken out of dispatch (R314 to R317, R325). Settles O51.
-/

namespace Sys2Proof.Machine

/-! ### The registers of a core -/

/-- A core's registers lie at offsets of their own, from 0x90100 to 0x901FF. -/
theorem Fld.clearOf_core {k : Nat} (hk : k < 16) {f g : Fld} (hf : f.off = 0x90100 + 16 * k) (hg : g.off < 0x90100 ∨ 0x90200 ≤ g.off)
    (hg' : g.off < 0x100000) : f.clearOf g = true :=
  Fld.clearOf_of_off (by omega) hg' (by omega)

theorem Fld.clearOf_to_core {k : Nat} (hk : k < 16) {f g : Fld} (hg : g.off = 0x90100 + 16 * k) (hf : f.off < 0x90100 ∨ 0x90200 ≤ f.off)
    (hf' : f.off < 0x100000) : f.clearOf g = true :=
  Fld.clearOf_of_off hf' (by omega) (by omega)

/-- Two fields within their words that share no bit number. -/
def Fld.bitsApart (f g : Fld) : Bool :=
  decide (f.lo ≤ f.hi ∧ f.hi < 32) && decide (g.lo ≤ g.hi ∧ g.hi < 32) && decide (f.hi < g.lo ∨ g.hi < f.lo)

theorem coreStat_off_lt {k : Nat} (hk : k < 16) : 0x90100 + 16 * k < 0x100000 := by omega

/-- Different bits of the registers of two cores, or of one, are apart. -/
theorem Fld.clearOf_cores {j k : Nat} (hj : j < 16) (hk : k < 16) {f g : Fld} (hf : f.off = 0x90100 + 16 * j)
    (hg : g.off = 0x90100 + 16 * k) (h : f.bitsApart g = true) : f.clearOf g = true := by
  have hfo : f.off < 0x100000 := by omega
  have hgo : g.off < 0x100000 := by omega
  simp only [Fld.bitsApart, Bool.and_eq_true] at h
  simp [Fld.clearOf, hfo, hgo, h]

/-! ### What becoming READY leaves of the dispatcher's other registers -/

/-- A field that the examination of a READY task leaves alone. -/
def Fld.Calm (g : Fld) : Prop := ∀ f : Fld, f.examined → f.clearOf g = true

theorem calm_run {k : Nat} (hk : k < 16) : (F.TDS_CORE_STAT_RUN k).Calm := by
  rintro f (rfl | rfl | ⟨j, hj, rfl | rfl⟩)
  · exact Fld.clearOf_to_core hk rfl (.inr (by decide)) (by decide)
  · exact Fld.clearOf_to_core hk rfl (.inr (by decide)) (by decide)
  · exact Fld.clearOf_cores hj hk rfl rfl rfl
  · exact Fld.clearOf_cores hj hk rfl rfl rfl

theorem calm_online {k : Nat} (hk : k < 16) : (F.TDS_CORE_STAT_ONLINE k).Calm := by
  rintro f (rfl | rfl | ⟨j, hj, rfl | rfl⟩)
  · exact Fld.clearOf_to_core hk rfl (.inr (by decide)) (by decide)
  · exact Fld.clearOf_to_core hk rfl (.inr (by decide)) (by decide)
  · exact Fld.clearOf_cores hj hk rfl rfl rfl
  · exact Fld.clearOf_cores hj hk rfl rfl rfl

theorem calm_wakeLate : F.TDS_WAKE_LATE.Calm := by
  rintro f (rfl | rfl | ⟨j, hj, rfl | rfl⟩)
  · decide
  · decide
  · exact Fld.clearOf_core hj rfl (.inr (by decide)) (by decide)
  · exact Fld.clearOf_core hj rfl (.inr (by decide)) (by decide)

section
variable (s : State) (t : Nat) {g : Fld} (j : Nat)

theorem State.examine_rd_calm (hg : g.Calm) : (s.examine t).rd g j = s.rd g j :=
  State.examine_keeps (fun s => s.rd g j) (fun s f i v hf => s.rd_wr_clear i j v (hg f hf)) (fun _ _ => rfl) s t

theorem State.makeReady_rd_calm (hg : g.Calm) (h : T.state.clearOf g = true) : (s.makeReady t).rd g j = s.rd g j := by
  unfold State.makeReady
  rw [State.examine_rd_calm _ t j hg, State.rd_setReady, State.rd_wr_clear _ t j _ h, State.rd_unready]

theorem State.makeReady_state_ne {t'} (h : t' ≠ t) : (s.makeReady t).rd T.state t' = s.rd T.state t' := by
  unfold State.makeReady
  rw [State.examine_rd _ t t' (by decide), State.rd_setReady, State.rd_wr_inst _ _ (by decide) (by decide) h, State.rd_unready]

end

/-! ### Wakes (R317) -/

/-- Of some tasks that become READY in turn, each is READY behind them all. -/
theorem foldl_makeReady_state (l : List Nat) (s : State) {t : Nat} (h : t ∈ l ∨ s.rd T.state t = tsReady) :
    (l.foldl State.makeReady s).rd T.state t = tsReady := by
  induction l generalizing s with
  | nil => exact h.resolve_left List.not_mem_nil
  | cons x l ih =>
    refine ih _ ?_
    by_cases hx : t = x
    · subst hx
      exact .inr (s.makeReady_state t)
    · rw [State.makeReady_state_ne _ _ hx]
      exact h.imp_left (fun hm => (List.mem_cons.mp hm).resolve_left hx)

theorem taskWake_state {s : State} {t : Nat} (h : t ∈ s.dueTasks.take (32 * max 1 (s.rd F.TDS_CFG_WAKE_MAX 0))) :
    (taskWake s).rd T.state t = tsReady := by
  unfold taskWake
  exact (State.rd_addN_clear _ _ _ _ (by decide)).trans (foldl_makeReady_state _ s (.inl h))

theorem taskWake_late (s : State) : (taskWake s).rd F.TDS_WAKE_LATE 0 =
    min (s.rd F.TDS_WAKE_LATE 0 + (s.dueTasks.length - 32 * max 1 (s.rd F.TDS_CFG_WAKE_MAX 0))) (2 ^ 32 - 1) := by
  unfold taskWake
  dsimp only
  have hlt (a : Nat) : min a (2 ^ 32 - 1) < 2 ^ 32 := by omega
  have hkept (l : List Nat) : (l.foldl State.makeReady s).rd F.TDS_WAKE_LATE 0 = s.rd F.TDS_WAKE_LATE 0 :=
    foldl_keeps (fun s => s.rd F.TDS_WAKE_LATE 0) (fun s t => s.makeReady_rd_calm t 0 calm_wakeLate (by decide)) l s
  rw [State.addN, State.rd_wr_same _ _ _ _ ⟨by decide, by decide⟩, hkept]
  exact Nat.mod_eq_of_lt (hlt _)

/-- A periodic task's next WAKE lies after the current tick, at most half the range on (R317). -/
theorem nextWake_after {wake period now : Nat} (hperiod : period < 2 ^ 16) (hnow : now < 2 ^ 32) :
    0 < ((nextWake wake period now).1 + 2 ^ 32 - now) % 2 ^ 32 ∧ ((nextWake wake period now).1 + 2 ^ 32 - now) % 2 ^ 32 ≤ 2 ^ 31 := by
  unfold nextWake
  extract_lets p w behind
  have hp : 0 < p ∧ p < 2 ^ 16 := ⟨by omega, by omega⟩
  have hw : w < 2 ^ 32 := Nat.mod_lt _ (by decide)
  split
  next hlate =>
    dsimp only
    have hmul : (behind / p + 1) * p = behind / p * p + p := Nat.succ_mul _ _
    have hdiv : behind / p * p + behind % p = behind := Nat.div_add_mod' behind p
    have hmod : behind % p < p := Nat.mod_lt _ hp.1
    generalize (behind / p + 1) * p = a at hmul ⊢
    generalize behind / p * p = b at hmul hdiv
    omega
  next hahead =>
    dsimp only
    omega

/-! ### Dispatch (R314) -/

theorem coreOf_core {req k : Nat} (hk : k < 16) (h : req = k + 1) : coreOf req = some k := by
  unfold coreOf
  rw [if_pos (by omega), h]
  rfl

theorem coreOf_other {req : Nat} (h : req = 0 ∨ 16 < req) : coreOf req = none := if_neg (by omega)

section
variable {s u : State} {t : Nat}

theorem State.taskAff_congr (hext : u.rd F.TDS_CFG_EXT_CORES 0 = s.rd F.TDS_CFG_EXT_CORES 0)
    (haff : u.rd T.affinity t = s.rd T.affinity t) : u.taskAff t = s.taskAff t := by
  rw [State.taskAff, haff, hext, ← State.taskAff]

theorem State.taskPrio_congr (hext : u.rd F.TDS_CFG_EXT_PRIO_MAX 0 = s.rd F.TDS_CFG_EXT_PRIO_MAX 0)
    (hprio : u.rd T.prio t = s.rd T.prio t) : u.taskPrio t = s.taskPrio t := by
  rw [State.taskPrio, hprio, hext, ← State.taskPrio]

theorem State.taskCores_congr (haff : u.taskAff t = s.taskAff t) (hon : ∀ j < 16, u.coreOnline j = s.coreOnline j) :
    u.taskCores t = s.taskCores t := by
  rw [State.taskCores, State.taskCores, haff]
  refine List.filter_congr (fun j hj => hon j ?_)
  simp only [bitsSet, List.mem_filter, List.mem_range] at hj
  exact hj.1

end

section
variable (s : State) {k : Nat} (hk : k < 16) (v : Nat)
include hk

theorem State.taskPrio_preempt (t : Nat) : (s.wr (F.TDS_CORE_STAT_PREEMPT k) 0 v).taskPrio t = s.taskPrio t :=
  State.taskPrio_congr (s.rd_wr_clear _ _ _ (Fld.clearOf_core hk rfl (.inl (by decide)) (by decide)))
    (s.rd_wr_clear _ _ _ (Fld.clearOf_core hk rfl (.inl (by decide)) (by decide)))

/-- A claim that ends does not change which task is next. -/
theorem State.nextTask_preempt : (s.wr (F.TDS_CORE_STAT_PREEMPT k) 0 v).nextTask k = s.nextTask k := by
  unfold State.nextTask
  have hcores (t : Nat) : (s.wr (F.TDS_CORE_STAT_PREEMPT k) 0 v).taskCores t = s.taskCores t :=
    State.taskCores_congr
      (State.taskAff_congr (s.rd_wr_clear _ _ _ (Fld.clearOf_core hk rfl (.inl (by decide)) (by decide)))
        (s.rd_wr_clear _ _ _ (Fld.clearOf_core hk rfl (.inl (by decide)) (by decide))))
      (fun j hj => s.on_wr_clear _ _ _ (Fld.clearOf_cores hk hj rfl rfl rfl))
  simp only [hcores]
  rfl

end

theorem State.taskPrio_lt (s : State) (t : Nat) : s.taskPrio t < 32 := by
  have hprio : s.rd T.prio t < 32 := getF_lt _ _
  unfold State.taskPrio
  split <;> omega

section
variable (s : State) {k : Nat} (hk : k < 16) (t : Nat)
include hk

/-- What a dispatch leaves in a core's registers does not touch the record. -/
theorem State.dispatch_record {g : Fld} (hg : g.off < 0x90100) : (s.dispatch k t).rd g t =
    ((((s.unready t).wr T.state t tsRunning).wr T.core t k).wr T.evpend t 0).rd g t := by
  unfold State.dispatch
  rw [State.rd_wr_clear _ _ _ _ (Fld.clearOf_core hk rfl (.inl hg) (by omega)),
    State.rd_wr_clear _ _ _ _ (Fld.clearOf_core hk rfl (.inl hg) (by omega)),
    State.rd_wr_clear _ _ _ _ (Fld.clearOf_core hk rfl (.inl hg) (by omega))]

theorem State.dispatch_state : (s.dispatch k t).rd T.state t = tsRunning := by
  rw [State.dispatch_record s hk t (by decide), State.rd_wr_clear _ _ _ _ (by decide), State.rd_wr_clear _ _ _ _ (by decide)]
  exact State.rd_wr_held _ t (by decide)

theorem State.dispatch_core : (s.dispatch k t).rd T.core t = k := by
  rw [State.dispatch_record s hk t (by decide), State.rd_wr_clear _ _ _ _ (by decide), State.rd_wr_same _ _ _ _ ⟨by decide, by decide⟩]
  exact Nat.mod_eq_of_lt hk

theorem State.dispatch_evpend : (s.dispatch k t).rd T.evpend t = 0 := by
  rw [State.dispatch_record s hk t (by decide)]
  exact State.rd_wr_held _ t (by decide)

theorem State.dispatch_run : (s.dispatch k t).rd (F.TDS_CORE_STAT_RUN k) 0 = 1 := by
  unfold State.dispatch
  rw [State.rd_wr_clear _ _ _ _ (Fld.clearOf_cores hk hk rfl rfl rfl), State.rd_wr_clear _ _ _ _ (Fld.clearOf_cores hk hk rfl rfl rfl)]
  exact State.rd_wr_held _ 0 (f := F.TDS_CORE_STAT_RUN k) rfl

theorem State.dispatch_preempt : (s.dispatch k t).rd (F.TDS_CORE_STAT_PREEMPT k) 0 = s.rd (F.TDS_CORE_STAT_PREEMPT k) 0 := by
  have hrec {f : Fld} (hf : f.off < 0x90100) : f.clearOf (F.TDS_CORE_STAT_PREEMPT k) = true :=
    Fld.clearOf_to_core hk rfl (.inl hf) (by omega)
  unfold State.dispatch
  rw [State.rd_wr_clear _ _ _ _ (Fld.clearOf_cores hk hk rfl rfl rfl), State.rd_wr_clear _ _ _ _ (Fld.clearOf_cores hk hk rfl rfl rfl),
    State.rd_wr_clear _ _ _ _ (Fld.clearOf_cores hk hk rfl rfl rfl), State.rd_wr_clear _ _ _ _ (hrec (by decide)),
    State.rd_wr_clear _ _ _ _ (hrec (by decide)), State.rd_wr_clear _ _ _ _ (hrec (by decide)), State.rd_unready]

omit hk in
theorem State.dispatch_ready {p : Nat} (hp : p < 32) : t ∉ (s.dispatch k t).readyList p := s.unready_not_mem t hp

end

theorem State.rd_answer (s : State) (req : Nat) (bytes : List Byte) (f : Fld) (i : Nat) : (s.answer req bytes).rd f i = s.rd f i := rfl

theorem State.readyList_answer (s : State) (req : Nat) (bytes : List Byte) (p : Nat) : (s.answer req bytes).readyList p = s.readyList p := rfl

theorem TDS_CORE_STAT_PRIO_ok (k : Nat) : (F.TDS_CORE_STAT_PRIO k).ok := ⟨show 16 ≤ 20 by decide, show 20 < 32 by decide⟩

theorem State.answer_rdata (s : State) (req : Nat) (bytes : List Byte) : tget (fun _ => []) (s.answer req bytes).rdata req = bytes :=
  tget_tput_same _ _ _ _

section
variable (s : State) {k req : Nat} (hk : k < 16) (hreq : req = k + 1)
include hk hreq

theorem State.readNext_of_some {t : Nat} (h : s.nextTask k = some t) :
    s.readNext req = (((s.wr (F.TDS_CORE_STAT_PREEMPT k) 0 0).dispatch k t).wr F.TDS_NEXT req
      (2 ^ 31 + s.rd T.evpend t * 2 ^ 16 + t)).answer req (toBytes (bytesLE 4 (2 ^ 31 + s.rd T.evpend t * 2 ^ 16 + t))) := by
  unfold State.readNext
  rw [coreOf_core hk hreq]
  dsimp only
  rw [State.nextTask_preempt s hk, h]
  dsimp only
  rw [State.rd_wr_clear _ _ _ _ (Fld.clearOf_core hk rfl (.inl (by decide)) (by decide))]

theorem State.readNext_of_none (h : s.nextTask k = none) :
    s.readNext req = (((s.wr (F.TDS_CORE_STAT_PREEMPT k) 0 0).wr (F.TDS_CORE_STAT_PRIO k) 0
      (if s.on (F.TDS_CORE_STAT_RUN k) 0 = true then s.taskPrio (s.rd (F.TDS_CORE_STAT_TASK k) 0) else 0)).wr F.TDS_NEXT req 0).answer
        req (toBytes (bytesLE 4 0)) := by
  unfold State.readNext
  rw [coreOf_core hk hreq]
  dsimp only
  rw [State.nextTask_preempt s hk, h]
  dsimp only
  rw [State.on_wr_clear _ _ _ _ (Fld.clearOf_cores hk hk rfl rfl rfl), State.rd_wr_clear _ _ _ _ (Fld.clearOf_cores hk hk rfl rfl rfl),
    State.taskPrio_preempt s hk]

end

theorem State.readNext_of_no_core (s : State) {req : Nat} (h : req = 0 ∨ 16 < req) :
    s.readNext req = s.answer req (toBytes (bytesLE 4 0)) := by
  unfold State.readNext
  rw [coreOf_other h]

/-- TDS_NEXT of a requester does not touch the core's registers nor a record's. -/
theorem State.next_rd (s : State) (req v : Nat) {g : Fld} (i : Nat) (hg : F.TDS_NEXT.off ≠ g.off) (hlt : g.off < 0x100000) :
    (s.wr F.TDS_NEXT req v).rd g i = s.rd g i := s.rd_wr_clear _ _ _ (Fld.clearOf_of_off (by decide) hlt hg.symm)

/-! ### The end of a run (R315) -/

/-- The effect of the way in which a run ends on its task, where no SUSPEND waits for it. -/
def State.runEffect (s : State) (t : Nat) (pre : Bool) : RunEnd → State
  | .finish => s.taskEnd t
  | .yield => s.taskYield t pre
  | .sleep n => s.delayFor t n

/-- A core that runs nothing any more: its priority is the claim's where one stands. -/
def State.coreIdles (s : State) (k : Nat) : State :=
  if s.on (F.TDS_CORE_STAT_PREEMPT k) 0 then s.wr (F.TDS_CORE_STAT_RUN k) 0 0
  else (s.wr (F.TDS_CORE_STAT_RUN k) 0 0).wr (F.TDS_CORE_STAT_PRIO k) 0 0

/-- A task whose SUSPEND has waited for the end of its run. -/
def State.suspendNow (s : State) (t : Nat) : State :=
  ({ s with tds := { s.tds with suspend := s.tds.suspend.filter (· != t) } } : State).wr T.state t tsSuspended

/-- A core out of dispatch is reset when its run has ended (R325). -/
def State.coreLeft (s : State) (k : Nat) : State := if s.coreOnline k then s else s.coreReset k

theorem State.leaveRun_of_no_core (s : State) {req : Nat} (how : RunEnd) (h : req = 0 ∨ 16 < req) : s.leaveRun req how = s := by
  unfold State.leaveRun
  rw [coreOf_other h]

section
variable (s : State) {k req : Nat} (hk : k < 16) (hreq : req = k + 1) (how : RunEnd)

@[simp] theorem State.coreIdles_tds : (s.coreIdles k).tds = s.tds := by
  unfold State.coreIdles
  split <;> rfl

include hk

theorem State.coreIdles_run : (s.coreIdles k).rd (F.TDS_CORE_STAT_RUN k) 0 = 0 := by
  have hset : (s.wr (F.TDS_CORE_STAT_RUN k) 0 0).rd (F.TDS_CORE_STAT_RUN k) 0 = 0 := State.rd_wr_held _ 0 rfl
  unfold State.coreIdles
  split
  · exact hset
  · exact (State.rd_wr_clear _ _ _ _ (Fld.clearOf_cores hk hk rfl rfl rfl)).trans hset

omit hk in
theorem State.coreIdles_rd {g : Fld} (i : Nat) (hrun : (F.TDS_CORE_STAT_RUN k).clearOf g = true)
    (hprio : (F.TDS_CORE_STAT_PRIO k).clearOf g = true) : (s.coreIdles k).rd g i = s.rd g i := by
  unfold State.coreIdles
  split
  · exact s.rd_wr_clear _ _ _ hrun
  · exact (State.rd_wr_clear _ _ _ _ hprio).trans (s.rd_wr_clear _ _ _ hrun)

/-- A core that idles leaves the records alone. -/
theorem State.coreIdles_record {g : Fld} (i : Nat) (hg : g.off < 0x90100) : (s.coreIdles k).rd g i = s.rd g i :=
  s.coreIdles_rd i (Fld.clearOf_core hk rfl (.inl hg) (by omega)) (Fld.clearOf_core hk rfl (.inl hg) (by omega))

include hreq

theorem State.leaveRun_of_idle (h : s.on (F.TDS_CORE_STAT_RUN k) 0 = false) : s.leaveRun req how = s := by
  unfold State.leaveRun
  rw [coreOf_core hk hreq]
  dsimp only
  rw [h]
  rfl

theorem State.leaveRun_of_running {t : Nat} (h : s.on (F.TDS_CORE_STAT_RUN k) 0 = true)
    (ht : s.rd (F.TDS_CORE_STAT_TASK k) 0 = t) (hsusp : s.tds.suspend.contains t = false) :
    s.leaveRun req how = ((s.coreIdles k).runEffect t (s.on (F.TDS_CORE_STAT_PREEMPT k) 0) how).coreLeft k := by
  subst ht
  unfold State.leaveRun State.coreIdles
  rw [coreOf_core hk hreq]
  dsimp only
  rw [h]
  cases s.on (F.TDS_CORE_STAT_PREEMPT k) 0 <;> simp only [Bool.not_true, Bool.false_eq_true, if_false, if_true, State.wr_tds, hsusp]
    <;> cases how <;> rfl

theorem State.leaveRun_of_suspended {t : Nat} (h : s.on (F.TDS_CORE_STAT_RUN k) 0 = true)
    (ht : s.rd (F.TDS_CORE_STAT_TASK k) 0 = t) (hsusp : s.tds.suspend.contains t = true) :
    s.leaveRun req how = ((s.coreIdles k).suspendNow t).coreLeft k := by
  subst ht
  unfold State.leaveRun State.coreIdles
  rw [coreOf_core hk hreq]
  dsimp only
  rw [h]
  cases s.on (F.TDS_CORE_STAT_PREEMPT k) 0 <;> simp only [Bool.not_true, Bool.false_eq_true, if_false, if_true, State.wr_tds, hsusp]
    <;> rfl

end

/-- A field that none of the writes to a record at the end of a run touches. -/
structure Fld.BesideRuns (g : Fld) : Prop where
  calm : g.Calm
  state : T.state.clearOf g = true
  wake : T.wake.clearOf g = true
  skip : F.TDS_PERIOD_SKIP.clearOf g = true

theorem besideRuns_core {k : Nat} (hk : k < 16) {g : Fld} (hg : g.off = 0x90100 + 16 * k) (hcalm : g.Calm) : g.BesideRuns :=
  ⟨hcalm, Fld.clearOf_to_core hk hg (.inl (by decide)) (by decide), Fld.clearOf_to_core hk hg (.inl (by decide)) (by decide),
    Fld.clearOf_to_core hk hg (.inr (by decide)) (by decide)⟩

section
variable (s : State) (t : Nat) {g : Fld} (i : Nat)

theorem State.delayFor_rd (n : Nat) (hg : g.BesideRuns) : (s.delayFor t n).rd g i = s.rd g i := by
  rw [State.delayFor, State.rd_wr_clear _ _ _ _ hg.wake, State.rd_wr_clear _ _ _ _ hg.state]

theorem State.taskEnd_rd (hg : g.BesideRuns) : (s.taskEnd t).rd g i = s.rd g i := by
  unfold State.taskEnd
  split
  · exact s.makeReady_rd_calm t i hg.calm hg.state
  · split
    · dsimp only
      rw [State.rd_addN_clear _ _ _ _ hg.skip, State.rd_wr_clear _ _ _ _ hg.state, State.rd_wr_clear _ _ _ _ hg.wake]
    · exact s.rd_wr_clear _ _ _ hg.state

theorem State.taskYield_rd (pre : Bool) (hg : g.BesideRuns) : (s.taskYield t pre).rd g i = s.rd g i := by
  unfold State.taskYield
  split
  · dsimp only
    rw [State.examine_rd_calm _ _ _ hg.calm, State.rd_setReady, State.rd_wr_clear _ _ _ _ hg.state]
  · exact s.makeReady_rd_calm t i hg.calm hg.state

theorem State.runEffect_rd (pre : Bool) (how : RunEnd) (hg : g.BesideRuns) : (s.runEffect t pre how).rd g i = s.rd g i := by
  cases how with
  | finish => exact s.taskEnd_rd t i hg
  | yield => exact s.taskYield_rd t i pre hg
  | sleep n => exact s.delayFor_rd t i n hg

theorem State.taskEnd_state : (s.taskEnd t).rd T.state t =
    (if s.rd T.evpend t ≠ 0 then tsReady else if s.on T.periodic t = true then tsDelayed else tsIdle) := by
  unfold State.taskEnd
  split
  · exact s.makeReady_state t
  · split
    · dsimp only
      rw [State.rd_addN_clear _ _ _ _ (by decide)]
      exact State.rd_wr_held _ t (by decide)
    · exact State.rd_wr_held _ t (by decide)

theorem State.taskYield_state (pre : Bool) : (s.taskYield t pre).rd T.state t = tsReady := by
  unfold State.taskYield
  split
  · dsimp only
    rw [State.examine_rd _ t t (by decide), State.rd_setReady]
    exact State.rd_wr_held _ t (by decide)
  · exact s.makeReady_state t

end

/-! ### Cores out of dispatch (R325) -/

theorem State.resetBank_eff (s : State) (req : Nat) : (s.resetBank req).eff = s.eff.filter (fun e => !bankKey req e.1) := by
  unfold State.resetBank bankKey
  rfl

/-- The registers of a requester's bank take their reset values; all others stay. -/
theorem State.resetBank_reg (s : State) (req i off : Nat) :
    (s.resetBank req).reg i off = if bankKey req (rkey i off) then regReset (rkey i off) else s.reg i off := by
  rw [State.reg, State.resetBank_eff, tget_filter_key _ (fun k => !bankKey req k), ← State.reg]
  cases bankKey req (rkey i off)
  · simp
  · simp

theorem State.resetBank_rd (s : State) {req i : Nat} {g : Fld} (h : bankKey req (rkey i g.off) = false) :
    (s.resetBank req).rd g i = s.rd g i := by
  rw [State.rd, State.resetBank_reg, h, if_neg Bool.false_ne_true, ← State.rd]

/-- What is not banked is no core's. -/
theorem bankKey_unbanked (k : Nat) {off : Nat} (h : off < 0x100000) : bankKey (k + 1) (rkey 0 off) = false := by
  have hinst : rkey 0 off / 0x100000 = 0 := by unfold rkey; omega
  unfold bankKey
  split
  · simp [hinst]
  · rfl

theorem bankKey_of_row {req k : Nat} (h : (findRow (k % 0x100000)).any (fun r => r.bank == .req || r.bank == .reqChan) = false) :
    bankKey req k = false := by
  unfold bankKey
  split
  next r hr =>
    rw [hr, Option.any_some, Bool.or_eq_false_iff] at h
    simp [h]
  · rfl

/-- A record's words are selected, not banked by requester. -/
theorem bankKey_task (req t : Nat) : bankKey req (rkey t T.state.off) = false := by
  have hoff : rkey t T.state.off % 0x100000 = T.state.off := by simp only [rkey, T.state]; omega
  have hrow : (findRow T.state.off).any (fun r => r.bank == .req || r.bank == .reqChan) = false := by decide +kernel
  exact bankKey_of_row (by rw [hoff, hrow])

theorem bankKey_own (req : Nat) {off : Nat} (hbank : (findRow off).any (fun r => r.bank == .req) = true) (hlt : off < 0x100000) :
    bankKey req (rkey req off) = true := by
  have hmod : rkey req off % 0x100000 = off := (Nat.mul_add_mod' _ _ _).trans (Nat.mod_eq_of_lt hlt)
  have hdiv : rkey req off / 0x100000 = req := by unfold rkey; omega
  rw [bankKey, hmod, hdiv]
  split
  next r hr =>
    rw [hr, Option.any_some] at hbank
    simp [hbank]
  next hnone =>
    rw [hnone] at hbank
    cases hbank

section
variable (s : State)

theorem State.reg_emit (o : Out) (i off : Nat) : (s.emit o).reg i off = s.reg i off := rfl

theorem State.reg_wr_ne {f : Fld} {i j off : Nat} (v : Nat) (h : rkey j off ≠ rkey i f.off) : (s.wr f i v).reg j off = s.reg j off :=
  s.reg_setReg_ne _ h

variable {k : Nat} (hk : k < 16)

/-- A core's reset writes none but its own fields besides its bank. -/
theorem State.coreReset_reg {i off : Nat} (h : rkey i off ≠ rkey 0 (0x90100 + 16 * k)) :
    (s.coreReset k).reg i off = if bankKey (k + 1) (rkey i off) then regReset (rkey i off) else s.reg i off := by
  unfold State.coreReset
  rw [← State.resetBank_reg, State.reg_emit, State.reg_wr_ne _ _ h, State.reg_wr_ne _ _ h, State.reg_wr_ne _ _ h]

include hk

theorem State.coreReset_rd {g : Fld} (h : (0x90100 + 16 * k) ≠ g.off) (hg : g.off < 0x100000) (i : Nat)
    (hbank : bankKey (k + 1) (rkey i g.off) = false) : (s.coreReset k).rd g i = s.rd g i := by
  rw [State.rd, State.coreReset_reg s (rkey_ne_of_off hg (by omega) h.symm), hbank, if_neg Bool.false_ne_true, ← State.rd]

theorem State.coreReset_run : (s.coreReset k).rd (F.TDS_CORE_STAT_RUN k) 0 = 0 := by
  unfold State.coreReset
  rw [State.rd_emit, State.rd_wr_clear _ _ _ _ (Fld.clearOf_cores hk hk rfl rfl rfl),
    State.rd_wr_clear _ _ _ _ (Fld.clearOf_cores hk hk rfl rfl rfl)]
  exact State.rd_wr_held _ 0 (f := F.TDS_CORE_STAT_RUN k) rfl

theorem State.coreReset_online_rd : (s.coreReset k).rd (F.TDS_CORE_STAT_ONLINE k) 0 = s.rd (F.TDS_CORE_STAT_ONLINE k) 0 := by
  unfold State.coreReset
  rw [State.rd_emit, State.rd_wr_clear _ _ _ _ (Fld.clearOf_cores hk hk rfl rfl rfl),
    State.rd_wr_clear _ _ _ _ (Fld.clearOf_cores hk hk rfl rfl rfl), State.rd_wr_clear _ _ _ _ (Fld.clearOf_cores hk hk rfl rfl rfl),
    State.resetBank_rd _ (bankKey_unbanked k (coreStat_off_lt hk))]

theorem State.coreLeft_run (h : s.rd (F.TDS_CORE_STAT_RUN k) 0 = 0) : (s.coreLeft k).rd (F.TDS_CORE_STAT_RUN k) 0 = 0 := by
  unfold State.coreLeft
  split
  · exact h
  · exact s.coreReset_run hk

theorem State.coreLeft_state (t : Nat) : (s.coreLeft k).rd T.state t = s.rd T.state t := by
  unfold State.coreLeft
  split
  · rfl
  · exact s.coreReset_rd hk (by simp only [T.state]; omega) (by decide) t (bankKey_task _ _)

end

@[simp] theorem State.coreReset_tds (s : State) (k : Nat) : (s.coreReset k).tds = s.tds := rfl

theorem State.coreLeft_tds (s : State) (k : Nat) : (s.coreLeft k).tds = s.tds := by
  unfold State.coreLeft
  split <;> rfl

/-- A core marked as out of dispatch. -/
def State.markOffline (s : State) (k : Nat) : State := (s.wr (F.TDS_CORE_CTL k) 0 1).wr (F.TDS_CORE_STAT_ONLINE k) 0 0

/-- What follows for the core itself: preemption asked of the task that runs there, or a reset at once. -/
def State.stopCore (s : State) (k : Nat) : State :=
  if s.on (F.TDS_CORE_STAT_RUN k) 0 then
    (if s.on (F.TDS_CORE_STAT_PREEMPT k) 0 then s
     else ((s.wr (F.TDS_CORE_STAT_PREEMPT k) 0 1).emit (.coreIrq k)).inc F.TDS_PREEMPTS 0)
  else s.coreReset k

section
variable (s : State) {k : Nat}

theorem State.offlineCore_of_offline (h : s.coreOnline k = false) : s.offlineCore k = s.wr (F.TDS_CORE_CTL k) 0 1 :=
  if_pos (by rw [h]; rfl)

/-- Behind the core itself only the stranded tasks are counted. -/
theorem State.offlineCore_keeps {β : Type} (q : State → β) (hinc : ∀ s : State, q (s.inc F.TDS_STRANDED 0) = q s)
    (h : s.coreOnline k = true) : q (s.offlineCore k) = q ((s.markOffline k).stopCore k) := by
  unfold State.offlineCore
  rw [if_neg (by rw [h]; decide)]
  extract_lets before marked stopped waiting
  refine foldl_keeps q (fun s t => ?_) _ _
  split
  · exact hinc s
  · rfl

theorem State.markOffline_online : (s.markOffline k).rd (F.TDS_CORE_STAT_ONLINE k) 0 = 0 :=
  State.rd_wr_held _ 0 (f := F.TDS_CORE_STAT_ONLINE k) rfl

/-- Stopping a core writes, of the unbanked registers, its PREEMPT and PREEMPTS at most. -/
theorem State.stopCore_rd {g : Fld} (hpre : (F.TDS_CORE_STAT_PREEMPT k).clearOf g = true) (hcount : F.TDS_PREEMPTS.clearOf g = true)
    (hreset : (s.coreReset k).rd g 0 = s.rd g 0) : (s.stopCore k).rd g 0 = s.rd g 0 := by
  unfold State.stopCore
  split
  · split
    · rfl
    · rw [State.rd_inc_clear _ _ _ hcount, State.rd_emit, State.rd_wr_clear _ _ _ _ hpre]
  · exact hreset

variable (hk : k < 16)
include hk

theorem State.markOffline_ctl : (s.markOffline k).rd (F.TDS_CORE_CTL k) 0 = 1 := by
  unfold State.markOffline
  rw [State.rd_wr_clear _ _ _ _ (Fld.clearOf_of_off (coreStat_off_lt hk) (by simp only [F.TDS_CORE_CTL]; omega)
    (by simp only [F.TDS_CORE_CTL, F.TDS_CORE_STAT_ONLINE]; omega))]
  exact State.rd_wr_held _ 0 (f := F.TDS_CORE_CTL k) rfl

theorem State.markOffline_run : (s.markOffline k).on (F.TDS_CORE_STAT_RUN k) 0 = s.on (F.TDS_CORE_STAT_RUN k) 0 := by
  unfold State.markOffline
  rw [State.on_wr_clear _ _ _ _ (Fld.clearOf_cores hk hk rfl rfl rfl),
    State.on_wr_clear _ _ _ _ (Fld.clearOf_of_off (by simp only [F.TDS_CORE_CTL]; omega) (coreStat_off_lt hk)
      (by simp only [F.TDS_CORE_CTL, F.TDS_CORE_STAT_RUN]; omega))]

theorem State.offlineCore_ctl : (s.offlineCore k).rd (F.TDS_CORE_CTL k) 0 = 1 := by
  have hlt : 0x90104 + 16 * k < 0x100000 := by omega
  cases h : s.coreOnline k with
  | false =>
    rw [State.offlineCore_of_offline s h]
    exact State.rd_wr_held _ 0 (f := F.TDS_CORE_CTL k) rfl
  | true =>
    rw [State.offlineCore_keeps s (fun s => s.rd (F.TDS_CORE_CTL k) 0)
        (fun s => s.rd_inc_clear _ _ (Fld.clearOf_of_off (by decide) hlt (by simp only [F.TDS_CORE_CTL, F.TDS_STRANDED]; omega))) h,
      State.stopCore_rd _ (Fld.clearOf_of_off (coreStat_off_lt hk) hlt (by simp only [F.TDS_CORE_CTL, F.TDS_CORE_STAT_PREEMPT]; omega))
        (Fld.clearOf_of_off (by decide) hlt (by simp only [F.TDS_CORE_CTL, F.TDS_PREEMPTS]; omega))
        (State.coreReset_rd _ hk (by simp only [F.TDS_CORE_CTL]; omega) hlt 0 (bankKey_unbanked k hlt)),
      State.markOffline_ctl s hk]

theorem State.offlineCore_online : (s.offlineCore k).coreOnline k = false := by
  cases h : s.coreOnline k with
  | false =>
    rw [State.offlineCore_of_offline s h, State.coreOnline,
      State.on_wr_clear _ _ _ _ (Fld.clearOf_of_off (by simp only [F.TDS_CORE_CTL]; omega) (coreStat_off_lt hk)
        (by simp only [F.TDS_CORE_CTL, F.TDS_CORE_STAT_ONLINE]; omega)), ← State.coreOnline, h]
  | true =>
    have hreset : ((s.markOffline k).coreReset k).rd (F.TDS_CORE_STAT_ONLINE k) 0 = (s.markOffline k).rd (F.TDS_CORE_STAT_ONLINE k) 0 :=
      State.coreReset_online_rd _ hk
    rw [State.coreOnline, State.on,
      State.offlineCore_keeps s (fun s => s.rd (F.TDS_CORE_STAT_ONLINE k) 0)
        (fun s => s.rd_inc_clear _ _ (Fld.clearOf_to_core hk rfl (.inr (by decide)) (by decide))) h,
      State.stopCore_rd _ (Fld.clearOf_cores hk hk rfl rfl rfl) (Fld.clearOf_to_core hk rfl (.inr (by decide)) (by decide)) hreset,
      State.markOffline_online s]
    rfl

/-- A core with nothing running gets its banked registers reset at once. -/
theorem State.offlineCore_bank (hon : s.coreOnline k = true) (hrun : s.on (F.TDS_CORE_STAT_RUN k) 0 = false) {off : Nat}
    (hbank : (findRow off).any (fun r => r.bank == .req) = true) (hlt : off < 0x100000) :
    (s.offlineCore k).reg (k + 1) off = regReset (rkey (k + 1) off) := by
  have hkey (p : Nat) (hp : p < 0x100000) : rkey (k + 1) off ≠ rkey 0 p := fun he => by
    have := ((rkey_inj hlt hp).mp he).1
    omega
  rw [State.offlineCore_keeps s (fun s => s.reg (k + 1) off) (fun s => s.reg_wr_ne _ (hkey _ (by decide))) hon, State.stopCore,
    State.markOffline_run s hk, hrun, if_neg Bool.false_ne_true, State.coreReset_reg _ (hkey _ (coreStat_off_lt hk)),
    bankKey_own _ hbank hlt, if_pos rfl]

end

/-! ### The obligation -/

theorem preemptTimeout_eq (k : Nat) (s : State) : preemptTimeout k s = if s.on (F.TDS_CORE_STAT_PREEMPT k) 0 = true then
    ((s.inc F.TDS_PREEMPT_LATE 0).log 0x0902 engineReq k (bytesLE 2 (s.rd (F.TDS_CORE_STAT_TASK k) 0))).watch fsPreemptLate k else s := by
  unfold preemptTimeout
  cases s.on (F.TDS_CORE_STAT_PREEMPT k) 0 <;> rfl

/-- What a running engine does by itself and for TDS_NEXT (R314, R316, R317). -/
theorem taskRuns_dispatch {s : State} {k : Fin 16} {req : Fin 19} (hreq : req.val = k.val + 1) (h : s.Runs) :
    (∀ t, s.nextTask k = some t → ∃ u, Finishes (.tdsNextRead req) s u ∧ u.rd T.state t = tsRunning ∧ u.rd T.core t = k ∧
      u.rd T.evpend t = 0 ∧ u.rd (F.TDS_CORE_STAT_RUN k) 0 = 1 ∧ u.rd (F.TDS_CORE_STAT_PREEMPT k) 0 = 0 ∧ (∀ p < 32, t ∉ u.readyList p) ∧
      tget (fun _ => []) u.rdata req = toBytes (bytesLE 4 (2 ^ 31 + s.rd T.evpend t * 2 ^ 16 + t))) ∧
    (s.nextTask k = none → ∃ u, Finishes (.tdsNextRead req) s u ∧ u.tds = s.tds ∧ u.rd (F.TDS_CORE_STAT_PREEMPT k) 0 = 0 ∧
      u.rd (F.TDS_CORE_STAT_PRIO k) 0 =
        (if s.on (F.TDS_CORE_STAT_RUN k) 0 = true then s.taskPrio (s.rd (F.TDS_CORE_STAT_TASK k) 0) else 0) ∧
      tget (fun _ => []) u.rdata req = toBytes (bytesLE 4 0)) := by
  have hk := k.isLt
  have hcore : 0x90100 + 16 * k.val < 0x100000 := coreStat_off_lt hk
  have hnext : 0x90040 ≠ 0x90100 + 16 * k.val := by omega
  have hcleared : (s.wr (F.TDS_CORE_STAT_PREEMPT k) 0 0).rd (F.TDS_CORE_STAT_PREEMPT k) 0 = 0 := State.rd_wr_held _ 0 rfl
  refine ⟨fun t ht => ⟨_, done_runs h, ?_⟩, fun hnone => ⟨_, done_runs h, ?_⟩⟩
  · rw [State.readNext_of_some s hk hreq ht]
    refine ⟨?_, ?_, ?_, ?_, ?_, fun p hp => ?_, State.answer_rdata _ _ _⟩
    · rw [State.rd_answer, State.next_rd _ _ _ _ (by decide) (by decide), State.dispatch_state _ hk]
    · rw [State.rd_answer, State.next_rd _ _ _ _ (by decide) (by decide), State.dispatch_core _ hk]
    · rw [State.rd_answer, State.next_rd _ _ _ _ (by decide) (by decide), State.dispatch_evpend _ hk]
    · rw [State.rd_answer, State.next_rd (g := F.TDS_CORE_STAT_RUN k) _ _ _ _ hnext hcore, State.dispatch_run _ hk]
    · rw [State.rd_answer, State.next_rd (g := F.TDS_CORE_STAT_PREEMPT k) _ _ _ _ hnext hcore, State.dispatch_preempt _ hk, hcleared]
    · rw [State.readyList_answer, State.readyList_wr]
      exact State.dispatch_ready _ t hp
  · rw [State.readNext_of_none s hk hreq hnone]
    refine ⟨rfl, ?_, ?_, State.answer_rdata _ _ _⟩
    · rw [State.rd_answer, State.next_rd (g := F.TDS_CORE_STAT_PREEMPT k) _ _ _ _ hnext hcore, State.rd_wr_clear _ _ _ _ (Fld.clearOf_cores hk hk rfl rfl rfl), hcleared]
    · rw [State.rd_answer, State.next_rd (g := F.TDS_CORE_STAT_PRIO k) _ _ _ _ hnext hcore, State.rd_wr_same _ _ _ _ (TDS_CORE_STAT_PRIO_ok k)]
      refine Nat.mod_eq_of_lt (show _ < 32 from ?_)
      split
      · exact s.taskPrio_lt _
      · decide

/-- The end of the run of a task for which no SUSPEND waits, on a core in dispatch: the effect is the task's alone (R315). -/
theorem State.leaveRun_online {s : State} {k req t : Nat} (hk : k < 16) (hreq : req = k + 1) (how : RunEnd)
    (hrun : s.on (F.TDS_CORE_STAT_RUN k) 0 = true) (ht : s.rd (F.TDS_CORE_STAT_TASK k) 0 = t)
    (hsusp : s.tds.suspend.contains t = false) (hon : s.coreOnline k = true) :
    s.leaveRun req how = (s.coreIdles k).runEffect t (s.on (F.TDS_CORE_STAT_PREEMPT k) 0) how ∧
    (s.leaveRun req how).rd (F.TDS_CORE_STAT_RUN k) 0 = 0 := by
  have honline : ((s.coreIdles k).runEffect t (s.on (F.TDS_CORE_STAT_PREEMPT k) 0) how).coreOnline k = true := by
    rw [State.coreOnline, State.on, State.runEffect_rd _ _ _ _ _ (besideRuns_core hk rfl (calm_online hk)),
      State.coreIdles_rd _ _ (Fld.clearOf_cores hk hk rfl rfl rfl) (Fld.clearOf_cores hk hk rfl rfl rfl), ← State.on, ← State.coreOnline, hon]
  have heq : s.leaveRun req how = (s.coreIdles k).runEffect t (s.on (F.TDS_CORE_STAT_PREEMPT k) 0) how := by
    rw [State.leaveRun_of_running s hk hreq how hrun ht hsusp, State.coreLeft, if_pos honline]
  refine ⟨heq, ?_⟩
  rw [heq, State.runEffect_rd _ _ _ _ _ (besideRuns_core hk rfl (calm_run hk)), State.coreIdles_run s hk]

/-- A run that ends with a SUSPEND waiting: the task is SUSPENDED, and the core reset if it is out of dispatch (R315, R325). -/
theorem State.leaveRun_suspended {s : State} {k req t : Nat} (hk : k < 16) (hreq : req = k + 1) (how : RunEnd)
    (hrun : s.on (F.TDS_CORE_STAT_RUN k) 0 = true) (ht : s.rd (F.TDS_CORE_STAT_TASK k) 0 = t)
    (hsusp : s.tds.suspend.contains t = true) :
    (s.leaveRun req how).rd (F.TDS_CORE_STAT_RUN k) 0 = 0 ∧ (s.leaveRun req how).rd T.state t = tsSuspended ∧
      (s.leaveRun req how).tds.suspend.contains t = false := by
  have hrunoff : ((s.coreIdles k).suspendNow t).rd (F.TDS_CORE_STAT_RUN k) 0 = 0 := by
    rw [State.suspendNow, State.rd_wr_clear _ _ _ _ (Fld.clearOf_to_core hk rfl (.inl (by decide)) (by decide)), State.rd_withTds,
      State.coreIdles_run s hk]
  have hstate : ((s.coreIdles k).suspendNow t).rd T.state t = tsSuspended := State.rd_wr_held _ t (by decide)
  rw [State.leaveRun_of_suspended s hk hreq how hrun ht hsusp]
  refine ⟨State.coreLeft_run _ hk hrunoff, (State.coreLeft_state _ hk t).trans hstate, ?_⟩
  rw [State.coreLeft_tds]
  simp [State.suspendNow]

/-- Settles O51: TDS_NEXT by whether a task may run, the end of a run by its kind and by what waits for it, wakes by induction over the
tasks due. -/
theorem taskRuns : Obligations.TaskRuns := by
  unfold Obligations.TaskRuns
  intro s k req hreq
  have hk := k.isLt
  refine ⟨fun h => ?runs, fun r h hr => ?noCore, fun h => ⟨fun hidle => ?idle, fun t hrun ht hsusp hon => ?ends,
    fun t c hrun ht hsusp hc => ?suspended, ?offline⟩, fun wake period now _ hperiod hnow => nextWake_after hperiod hnow⟩
  case runs =>
    obtain ⟨hsome, hnone⟩ := taskRuns_dispatch hreq h
    refine ⟨hsome, hnone, fun r hr => ?_, ?_, _, done_runs h, fun t ht => taskWake_state ht, taskWake_late s⟩
    · rw [← State.readNext_of_no_core s hr]
      exact done_runs h
    · rw [← preemptTimeout_eq]
      exact done_runs h
  case noCore =>
    have hfin (how : RunEnd) : doneWrite r s (s.leaveRun r how) = .next (s.after s) := by
      rw [State.leaveRun_of_no_core s how hr]
      exact doneWrite_takes h
    exact ⟨hfin .finish, hfin .yield, fun n => hfin (.sleep n.toNat)⟩
  case idle =>
    have hfin (how : RunEnd) : doneWrite req s (s.leaveRun req how) = .next (s.after s) := by
      rw [State.leaveRun_of_idle s hk hreq how hidle]
      exact doneWrite_takes h
    exact ⟨hfin .finish, hfin .yield, fun n => hfin (.sleep n.toNat)⟩
  case ends =>
    have hends (how : RunEnd) := State.leaveRun_online hk hreq how hrun ht hsusp hon
    refine ⟨⟨_, doneWrite_takes h, (hends .finish).2, ?_⟩, ⟨_, doneWrite_takes h, (hends .yield).2, ?_⟩,
      fun n => ⟨_, doneWrite_takes h, (hends (.sleep n.toNat)).2, ?_⟩⟩
    · rw [(hends .finish).1, State.runEffect, State.taskEnd_state, State.on, State.coreIdles_record s hk t (by decide),
        State.coreIdles_record s hk t (by decide), ← State.on]
    · rw [(hends .yield).1]
      exact State.taskYield_state _ t _
    · rw [(hends (.sleep n.toNat)).1]
      have htick : (s.coreIdles k).tick32 = s.tick32 := by
        unfold State.coreIdles
        split <;> rfl
      exact ⟨State.delayFor_state _ t _, (State.delayFor_wake _ t _).trans (by rw [htick])⟩
  case suspended =>
    have hends (how : RunEnd) := State.leaveRun_suspended hk hreq how hrun ht hsusp
    simp only [List.mem_cons, List.not_mem_nil, or_false] at hc
    obtain rfl | rfl | rfl := hc
    · exact ⟨_, doneWrite_takes h, hends .finish⟩
    · exact ⟨_, doneWrite_takes h, hends .yield⟩
    · exact ⟨_, doneWrite_takes h, hends (.sleep 5)⟩
  case offline =>
    refine ⟨_, doneWrite_takes h, (State.foldWrites_rd _ _ _ _ _ _).trans (s.offlineCore_ctl hk), ?_, fun hon hrun off hbank hlt => ?_⟩
    · rw [State.coreOnline, State.on, State.foldWrites_rd, ← State.on, ← State.coreOnline, s.offlineCore_online hk]
    · rw [State.reg, State.foldWrites_eff, ← State.reg, hreq, s.offlineCore_bank hk hon hrun hbank hlt]

end Sys2Proof.Machine
end

section
/-!
PROOF. Mailboxes, events and frames of the cores (R309, R310, R313, R319 to R321): what an event that acts on its tasks leaves alone,
and what a post, a pop, a delivery and an injection leave. Settles O52.
-/

namespace Sys2Proof.Machine

/-! ### Events (R319, R320) -/

/-- The fields that an event raised writes. -/
def Fld.evented (f : Fld) : Prop := f = T.evpend ∨ f = F.TDS_EV_SAT ∨ f = F.TDS_EV_UNBOUND

section
variable {β : Type} (q : State → β) (hwr : ∀ (s : State) (f : Fld) (i v : Nat), f.evented → q (s.wr f i v) = q s)
  (hjoins : ∀ (s : State) (l : List Nat), q { s with tds := { s.tds with joins := l } } = q s)
include hwr hjoins

/-- An event that acts on a task writes EVPEND or the count of saturations, and notes the task. -/
theorem State.eventTask_leaves (s : State) (t : Nat) : q (s.eventTask t) = q s := by
  unfold State.eventTask
  extract_lets counted st
  have hcounted : q counted = q s := by
    simp only [counted]
    split
    · exact hwr _ _ _ _ (.inr (.inl rfl))
    · exact hwr _ _ _ _ (.inl rfl)
  split
  · exact (hjoins counted _).trans hcounted
  · exact hcounted

theorem State.raise_leaves (s : State) (cls idx : Nat) : q (s.raise cls idx) = q s := by
  unfold State.raise
  split
  · exact hwr _ _ _ _ (.inr (.inr rfl))
  · exact foldl_keeps q (State.eventTask_leaves q hwr hjoins) _ _

end

section
variable (s : State) (cls idx : Nat)

@[simp] theorem State.raise_mboxIn : (s.raise cls idx).tds.mboxIn = s.tds.mboxIn :=
  State.raise_leaves (fun s => s.tds.mboxIn) (fun _ _ _ _ _ => rfl) (fun _ _ => rfl) s cls idx

@[simp] theorem State.raise_mboxOut : (s.raise cls idx).tds.mboxOut = s.tds.mboxOut :=
  State.raise_leaves (fun s => s.tds.mboxOut) (fun _ _ _ _ _ => rfl) (fun _ _ => rfl) s cls idx

theorem State.raise_rd_clear {g : Fld} (j : Nat) (hpend : T.evpend.clearOf g = true) (hsat : F.TDS_EV_SAT.clearOf g = true)
    (hunbound : F.TDS_EV_UNBOUND.clearOf g = true) : (s.raise cls idx).rd g j = s.rd g j := by
  refine State.raise_leaves (fun s => s.rd g j) (fun s f i v hf => s.rd_wr_clear i j v ?_) (fun _ _ => rfl) s cls idx
  obtain rfl | rfl | rfl := hf
  · exact hpend
  · exact hsat
  · exact hunbound

end

/-- A task joins by an event if it is IDLE, or DELAYED with EVWAKE (R320). -/
def State.wakesByEvent (s : State) (t : Nat) : Prop := s.rd T.state t = tsIdle ∨ (s.rd T.state t = tsDelayed ∧ s.on T.evwake t = true)

/-- The event counted in EVPEND, or its saturation. -/
def State.countEvpend (s : State) (t : Nat) : State :=
  if s.rd T.evpend t = 255 then s.inc F.TDS_EV_SAT 0 else s.wr T.evpend t (s.rd T.evpend t + 1)

section
variable (s : State) (t : Nat)

theorem State.setReady_joins (p : Nat) (l : List Nat) : (s.setReady p l).tds.joins = s.tds.joins := rfl

theorem State.countEvpend_evpend : (s.countEvpend t).rd T.evpend t = min (s.rd T.evpend t + 1) 255 := by
  have hlt : s.rd T.evpend t < 256 := getF_lt _ _
  unfold State.countEvpend
  split
  next h => rw [State.rd_inc_clear _ _ _ (by decide), h]; rfl
  next h =>
    rw [State.rd_wr_same _ _ _ _ T_evpend_ok]
    exact (Nat.mod_eq_of_lt (show s.rd T.evpend t + 1 < 256 by omega)).trans (by omega)

theorem State.countEvpend_rd {g : Fld} (hpend : T.evpend.clearOf g = true) (hsat : F.TDS_EV_SAT.clearOf g = true) :
    (s.countEvpend t).rd g t = s.rd g t := by
  unfold State.countEvpend
  split
  · exact s.rd_inc_clear _ _ hsat
  · exact s.rd_wr_clear _ _ _ hpend

theorem State.countEvpend_tds : (s.countEvpend t).tds = s.tds := by
  unfold State.countEvpend
  split <;> rfl

/-- An event that makes its task READY puts it among those that join, in ascending record index (R313). -/
theorem State.eventTask_joins (h : s.wakesByEvent t) : s.eventTask t = { s.countEvpend t with
    tds := { (s.countEvpend t).tds with joins := s.tds.joins.filter (· < t) ++ t :: s.tds.joins.filter (t < ·) } } := by
  have hcond : (decide ((s.countEvpend t).rd T.state t = tsIdle) ||
      (decide ((s.countEvpend t).rd T.state t = tsDelayed) && (s.countEvpend t).on T.evwake t)) = true := by
    rw [State.on, State.countEvpend_rd _ _ (by decide) (by decide), State.countEvpend_rd _ _ (by decide) (by decide), ← State.on]
    simpa [State.wakesByEvent] using h
  rw [← s.countEvpend_tds t]
  unfold State.eventTask
  exact if_pos hcond

theorem State.eventTask_plain (h : ¬s.wakesByEvent t) : s.eventTask t = s.countEvpend t := by
  have hcond : ¬(decide ((s.countEvpend t).rd T.state t = tsIdle) ||
      (decide ((s.countEvpend t).rd T.state t = tsDelayed) && (s.countEvpend t).on T.evwake t)) = true := by
    rw [State.on, State.countEvpend_rd _ _ (by decide) (by decide), State.countEvpend_rd _ _ (by decide) (by decide), ← State.on]
    simpa [State.wakesByEvent] using h
  unfold State.eventTask
  exact if_neg hcond

theorem State.eventTask_rd {g : Fld} (h : (s.countEvpend t).rd g t = x) : (s.eventTask t).rd g t = x := by
  by_cases hw : s.wakesByEvent t
  · rw [State.eventTask_joins s t hw]
    exact h
  · rw [State.eventTask_plain s t hw]
    exact h

theorem State.unready_joins : (s.unready t).tds.joins = s.tds.joins := by
  unfold State.unready
  dsimp only

theorem State.makeReady_joins : (s.makeReady t).tds.joins = s.tds.joins := by
  unfold State.makeReady
  rw [State.examine_tds, State.setReady_joins, State.wr_tds, State.unready_joins]

/-- The one task that joins is READY when the command has ended, and none waits to join. -/
theorem State.readyAll_single (h : s.tds.joins = [t]) : s.readyAll.rd T.state t = tsReady ∧ s.readyAll.tds.joins = [] := by
  have heq : s.readyAll = { s with tds := { s.tds with joins := [] } }.makeReady t := by
    unfold State.readyAll
    rw [h]
    rfl
  rw [heq]
  exact ⟨State.makeReady_state _ t, State.makeReady_joins _ t⟩

end

theorem State.raise_of_unbound {s : State} {cls idx : Nat} (h : s.boundTasks (64 * cls + idx) = []) :
    s.raise cls idx = s.inc F.TDS_EV_UNBOUND 0 := by
  unfold State.raise
  rw [h]

theorem State.raise_of_bound {s : State} {cls idx : Nat} {l : List Nat} (h : s.boundTasks (64 * cls + idx) = l) (hl : l ≠ []) :
    s.raise cls idx = l.foldl State.eventTask s := by
  unfold State.raise
  rw [h]
  cases l with
  | nil => exact absurd rfl hl
  | cons => rfl

/-! ### Mailboxes (R321) -/

section
variable (s : State) (req : Nat)

theorem State.postIn_of_room (h : s.tds.mboxIn.length < 64) :
    s.postIn req = ({ s with tds := { s.tds with mboxIn := s.tds.mboxIn ++ [s.mboxMsg req] } } : State).raise 6 0 :=
  if_neg (by omega)

theorem State.postIn_of_full (h : 64 ≤ s.tds.mboxIn.length) : s.postIn req = s.inc F.TDS_MBOX_FULL_IN 0 := if_pos h

theorem State.postOut_of_full (h : 64 ≤ s.tds.mboxOut.length) : s.postOut req = s.inc F.TDS_MBOX_FULL_OUT 0 := if_pos h

theorem State.msix_tds (vec : Nat) : (s.msix vec).tds = s.tds := by
  unfold State.msix
  split
  · split <;> rfl
  · rfl

theorem State.postOut_of_room (h : s.tds.mboxOut.length < 64) :
    (s.postOut req).tds = { s.tds with mboxOut := s.tds.mboxOut ++ [s.mboxMsg req] } := by
  unfold State.postOut
  rw [if_neg (by omega)]
  dsimp only
  split
  · rw [State.msix_tds]
  · rfl

end

/-! ### Injections (R310) -/

/-- The frame that a core injects: its address and length as they stood at GO. -/
def State.setInj (s : State) (k : Nat) (x : Nat × Nat) : State :=
  { s with tds := { s.tds with inj := tput (fun _ => none) s.tds.inj k (some x) } }

section
variable (s : State) {req : Nat}

theorem State.injectGo_of_no_core (h : req = 0 ∨ 16 < req) : s.injectGo req = s := by
  unfold State.injectGo
  rw [coreOf_other h]

variable (h : 1 ≤ req) (h' : req ≤ 16)
include h h'

theorem coreOf_pred : coreOf req = some (req - 1) := coreOf_core (by omega) (by omega)

theorem State.injectGo_busy (hb : s.on F.TDS_INJ_CTL_BUSY req = true) : s.injectGo req = s.inc F.TDS_INJ_REFUSED 0 := by
  unfold State.injectGo
  rw [coreOf_pred h h']
  exact if_pos hb

theorem State.injectGo_taken (hb : s.on F.TDS_INJ_CTL_BUSY req = false) :
    s.injectGo req = (s.setInj (req - 1) (s.rd F.TDS_INJ_ADDR req, s.rd F.TDS_INJ_LEN req)).wr F.TDS_INJ_CTL_BUSY req 1 := by
  unfold State.injectGo
  rw [coreOf_pred h h']
  exact if_neg (by rw [hb]; decide)

end

/-- An injection given up or read: it waits no more, and BUSY is 0. -/
def State.injTaken (s : State) (k : Nat) : State :=
  ({ s with tds := { s.tds with inj := tput (fun _ => none) s.tds.inj k none } } : State).wr F.TDS_INJ_CTL_BUSY (k + 1) 0

theorem injectionReadDone_none {k : Nat} {s : State} (failed : Bool) (h : tget (fun _ => none) s.tds.inj k = none) :
    injectionReadDone k failed s = s := by
  unfold injectionReadDone
  rw [h]

theorem injectionReadDone_some {k a n : Nat} {s : State} (failed : Bool) (h : tget (fun _ => none) s.tds.inj k = some (a, n)) :
    injectionReadDone k failed s =
      if failed || (match corePlace a with | .mem p => s.corePoisoned p (min n 16379) | _ => false) then s.injTaken k
      else ((s.injTaken k).injBytes k a (min n 16379)).2.inject 2 k ((s.injTaken k).injBytes k a (min n 16379)).1 := by
  have hpoison (p m : Nat) : (s.injTaken k).corePoisoned p m = s.corePoisoned p m := by
    unfold State.corePoisoned
    have hcell (g : Nat) : (s.injTaken k).coreCell g = s.coreCell g := by
      unfold State.coreCell State.injTaken
      rw [State.rd_wr_clear _ _ _ _ (by decide)]
      rfl
    simp only [hcell]
    rfl
  unfold injectionReadDone
  rw [h]
  dsimp only
  rw [← State.injTaken]
  cases corePlace a <;> simp only [hpoison]

theorem State.injBytes_sram (s : State) {k a n p : Nat} (h : corePlace a = .sram p) : s.injBytes k a n = (s.sramBytes k p n, s) := by
  unfold State.injBytes
  rw [h]

theorem State.injBytes_mem (s : State) {k a n p : Nat} (h : corePlace a = .mem p) : s.injBytes k a n = (s.coreBytes p n, s) := by
  unfold State.injBytes
  rw [h]

theorem State.injBytes_other (s : State) {k a n : Nat} {b : Addr} (h : corePlace a = .none ∨ corePlace a = .place b) :
    s.injBytes k a n = s.freeBytes n := by
  unfold State.injBytes
  rcases h with h | h <;> rw [h]

/-! ### Deliveries (R309) -/

section
variable {k : Nat} {s : State} (rd : FsRead)

theorem coreDelivery_ignored (h : (s.rd (F.TDS_IN_HEAD k) 0 + 1) % 512 = s.rd (F.TDS_IN_TAIL k) 0 ∨ s.deliverable (qCore k) = none) :
    coreDelivery k rd s = s := by
  unfold coreDelivery
  dsimp only
  split
  · rfl
  next hroom =>
    rw [h.resolve_left hroom]

variable {x : QFrame} (hroom : (s.rd (F.TDS_IN_HEAD k) 0 + 1) % 512 ≠ s.rd (F.TDS_IN_TAIL k) 0)
  (hx : s.deliverable (qCore k) = some x)
include hroom hx

theorem coreDelivery_unreadable (hbad : ((s.takeDelivery (qCore k) x).readWords rd 0 x.slice).2 = true) :
    coreDelivery k rd s = ((s.takeDelivery (qCore k) x).readWords rd 0 x.slice).1 := by
  unfold coreDelivery
  dsimp only
  rw [if_neg hroom, hx]
  exact if_pos hbad

theorem coreDelivery_read (hgood : ((s.takeDelivery (qCore k) x).readWords rd 0 x.slice).2 = false) :
    coreDelivery k rd s =
      (((((s.takeDelivery (qCore k) x).readWords rd 0 x.slice).1.putCoreBytes (k * 2 ^ 26 + s.rd (F.TDS_IN_HEAD k) 0 * 2 ^ 15)
        (toBytes (bytesLE 8 0) ++ rxDesc x x.len coreStatus true)).putCoreBytes
        (k * 2 ^ 26 + s.rd (F.TDS_IN_HEAD k) 0 * 2 ^ 15 + 64) x.bytes).wr (F.TDS_IN_HEAD k) 0
        ((s.rd (F.TDS_IN_HEAD k) 0 + 1) % 512)).raise 5 k := by
  unfold coreDelivery
  dsimp only
  rw [if_neg hroom, hx]
  exact if_neg (by rw [hgood]; decide)

end

/-! ### The obligation -/

/-- A software event by the tasks bound to it (R319, R320). -/
theorem tdsEvRaise_cases {s : State} {req : Fin 19} (h : s.Takes req) (idx : Fin 64) :
    (s.boundTasks (64 * 14 + idx) = [] → Finishes (.tdsEvRaise req idx) s (s.inc F.TDS_EV_UNBOUND 0)) ∧
    (∀ t, s.boundTasks (64 * 14 + idx) = [t] → ∃ u, Finishes (.tdsEvRaise req idx) s u ∧
      u.rd T.evpend t = min (s.rd T.evpend t + 1) 255 ∧ u.rd T.state t = s.rd T.state t ∧
      (s.wakesByEvent t → u.tds.joins = s.tds.joins.filter (· < t) ++ t :: s.tds.joins.filter (t < ·) ∧
        (s.tds.joins = [] → u.readyAll.rd T.state t = tsReady ∧ u.readyAll.tds.joins = [])) ∧
      (¬s.wakesByEvent t → u.tds = s.tds)) ∧
    (∀ t t', s.boundTasks (64 * 14 + idx) = [t, t'] → Finishes (.tdsEvRaise req idx) s ((s.eventTask t).eventTask t')) := by
  have hfin {u : State} (hu : s.raise 14 idx = u) : Finishes (.tdsEvRaise req idx) s u := hu ▸ doneWrite_takes h
  refine ⟨fun hb => hfin (State.raise_of_unbound hb), fun t hb => ⟨_, hfin (State.raise_of_bound hb (List.cons_ne_nil _ _)), ?_⟩,
    fun t t' hb => hfin (State.raise_of_bound hb (List.cons_ne_nil _ _))⟩
  rw [List.foldl_cons, List.foldl_nil]
  refine ⟨State.eventTask_rd s t (s.countEvpend_evpend t), State.eventTask_rd s t (s.countEvpend_rd t (by decide) (by decide)),
    fun hw => ?_, fun hw => ?_⟩
  · have hjoins : (s.eventTask t).tds.joins = s.tds.joins.filter (· < t) ++ t :: s.tds.joins.filter (t < ·) := by
      rw [State.eventTask_joins s t hw]
    exact ⟨hjoins, fun hnone => State.readyAll_single _ t (hjoins.trans (by rw [hnone]; rfl))⟩
  · rw [State.eventTask_plain s t hw, State.countEvpend_tds]

/-- A frame injected by where it lies (R310). -/
theorem injectionReadDone_cases {s t : State} {k : Fin 16} {f : Bool} {a n : Nat} (h : s.Runs)
    (hinj : tget (fun _ => none) s.tds.inj k = some (a, n)) (ht : t = s.injTaken k) :
    (f = true → Finishes (.injectionReadDone k f) s t) ∧
    (∀ p, corePlace a = .sram p → f = false →
      Finishes (.injectionReadDone k f) s (t.inject 2 k (s.sramBytes k p (min n 16379)))) ∧
    (∀ p, corePlace a = .mem p → f = false → s.corePoisoned p (min n 16379) = true → Finishes (.injectionReadDone k f) s t) ∧
    (∀ p, corePlace a = .mem p → f = false → s.corePoisoned p (min n 16379) = false →
      Finishes (.injectionReadDone k f) s (t.inject 2 k (s.coreBytes p (min n 16379)))) ∧
    (∀ b, corePlace a = .none ∨ corePlace a = .place b → f = false →
      Finishes (.injectionReadDone k f) s ((t.freeBytes (min n 16379)).2.inject 2 k (t.freeBytes (min n 16379)).1)) := by
  subst ht
  have hfin {u : State} (hu : injectionReadDone k f s = u) : Finishes (.injectionReadDone k f) s u := hu ▸ done_runs h
  refine ⟨fun hf => hfin ?_, fun p hp hf => hfin ?_, fun p hp hf hbad => hfin ?_, fun p hp hf hgood => hfin ?_,
    fun b hb hf => hfin ?_⟩ <;> rw [injectionReadDone_some _ hinj]
  · rw [hf, Bool.true_or, if_pos rfl]
  · rw [State.injBytes_sram _ hp, hf, hp]
    rfl
  · rw [hf, hp]
    exact if_pos hbad
  · rw [State.injBytes_mem _ hp, hf, hp]
    exact if_neg (by simp [hgood])
  · rw [State.injBytes_other _ hb, hf]
    rcases hb with hb | hb <;> rw [hb] <;> rfl

/-- A frame delivered: HEAD follows it, and its bytes stand behind its descriptor (R309). -/
theorem coreDelivery_slot {s : State} {k : Nat} {rd : FsRead} {x : QFrame} (hk : k < 16)
    (hroom : (s.rd (F.TDS_IN_HEAD k) 0 + 1) % 512 ≠ s.rd (F.TDS_IN_TAIL k) 0) (hx : s.deliverable (qCore k) = some x)
    (hgood : ((s.takeDelivery (qCore k) x).readWords rd 0 x.slice).2 = false) :
    (coreDelivery k rd s).rd (F.TDS_IN_HEAD k) 0 = (s.rd (F.TDS_IN_HEAD k) 0 + 1) % 512 ∧
    (coreDelivery k rd s).coreBytes (k * 2 ^ 26 + s.rd (F.TDS_IN_HEAD k) 0 * 2 ^ 15 + 64) x.bytes.length = x.bytes := by
  have hoff : 0x90200 + 16 * k < 0x100000 := by omega
  have hclear {f : Fld} (hf : f.off < 0x90200 ∨ 0x90400 ≤ f.off) (hlt : f.off < 0x100000) : f.clearOf (F.TDS_IN_HEAD k) = true :=
    Fld.clearOf_of_off hlt hoff (by simp only [F.TDS_IN_HEAD]; omega)
  rw [coreDelivery_read rd hroom hx hgood]
  constructor
  · rw [State.raise_rd_clear _ _ _ _ (hclear (by decide) (by decide)) (hclear (by decide) (by decide)) (hclear (by decide) (by decide))]
    exact State.rd_wr_held _ 0 (f := F.TDS_IN_HEAD k)
      (Bool.and_eq_true_iff.mpr ⟨rfl, decide_eq_true (Nat.mod_lt _ (by decide))⟩)
  · rw [State.coreBytes_of_coreSide (State.coreSide_raise _ _ _), State.coreBytes_of_coreSide (State.coreSide_wr _ _ _ _),
      State.coreBytes_putCoreBytes]

/-- Settles O52: the mailboxes by how full they are, an event by the tasks bound to it, an injection by where its frame lies, and a
delivery by whether a slot is free and the frame can be read. -/
theorem mailboxesAndCoreFrames : Obligations.MailboxesAndCoreFrames := by
  unfold Obligations.MailboxesAndCoreFrames
  intro s req
  refine ⟨fun h => ⟨fun hroom => ?postIn, fun hfull => ?fullIn, fun hroom => ?postOut, fun hfull => ?fullOut,
    ⟨_, doneWrite_takes h, rfl, rfl⟩, ⟨_, doneWrite_takes h, rfl, rfl⟩, tdsEvRaise_cases h, fun hr => ?noCore,
    fun h1 h16 hb => ?busy, fun h1 h16 hb => ?injected⟩, fun h k => ⟨fun f hnone => ?noInjection,
    fun f a n t hinj ht => injectionReadDone_cases h hinj ht, fun rd hnot => ?noDelivery, fun rd x hroom hx hbad => ?unreadable,
    fun rd x hroom hx hgood => ⟨_, done_runs h, coreDelivery_slot k.isLt hroom hx hgood⟩⟩⟩
  case postIn =>
    refine ⟨_, s.mboxMsg req, doneWrite_takes h, ?_⟩
    rw [State.postIn_of_room s req hroom, State.raise_mboxIn, State.raise_mboxOut]
    exact ⟨rfl, rfl, rfl⟩
  case fullIn =>
    refine ⟨_, doneWrite_takes h, ?_⟩
    rw [State.postIn_of_full s req hfull]
    exact ⟨rfl, s.rd_inc_same 0 ⟨by decide, by decide⟩⟩
  case postOut => exact ⟨_, s.mboxMsg req, doneWrite_takes h, State.postOut_of_room s req hroom, rfl⟩
  case fullOut =>
    rw [← State.postOut_of_full s req hfull]
    exact doneWrite_takes h
  case noCore =>
    have hfin : Finishes (.tdsInjGo req) s (s.injectGo req) := doneWrite_takes h
    rwa [State.injectGo_of_no_core s hr] at hfin
  case busy =>
    rw [← State.injectGo_busy s h1 h16 hb]
    exact doneWrite_takes h
  case injected =>
    refine ⟨_, doneWrite_takes h, ?_⟩
    rw [State.injectGo_taken s h1 h16 hb]
    exact ⟨State.rd_wr_held _ _ (by decide), tget_tput_same _ _ _ _⟩
  case noInjection =>
    have hfin : Finishes (.injectionReadDone k f) s (injectionReadDone k f s) := done_runs h
    rwa [injectionReadDone_none f hnone] at hfin
  case noDelivery =>
    have hfin : Finishes (.coreDelivery k rd) s (coreDelivery k rd s) := done_runs h
    rwa [coreDelivery_ignored rd hnot] at hfin
  case unreadable =>
    rw [← coreDelivery_unreadable rd hroom hx hbad]
    exact done_runs h

end Sys2Proof.Machine
end

section
/-!
PROOF. What a requester writes to the classifier (R164, R173, R344): words of the table aperture and the start of exact operations.
Settles O33.
-/

namespace Sys2Proof.Machine

/-- One aligned word is an access to that word alone (R444). -/
theorem tableWrite_aligned {req ofs : Nat} {d : List (Option Byte)} (s : State) (hofs : ofs % 4 = 0) (hd : d.length = 4) :
    tableWrite req ofs d s = s.writeWord req ofs d := by
  have hplace : ofs / 4 * 4 + 4 * 0 = ofs := by omega
  unfold tableWrite
  dsimp only
  rw [hofs, List.replicate_zero, List.nil_append, hd]
  show s.writeWord req (ofs / 4 * 4 + 4 * 0) ((d.drop (4 * 0)).take 4) = _
  rw [hplace, Nat.mul_zero, List.drop_zero, List.take_of_length_le (by omega)]

theorem State.writeWord_refused {s : State} {req : Nat} (ofs : Nat) (d : List (Option Byte)) (h : s.ruleRefused req = true) :
    s.writeWord req ofs d = s.inc F.TWN_RULE_REFUSED 0 := if_pos h

/-! ### Exact operations (R164) -/

/-- The 64 bytes of a requester's key registers. -/
def State.emKey (s : State) (req : Nat) : List Byte := (List.range 16).flatMap (fun k => toBytes (bytesLE 4 (s.rd (F.CLS_EM_KEY k) req)))

theorem State.emKey_length (s : State) (req : Nat) : (s.emKey req).length = 64 := by
  simp [State.emKey, List.length_flatMap, length_toBytes_bytesLE]

/-- BUSY set for an operation. -/
def State.emBusy (s : State) (req op : Nat) : State := (s.wr F.CLS_EM_CTL_OP req op).wr F.CLS_EM_CTL_BUSY req 1

section
variable {s : State} {req op : Nat}

theorem State.emStart_busy (h : s.on F.CLS_EM_CTL_BUSY req = true) : s.emStart req op = s := if_pos h

theorem State.emStart_refused (h : s.on F.CLS_EM_CTL_BUSY req = false) (hr : s.ruleRefused req = true) :
    s.emStart req op = s.inc F.TWN_RULE_REFUSED 0 := by
  unfold State.emStart
  rw [h, hr]
  rfl

theorem State.emStart_queued (h : s.on F.CLS_EM_CTL_BUSY req = false) (hr : s.ruleRefused req = false) :
    s.emStart req op = { s.emBusy req op with cls := { s.cls with emOps := s.cls.emOps ++
      [{ req, op, ctl := (s.emBusy req op).reg req F.CLS_EM_CTL.off, actw := (s.emBusy req op).reg req F.CLS_EM_ACT.off,
         key := s.emKey req }] } } := by
  unfold State.emStart
  rw [h, hr]
  rfl

theorem State.emBusy_busy : (s.emBusy req op).rd F.CLS_EM_CTL_BUSY req = 1 := State.rd_wr_held _ _ (by decide)

theorem State.emBusy_op (hop : op < 4) : (s.emBusy req op).rd F.CLS_EM_CTL_OP req = op := by
  rw [State.emBusy, State.rd_wr_clear _ _ _ _ (by decide), State.rd_wr_same _ _ _ _ ⟨by decide, by decide⟩]
  exact Nat.mod_eq_of_lt hop

theorem State.emBusy_onlyRegs : OnlyRegs [rkey req F.CLS_EM_CTL.off] s (s.emBusy req op) :=
  (s.wr_onlyRegs (f := F.CLS_EM_CTL_OP) op (List.mem_singleton.mpr rfl)).trans
    (State.wr_onlyRegs _ (f := F.CLS_EM_CTL_BUSY) 1 (List.mem_singleton.mpr rfl))

end

theorem State.rd_withCls (s : State) (x : Cls) (f : Fld) (i : Nat) : ({ s with cls := x } : State).rd f i = s.rd f i := rfl

theorem OnlyRegs.withCls {ks : List Nat} {s u : State} (h : OnlyRegs ks s u) (x : Cls) :
    OnlyRegs ks { s with cls := x } { u with cls := x } := by
  obtain ⟨hsame, hregs⟩ := h
  refine ⟨?_, hregs⟩
  rw [hsame]

/-- GO of an exact operation by BUSY and R344. -/
theorem emStart_finishes {s : State} {req : Fin 19} {c : Instr} {op : Nat} (hop : op < 4)
    (hfin : ∀ u, s.emStart req op = u → Finishes c s u) :
    (s.on F.CLS_EM_CTL_BUSY req = true → Finishes c s s) ∧
    (s.on F.CLS_EM_CTL_BUSY req = false → s.ruleRefused req = true → Finishes c s (s.inc F.TWN_RULE_REFUSED 0)) ∧
    (s.on F.CLS_EM_CTL_BUSY req = false → s.ruleRefused req = false → ∃ u x, Finishes c s u ∧
      u.cls = { s.cls with emOps := s.cls.emOps ++ [x] } ∧ x.req = req.val ∧ x.op = op ∧ x.key.length = 64 ∧
      u.rd F.CLS_EM_CTL_BUSY req = 1 ∧ u.rd F.CLS_EM_CTL_OP req = op ∧ OnlyRegs [rkey req F.CLS_EM_CTL.off] { s with cls := u.cls } u) := by
  refine ⟨fun h => hfin _ (State.emStart_busy h), fun h hr => hfin _ (State.emStart_refused h hr), fun h hr => ?_⟩
  refine ⟨_, _, hfin _ (State.emStart_queued h hr), rfl, rfl, rfl, s.emKey_length req, ?_, ?_, ?_⟩
  · rw [State.rd_withCls]
    exact State.emBusy_busy
  · rw [State.rd_withCls]
    exact State.emBusy_op hop
  · exact State.emBusy_onlyRegs.withCls _

/-- Settles O33: a word by its alignment and R344, an exact operation by BUSY and R344. -/
theorem classifierWrites : Obligations.ClassifierWrites := by
  unfold Obligations.ClassifierWrites
  refine ⟨fun s req ofs d h => doneWrite_takes h, fun s req ofs d h hofs hd => ?_, fun s req c op h hc => ?_⟩
  · have hfin : Finishes (.tableWordWrite req ofs d) s (s.writeWord req ofs.toNat d) := by
      rw [← tableWrite_aligned s hofs hd]
      exact doneWrite_takes h
    exact ⟨hfin, fun hr => State.writeWord_refused ofs.toNat d hr ▸ hfin⟩
  · simp only [List.mem_cons, List.not_mem_nil, or_false, Prod.mk.injEq] at hc
    obtain ⟨rfl, rfl⟩ | ⟨rfl, rfl⟩ | ⟨rfl, rfl⟩ | ⟨rfl, rfl⟩ := hc
    · exact emStart_finishes (by decide) (fun u hu => hu ▸ doneWrite_takes h)
    · exact emStart_finishes (by decide) (fun u hu => hu ▸ doneWrite_takes h)
    · exact emStart_finishes (by decide) (fun u hu => hu ▸ doneWrite_takes h)
    · exact emStart_finishes (by decide) (fun u hu => hu ▸ doneWrite_takes h)

end Sys2Proof.Machine
end

section
/-!
PROOF. A frame of bytes laid out in blocks is read back from them (R68, R83).
-/

namespace Sys2Proof.Machine

/-! ### Bytes in a payload -/

theorem ofBytes_eq_ofLE (l : List Byte) : ofBytes l = ofLE (l.map BitVec.toNat) := by
  induction l with
  | nil => rfl
  | cons b l ih =>
    rw [List.map_cons, ofLE, ← ih]
    rfl

theorem ofBytes_lt (l : List Byte) : ofBytes l < 256 ^ l.length := by
  induction l with
  | nil => decide
  | cons b l ih =>
    have hb : b.toNat < 256 := b.isLt
    show b.toNat + 256 * ofBytes l < 256 ^ (l.length + 1)
    rw [Nat.pow_succ]
    omega

/-- Zeros behind bytes add nothing. -/
theorem ofBytes_append_zeros (l : List Byte) (n : Nat) : ofBytes (l ++ List.replicate n 0) = ofBytes l := by
  induction l with
  | nil =>
    induction n with
    | zero => rfl
    | succ n ih =>
      show 0 + 256 * ofBytes ([] ++ List.replicate n 0) = 0
      rw [ih]
      rfl
  | cons b l ih =>
    show b.toNat + 256 * ofBytes (l ++ List.replicate n 0) = b.toNat + 256 * ofBytes l
    rw [ih]

theorem payloadBytes_eq (p : Nat) : payloadBytes p = toBytes (bytesLE 8 p) := by
  rw [payloadBytes, toBytes, bytesLE, List.map_map]
  refine List.map_congr_left (fun i _ => ?_)
  apply BitVec.eq_of_toNat_eq
  simp only [Function.comp_apply, BitVec.toNat_ofNat]
  omega

/-- Eight bytes are the bytes of their payload. -/
theorem payloadBytes_ofBytes {l : List Byte} (h : l.length = 8) : payloadBytes (ofBytes l) = l := by
  have hround := toBytes_bytesLE_ofLE l
  rw [h] at hround
  rw [payloadBytes_eq, ofBytes_eq_ofLE, hround]

theorem ofBytes_lt_payload {l : List Byte} (h : l.length = 8) : ofBytes l < 2 ^ 64 := by
  have hlt := ofBytes_lt l
  rw [h] at hlt
  exact hlt

/-! ### A control block and the bytes behind its type -/

/-- The eight bytes of a control block: its type, some bytes, and zeros. -/
def controlBytes (t : Byte) (l : List Byte) : List Byte := t :: l ++ List.replicate (7 - l.length) 0

theorem controlBytes_length (t : Byte) {l : List Byte} (h : l.length ≤ 7) : (controlBytes t l).length = 8 := by
  simp [controlBytes]
  omega

theorem controlBytes_value (t : Byte) (l : List Byte) : ofBytes (controlBytes t l) = t.toNat + 256 * ofBytes l := by
  rw [controlBytes, ofBytes_append_zeros]
  rfl

section
variable (t : Byte) {l : List Byte} (h : l.length ≤ 7)
include h

theorem control_lt : t.toNat + 256 * ofBytes l < 2 ^ 64 := by
  rw [← controlBytes_value]
  exact ofBytes_lt_payload (controlBytes_length t h)

theorem control_bytes : ((payloadBytes (t.toNat + 256 * ofBytes l)).drop 1).take l.length = l := by
  rw [← controlBytes_value, payloadBytes_ofBytes (controlBytes_length t h)]
  simp [controlBytes]

end

theorem control_type (t : Byte) (n : Nat) : (t.toNat + 256 * n) % 256 = t.toNat := by
  rw [Nat.add_mul_mod_self_left]
  exact Nat.mod_eq_of_lt t.isLt

theorem termLen_type {k : Nat} (h : k < 8) : termLen (BitVec.ofNat 8 (termTypes.getD k 0)).toNat = some k ∧
    (BitVec.ofNat 8 (termTypes.getD k 0)).toNat = termTypes.getD k 0 := by
  have hall : ∀ k < 8, termLen (BitVec.ofNat 8 (termTypes.getD k 0)).toNat = some k ∧
    (BitVec.ofNat 8 (termTypes.getD k 0)).toNat = termTypes.getD k 0 := by decide
  exact hall k h

/-! ### Reading -/

theorem readBlocks_data (p : Nat) (l : List Block) (acc : List Byte) : readBlocks ((1, p) :: l) acc = readBlocks l (acc ++ payloadBytes p) := by
  rw [readBlocks, if_pos rfl]

theorem readBlocks_term {p k : Nat} (l : List Block) (acc : List Byte) (h : termLen (p % 256) = some k) :
    readBlocks ((2, p) :: l) acc = (acc ++ ((payloadBytes p).drop 1).take k, 0) := by
  rw [readBlocks, if_neg (by decide), if_pos rfl, h]

/-- Data blocks give back the bytes of whole blocks. -/
theorem readBlocks_dataBlocks (n : Nat) (bs : List Byte) (l : List Block) (acc : List Byte) (h : 8 * n ≤ bs.length) :
    readBlocks ((List.range n).map (fun i => (1, ofBytes ((bs.drop (8 * i)).take 8))) ++ l) acc =
      readBlocks l (acc ++ bs.take (8 * n)) := by
  induction n generalizing bs acc with
  | zero => simp
  | succ n ih =>
    have hfirst : (bs.take 8).length = 8 := by rw [List.length_take]; omega
    have htail : (List.range n).map (fun i => ((1, ofBytes ((bs.drop (8 * (i + 1))).take 8)) : Block)) =
        (List.range n).map (fun i => (1, ofBytes (((bs.drop 8).drop (8 * i)).take 8))) := by
      refine List.map_congr_left (fun i _ => ?_)
      rw [List.drop_drop, Nat.mul_succ, Nat.add_comm 8]
    rw [List.range_succ_eq_map, List.map_cons, List.map_map, List.cons_append, readBlocks_data, Nat.mul_zero, List.drop_zero,
      payloadBytes_ofBytes hfirst]
    show readBlocks ((List.range n).map (fun i => (1, ofBytes ((bs.drop (8 * (i + 1))).take 8))) ++ l) _ = _
    rw [htail, ih (bs.drop 8) _ (by rw [List.length_drop]; omega), List.append_assoc, Nat.mul_succ, Nat.add_comm (8 * n), List.take_add]

/-- A frame as blocks is read back whole. -/
theorem readFrame_frameToBlocks {f : List Byte} (h : 7 ≤ f.length) : readFrame (frameToBlocks f) = (f, 0) := by
  have hhead : (f.take 7).length = 7 := by rw [List.length_take]; omega
  have hlen : (f.drop 7).length = f.length - 7 := List.length_drop
  have hk : (f.drop 7).length % 8 < 8 := Nat.mod_lt _ (by decide)
  have htail : ((f.drop 7).drop ((f.drop 7).length - (f.drop 7).length % 8)).length = (f.drop 7).length % 8 := by
    rw [List.length_drop]
    omega
  obtain ⟨hterm, htype⟩ := termLen_type hk
  have hstart : (payloadBytes (0x78 + 256 * ofBytes (f.take 7))).drop 1 = f.take 7 := by
    have hbytes := control_bytes 0x78#8 (l := f.take 7) (by omega)
    rw [hhead, List.take_of_length_le (by simp [payloadBytes])] at hbytes
    exact hbytes
  unfold frameToBlocks dataBlocks
  dsimp only
  rw [List.singleton_append, List.cons_append, readFrame, if_pos ⟨rfl, Nat.add_mul_mod_self_left 0x78 256 _⟩, hstart,
    readBlocks_dataBlocks _ _ _ _ (Nat.mul_div_le _ _), ← htype,
    readBlocks_term _ _ (k := (f.drop 7).length % 8) (by rw [control_type, hterm]), List.append_assoc]
  have hrest := control_bytes (BitVec.ofNat 8 (termTypes.getD ((f.drop 7).length % 8) 0)) (by rw [htail]; omega : List.length _ ≤ 7)
  rw [htail] at hrest
  have hwhole : 8 * ((f.drop 7).length / 8) = (f.drop 7).length - (f.drop 7).length % 8 := by omega
  rw [hrest, hwhole, List.take_append_drop, List.take_append_drop]

/-- The blocks of a frame as the engine is told them, in 2 and 64 bits. -/
theorem frameToBlocks_words {f : List Byte} (h : 7 ≤ f.length) :
    ∀ b ∈ frameToBlocks f, ((BitVec.ofNat 2 b.1).toNat, (BitVec.ofNat 64 b.2).toNat) = b := by
  have hword (x : Nat) {p : Nat} (hx : x < 4) (hp : p < 2 ^ 64) : ((BitVec.ofNat 2 x).toNat, (BitVec.ofNat 64 p).toNat) = (x, p) := by
    rw [BitVec.toNat_ofNat, BitVec.toNat_ofNat, Nat.mod_eq_of_lt hx, Nat.mod_eq_of_lt hp]
  have hk : (f.drop 7).length % 8 < 8 := Nat.mod_lt _ (by decide)
  intro b hb
  simp only [frameToBlocks, dataBlocks, List.mem_append, List.mem_singleton, List.mem_map, List.mem_range] at hb
  obtain (rfl | ⟨i, hi, rfl⟩) | rfl := hb
  · exact hword 2 (by decide) (control_lt 0x78#8 (by rw [List.length_take]; omega))
  · exact hword 1 (by decide) (ofBytes_lt_payload (by rw [List.length_take, List.length_drop]; omega))
  · rw [← (termLen_type hk).2]
    exact hword 2 (by decide) (control_lt _ (by rw [List.length_drop]; omega))

theorem treeRead_blocks {f : List Byte} (h : 7 ≤ f.length) :
    treeRead (.blocks ((frameToBlocks f).map (fun b => (BitVec.ofNat 2 b.1, BitVec.ofNat 64 b.2)))) = treeRead (.cut f) := by
  show readFrame (((frameToBlocks f).map (fun b => (BitVec.ofNat 2 b.1, BitVec.ofNat 64 b.2))).map
    (fun b => (b.1.toNat, b.2.toNat))) = (f, 0)
  rw [List.map_map]
  show readFrame ((frameToBlocks f).map (fun b => ((BitVec.ofNat 2 b.1).toNat, (BitVec.ofNat 64 b.2).toNat))) = (f, 0)
  rw [List.map_congr_left (frameToBlocks_words h), List.map_id', readFrame_frameToBlocks h]

end Sys2Proof.Machine
end

section
/-!
PROOF. The link to the partner (R329, R331, R333 to R336, R339): which frame of a Surok lane is taken and where it goes, heartbeats
and declarations, and the TWIN_ALIVE inputs. Settles O53.
-/

namespace Sys2Proof.Machine

/-! ### Frames of the link (R331) -/

section
variable {s : State} {i : Nat} {f : List Byte}

theorem State.takeSurokFrame_off (sp : Bool) (ago : Nat) (h : s.paired = false ∨ s.laneRx i = false ∨ (s.framer (64 + i)).deliver = false) :
    s.takeSurokFrame i f sp ago = s := by
  unfold State.takeSurokFrame
  refine if_pos ?_
  rcases h with h | h | h <;> simp [h]

/-- Whether the link header is right, and the frame as long as it says. -/
def surokHeaderGood (f : List Byte) : Prop :=
  fieldBE f 6 2 = crc16 (f.take 6) ∧ 64 ≤ hdrLen f ∧ hdrLen f ≤ 16383 ∧ f.length = 8 + hdrLen f

theorem State.takeSurokFrame_bad {sp : Bool} (ago : Nat) (h : ¬surokHeaderGood f ∨ sp = true) : s.takeSurokFrame i f sp ago = s := by
  have hcond : (fieldBE f 6 2 != crc16 (f.take 6) || decide (hdrLen f < 64) || decide (16383 < hdrLen f) || f.length != 8 + hdrLen f
      || sp) = true := by
    rcases h with h | h
    · by_contra hnot
      simp only [Bool.or_eq_true, bne_iff_ne, decide_eq_true_eq, not_or, not_not, Nat.not_lt] at hnot
      obtain ⟨⟨⟨⟨hcrc, hlo⟩, hhi⟩, hlen⟩, -⟩ := hnot
      exact h ⟨hcrc, hlo, hhi, hlen⟩
    · rw [h, Bool.or_true]
  unfold State.takeSurokFrame
  rw [if_pos hcond, ite_self]

variable (hpaired : s.paired = true) (hrx : s.laneRx i = true) (hdel : (s.framer (64 + i)).deliver = true) (hgood : surokHeaderGood f)

/-- The frame that the parser gets, with what the link header says of it. -/
def State.surokFr (s : State) (i : Nat) (f : List Byte) (ago : Nat) : Frame :=
  { s.arrived (f.drop 8) (shift16 s.now16 (-(s.surokRx i : Int) - ago)) 3 i with tid := hdrTid f, bc := hdrBc f, prot := hdrProt f }

include hpaired hrx hdel hgood

theorem State.takeSurokFrame_taken (ago : Nat) : s.takeSurokFrame i f false ago =
    if surokCopy f then s.copyFrame (f.drop 8)
    else if !surokFwd f then s.enterPipe (s.surokFr i f ago)
    else if !s.pairActive (surokQueue f / 64) then s.inc F.TWN_RX_FWD_DROP 0
    else s.admitFrame { mkQ (s.surokFr i f ago) 0 (surokQueue f) with tid := hdrTid f, bc := hdrBc f, prot := hdrProt f } := by
  obtain ⟨hcrc, hlo, hhi, hlen⟩ := hgood
  unfold State.takeSurokFrame
  rw [if_neg (by simp [hpaired, hrx, hdel]), if_neg (by simp [hcrc, hlen, Nat.not_lt.mpr hlo, Nat.not_lt.mpr hhi])]
  rfl

end

/-- A frame told cut: what spoils it besides is a codeword of its blocks. -/
theorem surokFrameReceived_cut (i : Nat) (f : List Byte) (block spoilt ago : Nat) (s : State) :
    surokFrameReceived i (.cut f) block spoilt ago s = s.takeSurokFrame i f (spoilt != 0 || s.codewordsBad (64 + i) (block / 80)
      ((block + frameBlocks (f.length - 8) - 1) / 80 + 1 - block / 80)) ago := by
  unfold surokFrameReceived treeRead
  simp

/-- SUROK_FRAME_RECEIVED by what is wrong with the frame, and where a right one goes. -/
theorem surokFrameReceived_cases {s : State} (h : s.Runs) (i : Fin 8) (f : List Byte) (block : BitVec 32) (ago : Nat) :
    (∀ rx at_, Finishes (.surokFrameReceived i rx at_) s (surokFrameReceived i rx at_.block.toNat at_.spoilt at_.ago s)) ∧
    (7 ≤ f.length → exec (.surokFrameReceived i (.blocks ((frameToBlocks f).map
      (fun b => (BitVec.ofNat 2 b.1, BitVec.ofNat 64 b.2)))) { block, spoilt := 0, ago }) s =
        exec (.surokFrameReceived i (.cut f) { block, spoilt := 0, ago }) s) ∧
    (s.paired = false ∨ s.laneRx i = false ∨ (s.framer (64 + i)).deliver = false →
      ∀ rx at_, Finishes (.surokFrameReceived i rx at_) s s) ∧
    (fieldBE f 6 2 ≠ crc16 (f.take 6) ∨ hdrLen f < 64 ∨ 16383 < hdrLen f ∨ f.length ≠ 8 + hdrLen f →
      ∀ sp, Finishes (.surokFrameReceived i (.cut f) { block, spoilt := sp, ago }) s s) ∧
    (∀ sp, sp ≠ 0 ∨ s.codewordsBad (64 + i) (block.toNat / 80)
      ((block.toNat + frameBlocks (f.length - 8) - 1) / 80 + 1 - block.toNat / 80) = true →
      Finishes (.surokFrameReceived i (.cut f) { block, spoilt := sp, ago }) s s) ∧
    (s.paired = true → s.laneRx i = true → (s.framer (64 + i)).deliver = true → fieldBE f 6 2 = crc16 (f.take 6) →
      64 ≤ hdrLen f → hdrLen f ≤ 16383 → f.length = 8 + hdrLen f → s.codewordsBad (64 + i) (block.toNat / 80)
        ((block.toNat + frameBlocks (f.length - 8) - 1) / 80 + 1 - block.toNat / 80) = false →
      (surokCopy f = true → Finishes (.surokFrameReceived i (.cut f) { block, spoilt := 0, ago }) s (s.copyFrame (f.drop 8))) ∧
      (surokCopy f = false → ∃ fr, fr.body ++ fr.fcs = f.drop 8 ∧ fr.src = 3 ∧ fr.entry = i.val ∧ fr.tid = hdrTid f ∧ fr.bc = hdrBc f ∧
        fr.prot = hdrProt f ∧
        (surokFwd f = false → Finishes (.surokFrameReceived i (.cut f) { block, spoilt := 0, ago }) s (s.enterPipe fr)) ∧
        (surokFwd f = true → s.pairActive (surokQueue f / 64) = false →
          Finishes (.surokFrameReceived i (.cut f) { block, spoilt := 0, ago }) s (s.inc F.TWN_RX_FWD_DROP 0)) ∧
        (surokFwd f = true → s.pairActive (surokQueue f / 64) = true →
          Finishes (.surokFrameReceived i (.cut f) { block, spoilt := 0, ago }) s
            (s.admitFrame { mkQ fr 0 (surokQueue f) with tid := hdrTid f, bc := hdrBc f, prot := hdrProt f })))) := by
  have hfin (rx : TreeRx) (at_ : FrameAt) {u : State} (hu : surokFrameReceived i rx at_.block.toNat at_.spoilt at_.ago s = u) :
      Finishes (.surokFrameReceived i rx at_) s u := hu ▸ done_runs h
  refine ⟨fun rx at_ => hfin rx at_ rfl, fun hlen => ?blocks, fun hoff rx at_ => hfin rx at_ (State.takeSurokFrame_off _ _ hoff),
    fun hbad sp => hfin _ _ ?header, fun sp hsp => hfin _ _ ?spoilt, fun hpaired hrx hdel hcrc hlo hhi hlen hcw => ?taken⟩
  case blocks =>
    show execSurokFrameReceived _ _ _ _ = execSurokFrameReceived _ _ _ _
    unfold execSurokFrameReceived surokFrameReceived
    rw [treeRead_blocks hlen]
  case header =>
    rw [surokFrameReceived_cut]
    refine State.takeSurokFrame_bad _ (.inl ?_)
    rintro ⟨hcrc, hlo, hhi, hlen⟩
    omega
  case spoilt =>
    rw [surokFrameReceived_cut]
    refine State.takeSurokFrame_bad _ (.inr ?_)
    rcases hsp with hsp | hsp
    · have hne : sp.val ≠ 0 := fun he => hsp (Fin.ext he)
      simp [hne]
    · rw [hsp, Bool.or_true]
  case taken =>
    have htaken := State.takeSurokFrame_taken hpaired hrx hdel ⟨hcrc, hlo, hhi, hlen⟩ ago
    have hcut {u : State} (hu : s.takeSurokFrame i f false ago = u) :
        Finishes (.surokFrameReceived i (.cut f) { block, spoilt := 0, ago }) s u := by
      refine hfin _ _ ?_
      rw [surokFrameReceived_cut, hcw]
      exact hu
    refine ⟨fun hcopy => hcut ?_, fun hcopy => ⟨s.surokFr i f ago, List.take_append_drop _ _, rfl, rfl, rfl, rfl, rfl, fun hfwd => hcut ?_,
      fun hfwd hact => hcut ?_, fun hfwd hact => hcut ?_⟩⟩ <;> rw [htaken, hcopy]
    · rfl
    · rw [hfwd]
      rfl
    · rw [hfwd, hact]
      rfl
    · rw [hfwd, hact]
      rfl

/-! ### Heartbeats and declarations (R333, R336, R339) -/

section
variable (s : State)

theorem heartbeatLost_ignored (h : s.paired = false ∨ s.twin.miss < 3 ∨ s.on F.TWN_STAT_HB_OK 0 = false) : heartbeatLost s = s := by
  unfold heartbeatLost
  refine if_pos ?_
  rcases h with h | h | h <;> simp [h]

theorem State.partner_wr {f : Fld} (v : Nat) (h : f.clearOf F.TWN_STAT_PARTNER = true) : (s.wr f 0 v).partner = s.partner :=
  s.rd_wr_clear _ _ _ h

theorem State.aliveAny_wr {f : Fld} (v : Nat) (h0 : f.clearOf F.TWN_STAT_ALIVE0 = true) (h1 : f.clearOf F.TWN_STAT_ALIVE1 = true) :
    (s.wr f 0 v).aliveAny = s.aliveAny := by
  rw [State.aliveAny, State.on_wr_clear _ _ _ _ h0, State.on_wr_clear _ _ _ _ h1, ← State.aliveAny]

theorem heartbeatLost_lost (hpaired : s.paired = true) (hmiss : 3 ≤ s.twin.miss) (hok : s.on F.TWN_STAT_HB_OK 0 = true) :
    heartbeatLost s = if s.partner = ptUp then (s.wr F.TWN_STAT_HB_OK 0 0).declare (if s.aliveAny then ptLinkLost else ptFailed)
      else s.wr F.TWN_STAT_HB_OK 0 0 := by
  unfold heartbeatLost
  rw [if_neg (by simp [hpaired, hok, Nat.not_lt.mpr hmiss])]
  dsimp only
  rw [State.partner_wr _ _ (by decide), State.declareLost, State.aliveAny_wr _ _ (by decide) (by decide)]

theorem firstHeartbeatTimeout_ignored (h : s.twin.since = none ∨ s.paired = false ∨ s.partner ≠ ptUnheard) : firstHeartbeatTimeout s = s := by
  unfold firstHeartbeatTimeout
  split
  · rfl
  next t ht =>
    refine if_pos ?_
    rcases h with h | h | h
    · rw [ht] at h
      cases h
    · simp [h]
    · simp [h]

theorem firstHeartbeatTimeout_early {t : Nat} (ht : s.twin.since = some t)
    (h : s.eng.tick < t + 64 * max 1 (s.rd F.TWN_CFG_WAIT_SF 0)) : firstHeartbeatTimeout s = s := by
  unfold firstHeartbeatTimeout
  rw [ht]
  exact if_pos (by simp [h])

theorem firstHeartbeatTimeout_due {t : Nat} (ht : s.twin.since = some t) (hpaired : s.paired = true) (hpartner : s.partner = ptUnheard)
    (h : t + 64 * max 1 (s.rd F.TWN_CFG_WAIT_SF 0) ≤ s.eng.tick) :
    firstHeartbeatTimeout s = s.declare (if s.aliveAny then ptLinkLost else ptFailed) := by
  unfold firstHeartbeatTimeout
  rw [ht]
  exact if_neg (by simp [hpaired, hpartner, Nat.not_lt.mpr h])

theorem declarationEnd_ignored (h : s.declared = false ∨ s.twin.good < 64 ∨ s.aliveAny = false) : declarationEnd s = s := by
  unfold declarationEnd
  refine if_pos ?_
  rcases h with h | h | h <;> simp [h]

/-- The partner is up again, and its declaration rules nothing any more. -/
def State.partnerUp (s : State) : State := (s.wr F.TWN_STAT_PARTNER 0 ptUp).wr F.TWN_STAT_RULE_MASTER 0 0

theorem declarationEnd_ended (hdecl : s.declared = true) (hgood : 64 ≤ s.twin.good) (halive : s.aliveAny = true) :
    declarationEnd s = { s.partnerUp with twin := { s.twin with resyncDue := true } } := by
  unfold declarationEnd
  exact if_neg (by simp [hdecl, halive, Nat.not_lt.mpr hgood])

theorem State.rd_withTwin (x : Twin) (f : Fld) (i : Nat) : ({ s with twin := x } : State).rd f i = s.rd f i := rfl

theorem OnlyRegs.withTwin {ks : List Nat} {s u : State} (h : OnlyRegs ks s u) (x : Twin) :
    OnlyRegs ks { s with twin := x } { u with twin := x } := by
  obtain ⟨hsame, hregs⟩ := h
  refine ⟨?_, hregs⟩
  rw [hsame]

theorem State.partnerUp_partner : s.partnerUp.rd F.TWN_STAT_PARTNER 0 = ptUp := by
  rw [State.partnerUp, State.rd_wr_clear _ _ _ _ (by decide)]
  exact State.rd_wr_held _ 0 (by decide)

theorem State.partnerUp_master : s.partnerUp.rd F.TWN_STAT_RULE_MASTER 0 = 0 := State.rd_wr_held _ 0 (by decide)

theorem State.partnerUp_onlyRegs : OnlyRegs [rkey 0 F.TWN_STAT.off] s s.partnerUp :=
  (s.wr_onlyRegs (f := F.TWN_STAT_PARTNER) _ (List.mem_singleton.mpr rfl)).trans
    (State.wr_onlyRegs _ (f := F.TWN_STAT_RULE_MASTER) _ (List.mem_singleton.mpr rfl))

theorem State.partnerUp_partner_withTwin (x : Twin) : ({ s.partnerUp with twin := x } : State).partner = ptUp := by
  rw [State.partner, State.rd_withTwin]
  exact s.partnerUp_partner

theorem State.partnerUp_master_withTwin (x : Twin) : ({ s.partnerUp with twin := x } : State).rd F.TWN_STAT_RULE_MASTER 0 = 0 := by
  rw [State.rd_withTwin]
  exact s.partnerUp_master

end

/-! ### The TWIN_ALIVE inputs (R335) -/

theorem aliveFld_clearOf {i : Nat} {f : Fld} (h0 : f.clearOf F.TWN_STAT_ALIVE0 = true) (h1 : f.clearOf F.TWN_STAT_ALIVE1 = true) :
    f.clearOf (aliveFld i) = true := by
  unfold aliveFld
  split
  · exact h0
  · exact h1

theorem aliveFld_ok (i : Nat) : (aliveFld i).holds 0 = true ∧ (aliveFld i).holds 1 = true := by
  unfold aliveFld
  split <;> decide

theorem aliveFld_clears {i : Nat} {g : Fld} (h0 : F.TWN_STAT_ALIVE0.clearOf g = true) (h1 : F.TWN_STAT_ALIVE1.clearOf g = true) :
    (aliveFld i).clearOf g = true := by
  unfold aliveFld
  split
  · exact h0
  · exact h1

theorem aliveFld_other {i : Nat} (hi : i < 2) : (aliveFld i).clearOf (aliveFld (1 - i)) = true := by
  have hall : ∀ i < 2, (aliveFld i).clearOf (aliveFld (1 - i)) = true := by decide
  exact hall i hi

theorem State.aliveAny_of_on {s : State} {i : Nat} (h : s.on (aliveFld i) 0 = true) : s.aliveAny = true := by
  unfold aliveFld at h
  split at h
  · rw [State.aliveAny, h, Bool.true_or]
  · rw [State.aliveAny, h, Bool.or_true]

section
variable (s : State) (i : Nat)

/-- The edges in the run towards restoration behind one more. -/
def Alive.nextRun (x : Alive) (cyc : Nat) : Nat :=
  match x.last with
  | none => 1
  | some c => if c + 30000 ≤ cyc ∧ cyc ≤ c + 34000 then min 4 (x.run + 1) else 1

/-- An edge noted at an input. -/
def State.noteAlive (s : State) (i : Nat) (x : Alive) : State :=
  { s with twin := { s.twin with alive := tput (fun _ => Alive.reset) s.twin.alive i x } }

theorem State.aliveIn_noteAlive (x : Alive) : (s.noteAlive i x).aliveIn i = x := tget_tput_same _ _ _ _

theorem State.aliveEdge_eq : s.aliveEdge i =
    if (s.aliveIn i).nextRun s.pegs.cyc = 4 && !s.on (F.FLT_IN_STAT_CHATTER (18 + i)) 0 then
      (s.noteAlive i { last := some s.pegs.cyc, run := (s.aliveIn i).nextRun s.pegs.cyc }).wr (aliveFld i) 0 1
    else s.noteAlive i { last := some s.pegs.cyc, run := (s.aliveIn i).nextRun s.pegs.cyc } := rfl

theorem State.aliveEdge_aliveIn : (s.aliveEdge i).aliveIn i = { last := some s.pegs.cyc, run := (s.aliveIn i).nextRun s.pegs.cyc } := by
  rw [State.aliveEdge_eq]
  split
  · exact State.aliveIn_noteAlive s i _
  · exact State.aliveIn_noteAlive s i _

theorem State.aliveEdge_flt : (s.aliveEdge i).flt = s.flt := by
  rw [State.aliveEdge_eq]
  split <;> rfl

theorem State.aliveEdge_restored (hrun : (s.aliveIn i).nextRun s.pegs.cyc = 4) (hcalm : s.on (F.FLT_IN_STAT_CHATTER (18 + i)) 0 = false) :
    (s.aliveEdge i).rd (aliveFld i) 0 = 1 := by
  rw [State.aliveEdge_eq, hrun, hcalm]
  exact State.rd_wr_held _ 0 (aliveFld_ok i).2

theorem State.aliveEdge_eff (hrun : (s.aliveIn i).nextRun s.pegs.cyc ≠ 4) : (s.aliveEdge i).eff = s.eff := by
  rw [State.aliveEdge_eq, if_neg (by simp [hrun])]
  rfl

theorem twinAliveEdge_ignored (h : s.edgeWaits (18 + i) = false) : twinAliveEdge i s = s := if_neg (by rw [h]; decide)

theorem twinAliveEdge_acts (h : s.edgeWaits (18 + i) = true) : twinAliveEdge i s = (s.edgeTaken (18 + i)).aliveEdge i := if_pos h

theorem State.edgeTaken_taken {k : Nat} (h : s.edgeWaits k = true) : ((s.edgeTaken k).inputOf k).acts + 1 = (s.inputOf k).acts := by
  have hacts : (s.inputOf k).acts ≠ 0 := by simpa [State.edgeWaits] using h
  have hget : (s.edgeTaken k).inputOf k = { s.inputOf k with acts := (s.inputOf k).acts - 1 } := tget_tput_same _ _ _ _
  rw [hget]
  dsimp only
  omega

/-- An input shown lost, in the entry that says so. -/
def State.loseAlive (s : State) (i : Nat) (x : Alive) : State :=
  (((s.noteAlive i { x with run := 0 }).wr (aliveFld i) 0 0).inc F.TWN_ALIVE_LOSS 0).log 0x0B03 engineReq i []

/-- What an input shown lost leads to: the declaration, where none is left. -/
def State.lostAlive (s : State) (i : Nat) (x : Alive) : State :=
  if (s.loseAlive i x).aliveAny then s.loseAlive i x else (s.loseAlive i x).declare ptFailed

/-- The cycle by which an input must have had its next edge. -/
def Alive.due (x : Alive) : Nat := match x.last with | none => 0 | some c => c + 48000

theorem twinAliveInputLost_eq : twinAliveInputLost i s =
    if !s.on (aliveFld i) 0 || (!s.on (F.FLT_IN_STAT_CHATTER (18 + i)) 0 && s.pegs.cyc + s.cyclesTo s.eng.nextB < (s.aliveIn i).due) then s
    else (if s.on (F.FLT_IN_STAT_CHATTER (18 + i)) 0 then s else s.runCycles ((s.aliveIn i).due - s.pegs.cyc)).lostAlive i (s.aliveIn i) :=
  rfl

theorem Alive.due_of_last {x : Alive} {c : Nat} (h : x.last = some c) : x.due = c + 48000 := by
  rw [Alive.due, h]

theorem twinAliveInputLost_down (h : s.on (aliveFld i) 0 = false) : twinAliveInputLost i s = s := by
  rw [twinAliveInputLost_eq]
  exact if_pos (by simp [h])

theorem twinAliveInputLost_early {c : Nat} (hcalm : s.on (F.FLT_IN_STAT_CHATTER (18 + i)) 0 = false) (hlast : (s.aliveIn i).last = some c)
    (h : s.pegs.cyc + s.cyclesTo s.eng.nextB < c + 48000) : twinAliveInputLost i s = s := by
  rw [twinAliveInputLost_eq, Alive.due_of_last hlast]
  exact if_pos (by simp [hcalm, h])

theorem twinAliveInputLost_late {c : Nat} (hon : s.on (aliveFld i) 0 = true) (hcalm : s.on (F.FLT_IN_STAT_CHATTER (18 + i)) 0 = false)
    (hlast : (s.aliveIn i).last = some c) (h : c + 48000 ≤ s.pegs.cyc + s.cyclesTo s.eng.nextB) :
    twinAliveInputLost i s = (s.runCycles (c + 48000 - s.pegs.cyc)).lostAlive i (s.aliveIn i) := by
  rw [twinAliveInputLost_eq, Alive.due_of_last hlast, if_neg (by simp [hon, Nat.not_lt.mpr h]), hcalm, if_neg Bool.false_ne_true]

theorem twinAliveInputLost_chatter (hon : s.on (aliveFld i) 0 = true) (hch : s.on (F.FLT_IN_STAT_CHATTER (18 + i)) 0 = true) :
    twinAliveInputLost i s = s.lostAlive i (s.aliveIn i) := by
  rw [twinAliveInputLost_eq, if_neg (by simp [hon, hch]), if_pos hch]

theorem State.loseAlive_rd (x : Alive) {g : Fld} (h : (aliveFld i).clearOf g = true) (hloss : F.TWN_ALIVE_LOSS.clearOf g = true) :
    (s.loseAlive i x).rd g 0 = s.rd g 0 := by
  unfold State.loseAlive
  rw [State.log_rd, State.rd_inc_clear _ _ _ hloss, State.rd_wr_clear _ _ _ _ h]
  rfl

theorem State.loseAlive_loss (x : Alive) :
    (s.loseAlive i x).rd F.TWN_ALIVE_LOSS 0 = min (s.rd F.TWN_ALIVE_LOSS 0 + 1) (2 ^ 32 - 1) := by
  unfold State.loseAlive
  rw [State.log_rd, State.rd_inc_same _ _ ⟨by decide, by decide⟩, State.rd_wr_clear _ _ _ _ (aliveFld_clears (by decide) (by decide))]
  rfl

theorem State.loseAlive_off (x : Alive) : (s.loseAlive i x).on (aliveFld i) 0 = false := by
  unfold State.loseAlive State.on
  rw [State.log_rd, State.rd_inc_clear _ _ _ (aliveFld_clearOf (by decide) (by decide)), State.rd_wr_held _ _ (aliveFld_ok i).1]
  rfl

end

/-- Settles O53: a frame by its lane, its header and its codewords; heartbeats by the boundaries missed and heard; an input by its
edges. -/
theorem twinLink : Obligations.TwinLink := by
  unfold Obligations.TwinLink
  intro s h
  refine ⟨surokFrameReceived_cases h, fun hnot => ?hbIgnored, fun hpaired hmiss hok => ⟨fun hp => ?hbAlone, fun hp => ?hbLost⟩,
    fun hnot => ?firstNot, fun t ht hearly => ?firstEarly, fun t ht hpaired hp hdue => ?firstDue, fun hnot => ?endNot,
    fun hdecl hgood halive => ?ended, fun i hw => ?edgeNot, fun i hw => ?edge, fun i hoff => ?lostNot,
    fun i c hon hcalm hlast => ⟨fun hearly => ?lostEarly, fun hlate => ?lostLate⟩, fun i hon hch hother => ?chatter, done_runs h⟩
  case hbIgnored =>
    have hfin : Finishes .heartbeatLost s (heartbeatLost s) := done_runs h
    rwa [heartbeatLost_ignored s hnot] at hfin
  case hbAlone =>
    have hfin : Finishes .heartbeatLost s (heartbeatLost s) := done_runs h
    rwa [heartbeatLost_lost s hpaired hmiss hok, if_neg hp] at hfin
  case hbLost =>
    have hfin : Finishes .heartbeatLost s (heartbeatLost s) := done_runs h
    rwa [heartbeatLost_lost s hpaired hmiss hok, if_pos hp] at hfin
  case firstNot =>
    have hfin : Finishes .firstHeartbeatTimeout s (firstHeartbeatTimeout s) := done_runs h
    rwa [firstHeartbeatTimeout_ignored s hnot] at hfin
  case firstEarly =>
    have hfin : Finishes .firstHeartbeatTimeout s (firstHeartbeatTimeout s) := done_runs h
    rwa [firstHeartbeatTimeout_early s ht hearly] at hfin
  case firstDue =>
    have hfin : Finishes .firstHeartbeatTimeout s (firstHeartbeatTimeout s) := done_runs h
    rwa [firstHeartbeatTimeout_due s ht hpaired hp hdue] at hfin
  case endNot =>
    have hfin : Finishes .declarationEnd s (declarationEnd s) := done_runs h
    rwa [declarationEnd_ignored s hnot] at hfin
  case ended =>
    have hfin : Finishes .declarationEnd s (declarationEnd s) := done_runs h
    rw [declarationEnd_ended s hdecl hgood halive] at hfin
    exact ⟨_, hfin, s.partnerUp_partner_withTwin _, s.partnerUp_master_withTwin _, rfl, s.partnerUp_onlyRegs.withTwin _⟩
  case edgeNot =>
    have hfin : Finishes (.twinAliveEdge i) s (twinAliveEdge i s) := done_runs h
    rwa [twinAliveEdge_ignored s i hw] at hfin
  case edge =>
    refine ⟨_, done_runs h, ?_⟩
    rw [twinAliveEdge_acts s i hw, State.aliveEdge_aliveIn]
    have hrun (c : Nat) (hlast : (s.aliveIn i).last = some c) : ((s.edgeTaken (18 + i)).aliveIn i).nextRun (s.edgeTaken (18 + i)).pegs.cyc =
        if c + 30000 ≤ s.pegs.cyc ∧ s.pegs.cyc ≤ c + 34000 then min 4 ((s.aliveIn i).run + 1) else 1 := by
      show (s.aliveIn i).nextRun s.pegs.cyc = _
      rw [Alive.nextRun, hlast]
    refine ⟨rfl, ?_, fun c hlast hlo hhi hthree hcalm => ?_, fun c hlast hout => ?_⟩
    · rw [State.inputOf, State.aliveEdge_flt, ← State.inputOf]
      exact s.edgeTaken_taken hw
    · refine State.aliveEdge_restored _ i ?_ hcalm
      rw [hrun c hlast, if_pos ⟨hlo, hhi⟩]
      omega
    · have hone : ((s.edgeTaken (18 + i)).aliveIn i).nextRun (s.edgeTaken (18 + i)).pegs.cyc = 1 := by
        rw [hrun c hlast, if_neg (by omega)]
      exact ⟨hone, State.aliveEdge_eff _ i (by rw [hone]; decide)⟩
  case lostNot =>
    have hfin : Finishes (.twinAliveInputLost i) s (twinAliveInputLost i s) := done_runs h
    rwa [twinAliveInputLost_down s i hoff] at hfin
  case lostEarly =>
    have hfin : Finishes (.twinAliveInputLost i) s (twinAliveInputLost i s) := done_runs h
    rwa [twinAliveInputLost_early s i hcalm hlast hearly] at hfin
  case lostLate =>
    have hfin : Finishes (.twinAliveInputLost i) s (twinAliveInputLost i s) := done_runs h
    rw [twinAliveInputLost_late s i hon hcalm hlast hlate, State.lostAlive, State.loseAlive, State.noteAlive] at hfin
    exact ⟨_, _, rfl, rfl, hfin⟩
  case chatter =>
    have hother' : (s.loseAlive i (s.aliveIn i)).on (aliveFld (1 - i.val)) 0 = true := by
      rw [State.on, State.loseAlive_rd _ _ _ (aliveFld_other i.isLt) (aliveFld_clearOf (by decide) (by decide)), ← State.on, hother]
    refine ⟨_, done_runs h, ?_⟩
    rw [twinAliveInputLost_chatter s i hon hch, State.lostAlive, if_pos (State.aliveAny_of_on hother')]
    exact ⟨State.loseAlive_off s i _, State.loseAlive_loss s i _, State.loseAlive_rd s i _ (aliveFld_clears (by decide) (by decide)) (by decide)⟩

end Sys2Proof.Machine
end

section
/-!
PROOF. A switch of a pair asked for, waiting or refused, and lanes out of service (R330, R341). Settles O54.
-/

namespace Sys2Proof.Machine

/-! ### TWN_SWITCH (R341) -/

section
variable (s : State) (req : Fin 19) (c : Nat) (toActive force : Bool)

theorem State.switchResult_requester (r : Nat) : s.switchResult req r = s.wr F.TWN_SWITCH_RESULT req r := if_pos (by omega)

theorem twnSwitch_refused (h : s.pairValid c = false ∨ s.pairActive c = toActive) :
    twnSwitch req c toActive force s = s.wr F.TWN_SWITCH_RESULT req swRefused := by
  unfold twnSwitch
  rw [if_pos (by rcases h with h | h <;> simp [h]), State.switchResult_requester]

variable {s c toActive force} (hvalid : s.pairValid c = true) (hother : s.pairActive c ≠ toActive)
include hvalid hother

theorem twnSwitch_atOnce (h : force = true ∨ s.partner ≠ ptUp) :
    twnSwitch req c toActive force s = (s.askSwitch c toActive req).wr F.TWN_SWITCH_RESULT req swPending := by
  unfold twnSwitch
  rw [if_neg (by simp [hvalid, hother]), if_pos (by simpa using h), State.switchResult_requester]

theorem twnSwitch_asked (hforce : force = false) (hup : s.partner = ptUp) :
    twnSwitch req c toActive force s = s.askHand req c toActive := by
  unfold twnSwitch
  rw [if_neg (by simp [hvalid, hother]), if_neg (by simp [hforce, hup])]

end

/-! ### Lanes out of service (R330) -/

section
variable (s : State) (out : Nat)

/-- What a lane in service again ends leaves every register as it is. -/
theorem twnLanesWrite_rd (f : Fld) (i : Nat) : (twnLanesWrite out s).rd f i = (s.lanesOut out).rd f i := by
  unfold twnLanesWrite
  refine foldl_keeps (fun u => u.rd f i) (fun u k => ?_) _ _
  split
  · rfl
  · exact u.endEffect_rd _ _ _ _

theorem State.lanesOut_refused (h : 2 < popCount 8 out) :
    (s.lanesOut out).rd F.TWN_LANES_REFUSED 0 = 1 ∧ (s.lanesOut out).rd F.TWN_LANES_OUT 0 = s.rd F.TWN_LANES_OUT 0 := by
  rw [State.lanesOut, if_pos h]
  exact ⟨State.rd_wr_held _ _ (by decide), State.rd_wr_clear _ _ _ _ (by decide)⟩

theorem State.lanesOut_taken (hout : out < 2 ^ 8) (h : popCount 8 out ≤ 2) :
    (s.lanesOut out).rd F.TWN_LANES_REFUSED 0 = 0 ∧ (s.lanesOut out).rd F.TWN_LANES_OUT 0 = out := by
  rw [State.lanesOut, if_neg (Nat.not_lt.mpr h)]
  refine ⟨State.rd_wr_held _ _ (by decide), ?_⟩
  rw [State.rd_wr_clear _ _ _ _ (by decide)]
  exact (State.rd_wr_same _ F.TWN_LANES_OUT 0 out ⟨by decide, by decide⟩).trans (Nat.mod_eq_of_lt hout)

/-- The command has written what the register itself is to hold; the accesses noted behind it change nothing. -/
theorem execTwnLanesWrite_rd {req : Fin 19} (h : s.Alone req) (insts : List Nat) (f : Fld) (i : Nat) :
    (s.ordered req F.TWN_LANES_OUT.off [0] (fun t => (twnLanesWrite out t).foldWrites req F.TWN_LANES_OUT.off insts)).rd f i =
      ((s.newAccess req).lanesOut out).rd f i := by
  rw [State.ordered_alone h]
  show ((((twnLanesWrite out (s.newAccess req)).foldWrites req F.TWN_LANES_OUT.off insts).noteWrite req _ _)).rd f i = _
  rw [State.rd_of_eff (State.noteWrite_eff _ _ _ _), State.foldWrites_rd, twnLanesWrite_rd]

end

/-- Settles O54: the three answers to a switch asked for, and TWN_LANES by the lanes it takes out of service. -/
theorem twinSwitching : Obligations.TwinSwitching := by
  unfold Obligations.TwinSwitching
  intro s req htakes
  refine ⟨fun c toActive force => ⟨fun hnot => ?refused, fun hvalid hother hnow => ?atOnce, fun hvalid hother hforce hup => ?asked⟩,
    fun out halone => ?lanes⟩
  case refused =>
    have hfin : Finishes (.twnSwitch req c toActive force) s (twnSwitch req c toActive force s) := doneWrite_takes htakes
    rwa [twnSwitch_refused s req c toActive force hnot] at hfin
  case atOnce =>
    have hfin : Finishes (.twnSwitch req c toActive force) s (twnSwitch req c toActive force s) := doneWrite_takes htakes
    rw [twnSwitch_atOnce req hvalid hother hnow] at hfin
    exact ⟨_, hfin, List.mem_append_right _ (List.mem_singleton.mpr rfl), State.rd_wr_held _ _ (by decide),
      State.wr_onlyRegs _ (f := F.TWN_SWITCH_RESULT) _ (List.mem_singleton.mpr rfl)⟩
  case asked =>
    have hfin : Finishes (.twnSwitch req c toActive force) s (twnSwitch req c toActive force s) := doneWrite_takes htakes
    rwa [twnSwitch_asked req hvalid hother hforce hup] at hfin
  case lanes =>
    refine ⟨_, doneWrite_takes htakes, fun hmany => ?_, fun hfew => ?_⟩ <;> simp only [execTwnLanesWrite_rd s _ halone]
    · exact State.lanesOut_refused _ _ hmany
    · exact State.lanesOut_taken _ _ out.isLt hfew

end Sys2Proof.Machine
end

section
/-!
PROOF. What a reset leaves (R428), and the feeds, hold-up, last gasp and thermal trip (R373 to R376, R441). Settles O57.
-/

namespace Sys2Proof.Machine

theorem rkey_offset {i off : Nat} (h : off < 0x100000) : rkey i off % 0x100000 = off := by
  unfold rkey
  omega

/-! ### What a reset leaves (R428) -/

section
variable (s : State) (capo : Bool)

/-- What a reset leaves before the fuses and the straps are shown again. -/
def State.bareReset (s : State) (capo : Bool) : State :=
  { State.reset with
    eff := s.eff.filter (fun e => keptReg capo e.1)
    shd := s.shd.filter (fun e => keptReg capo e.1)
    host := if capo then { State.reset.host with
      link := s.host.link, bme := s.host.bme, flr := s.host.flr, width := s.host.width, rate := s.host.rate,
      payload := s.host.payload, request := s.host.request, msixTab := s.host.msixTab, msixPend := s.host.msixPend } else State.reset.host
    img := { State.reset.img with serial := s.img.serial }
    pwr := { State.reset.pwr with off := s.pwr.off, tripped := s.pwr.tripped, input := s.pwr.input }
    flt := { State.reset.flt with capo := s.flt.capo, sevs := s.flt.sevs, capoNext := s.flt.capoNext, lastGasp := s.flt.lastGasp }
    out := s.out
    rdata := s.rdata
    free := s.free
    pending := s.pending }

theorem State.afterReset_eq : s.afterReset capo = (((s.driveAlive false).bareReset capo).wr F.IMG_STAT_FUSE_SVN 0
    ((s.driveAlive false).rd F.IMG_STAT_FUSE_SVN 0)).wr F.TWN_STAT_STRAP 0 ((s.driveAlive false).rd F.TWN_STAT_STRAP 0) := rfl

theorem State.driveAlive_frame (high : Bool) :
    s.driveAlive high = { s with twin := (s.driveAlive high).twin, out := (s.driveAlive high).out } := by
  unfold State.driveAlive
  split <;> rfl

theorem State.driveAlive_eff (high : Bool) : (s.driveAlive high).eff = s.eff := by rw [State.driveAlive_frame]
theorem State.driveAlive_host (high : Bool) : (s.driveAlive high).host = s.host := by rw [State.driveAlive_frame]
theorem State.driveAlive_pwr (high : Bool) : (s.driveAlive high).pwr = s.pwr := by rw [State.driveAlive_frame]
theorem State.driveAlive_flt (high : Bool) : (s.driveAlive high).flt = s.flt := by rw [State.driveAlive_frame]

theorem State.afterReset_pwr :
    (s.afterReset capo).pwr = { State.reset.pwr with off := s.pwr.off, tripped := s.pwr.tripped, input := s.pwr.input } := by
  rw [← s.driveAlive_pwr false]
  rfl

theorem State.afterReset_flt : (s.afterReset capo).flt =
    { State.reset.flt with capo := s.flt.capo, sevs := s.flt.sevs, capoNext := s.flt.capoNext, lastGasp := s.flt.lastGasp } := by
  rw [← s.driveAlive_flt false]
  rfl

theorem State.afterReset_store : (s.afterReset capo).store = State.reset.store := rfl
theorem State.afterReset_eng : (s.afterReset capo).eng = State.reset.eng := rfl

theorem State.bareReset_reg (i : Nat) {off : Nat} (h : off < 0x100000) :
    (s.bareReset capo).reg i off = if keptReg capo off then s.reg i off else regReset (rkey i off) := by
  have hkey : keptReg capo (rkey i off) = keptReg capo off := by
    rw [keptReg, rkey_offset h, keptReg, Nat.mod_eq_of_lt h]
  rw [← hkey]
  exact tget_filter_key _ _ _ _

/-- A register that does not outlive a reset, other than those that show the fuses and the straps. -/
theorem State.afterReset_reg (i : Nat) {off : Nat} (h : off < 0x100000) (himg : off ≠ F.IMG_STAT.off) (htwin : off ≠ F.TWN_STAT.off) :
    (s.afterReset capo).reg i off = if keptReg capo off then s.reg i off else regReset (rkey i off) := by
  rw [State.afterReset_eq, State.reg_wr_ne _ (f := F.TWN_STAT_STRAP) _ (rkey_ne_of_off h (by decide) htwin),
    State.reg_wr_ne _ (f := F.IMG_STAT_FUSE_SVN) _ (rkey_ne_of_off h (by decide) himg), State.bareReset_reg _ _ _ h,
    State.reg, State.driveAlive_eff, ← State.reg]

/-- A field that does not outlive a reset has its reset value. -/
theorem State.afterReset_rd (i : Nat) {g : Fld} (hkept : keptReg capo g.off = false) (hfuse : F.IMG_STAT_FUSE_SVN.clearOf g = true)
    (hstrap : F.TWN_STAT_STRAP.clearOf g = true) (h : g.off < 0x100000) : (s.afterReset capo).rd g i = getF (regReset (rkey i g.off)) g := by
  rw [State.afterReset_eq, State.rd_wr_clear _ _ _ _ hstrap, State.rd_wr_clear _ _ _ _ hfuse, State.rd, State.bareReset_reg _ _ _ h, hkept,
    if_neg Bool.false_ne_true]

theorem regReset_imgStat_phase : getF (regReset (rkey 0 F.IMG_STAT.off)) F.IMG_STAT_PHASE = phReset := by decide +kernel

theorem State.afterReset_phase : (s.afterReset capo).phase = phReset := by
  have hkept : keptReg capo F.IMG_STAT_PHASE.off = false := by cases capo <;> decide
  exact (s.afterReset_rd capo 0 hkept (by decide) (by decide) (by decide)).trans regReset_imgStat_phase

end

/-! ### The feeds (R373, R374) -/

theorem feedFld_holds (f : Nat) : (feedFld f).holds 0 = true ∧ (feedFld f).holds 1 = true := by
  unfold feedFld
  split <;> decide

theorem feedFld_clears {f : Nat} {g : Fld} (ha : F.PWR_FEED_STAT_A_OK.clearOf g = true) (hb : F.PWR_FEED_STAT_B_OK.clearOf g = true) :
    (feedFld f).clearOf g = true := by
  unfold feedFld
  split
  · exact ha
  · exact hb

theorem feedFld_clearOf {f : Nat} {g : Fld} (ha : g.clearOf F.PWR_FEED_STAT_A_OK = true) (hb : g.clearOf F.PWR_FEED_STAT_B_OK = true) :
    g.clearOf (feedFld f) = true := by
  unfold feedFld
  split
  · exact ha
  · exact hb

theorem feedFld_other {f : Nat} (h : f < 2) : (feedFld f).clearOf (feedFld (1 - f)) = true := by
  have hall : ∀ f < 2, (feedFld f).clearOf (feedFld (1 - f)) = true := by decide
  exact hall f h

theorem feedFld_off (f : Nat) : (feedFld f).off = F.PWR_FEED_STAT.off := by
  unfold feedFld
  split <;> rfl

/-- A source without an action that does anything to the machine. -/
theorem State.applyAction_feed (s : State) (inst action : Nat) : (s.applyAction fsFeed inst action).1 = s := by
  simp only [State.applyAction, fsFeed, fsCorr, fsMemCorr, fsMemUnc, fsMemRetrain, fsLockLoss, fsSfSet, fsSurok, fsCoreFault, fsPreemptLate,
    Nat.reduceEqDiff, if_false, decide_false, Bool.or_self, Bool.false_eq_true]
  repeat' split
  all_goals rfl

section
variable (s : State) (f : Nat) {g : Fld}

theorem State.feedOk_eq : s.feedOk f = s.on (feedFld f) 0 := by
  unfold State.feedOk feedFld
  split <;> rfl

theorem State.feedMain_lt : s.feedMain < 2 := getF_lt _ F.PWR_FEED_STAT_MAIN

/-- Fields of the feeds, and any field that counting, logging and raising an event leave alone. -/
theorem State.feedNote_rd (h : F.PWR_FEED_SW.clearOf g = true) (hoff : g.off < 0x90000) : (s.feedNote f).rd g 0 = s.rd g 0 := by
  unfold State.feedNote
  dsimp only
  split
  · exact State.rd_inc_clear _ _ _ h
  · rw [State.raise_rd _ _ _ _ hoff, State.log_rd, State.rd_inc_clear _ _ _ h]

theorem State.useFeed_rd (huse : F.PWR_FEED_STAT_USE.clearOf g = true) (hold : F.PWR_FEED_STAT_HOLDUP.clearOf g = true)
    (hsw : F.PWR_FEED_SW.clearOf g = true) (hoff : g.off < 0x90000) : (s.useFeed f).rd g 0 = s.rd g 0 := by
  rw [State.useFeed, State.feedNote_rd _ _ hsw hoff, State.rd_wr_clear _ _ _ _ hold, State.rd_wr_clear _ _ _ _ huse]

theorem State.useFeed_holdup : (s.useFeed f).rd F.PWR_FEED_STAT_HOLDUP 0 = 0 := by
  rw [State.useFeed, State.feedNote_rd _ _ (by decide) (by decide)]
  exact State.rd_wr_held _ 0 (by decide)

theorem State.useFeed_feedUse (h : f < 2) : (s.useFeed f).feedUse = f := by
  rw [State.feedUse, State.useFeed, State.feedNote_rd _ _ (by decide) (by decide), State.rd_wr_clear _ _ _ _ (by decide)]
  exact (State.rd_wr_same _ F.PWR_FEED_STAT_USE 0 f ⟨by decide, by decide⟩).trans (Nat.mod_eq_of_lt h)

theorem State.useFeed_feedOk (k : Nat) : (s.useFeed f).feedOk k = s.feedOk k := by
  rw [State.feedOk_eq, State.feedOk_eq, State.on, State.useFeed_rd _ _ (feedFld_clearOf (by decide) (by decide))
    (feedFld_clearOf (by decide) (by decide)) (feedFld_clearOf (by decide) (by decide)) (by rw [feedFld_off]; decide), ← State.on]

theorem State.watch_feed_rd (hoff : g.off < 0x90000) : (s.watch fsFeed f).rd g 0 = s.rd g 0 :=
  State.watch_keeps (fun s => s.rd g 0) (fun _ _ => rfl) (fun s v => s.msix_rd v g 0)
    (fun s _ => s.rd_inc_clear _ _ (Fld.clearOf_of_off (by decide) (by omega) (Nat.ne_of_lt (Nat.lt_trans hoff (by decide)))))
    (fun s cls idx => s.raise_rd cls idx 0 hoff) fsFeed f (fun s action => by rw [State.applyAction_feed]) s

end

/-! ### A feed fails, or is healthy again (R373 to R375) -/

section
variable (s : State) (va vb : BitVec 16)

theorem State.setFeedV_rd {g : Fld} (ha : F.PWR_FEED_V_VA.clearOf g = true) (hb : F.PWR_FEED_V_VB.clearOf g = true) (va vb : Nat) :
    (s.setFeedV va vb).rd g 0 = s.rd g 0 := by
  rw [State.setFeedV, State.rd_wr_clear _ _ _ _ hb, State.rd_wr_clear _ _ _ _ ha]

theorem State.setFeedV_feedOk (k va vb : Nat) : (s.setFeedV va vb).feedOk k = s.feedOk k := by
  rw [State.feedOk_eq, State.feedOk_eq, State.on, State.setFeedV_rd _ (feedFld_clearOf (by decide) (by decide))
    (feedFld_clearOf (by decide) (by decide)), ← State.on]

theorem State.setFeedV_va : (s.setFeedV va.toNat vb.toNat).rd F.PWR_FEED_V_VA 0 = va.toNat := by
  rw [State.setFeedV, State.rd_wr_clear _ _ _ _ (by decide)]
  exact (State.rd_wr_same _ F.PWR_FEED_V_VA 0 _ ⟨by decide, by decide⟩).trans (Nat.mod_eq_of_lt va.isLt)

theorem State.setFeedV_vb : (s.setFeedV va.toNat vb.toNat).rd F.PWR_FEED_V_VB 0 = vb.toNat :=
  (State.rd_wr_same _ F.PWR_FEED_V_VB 0 _ ⟨by decide, by decide⟩).trans (Nat.mod_eq_of_lt vb.isLt)

/-- A feed shown unhealthy, with the fault that it is. -/
def State.feedFails (s : State) (f : Nat) : State :=
  if (s.wr (feedFld f) 0 0).isHeld then s.wr (feedFld f) 0 0 else (s.wr (feedFld f) 0 0).watch fsFeed f

/-- What a feed that fails leaves to run from. -/
def State.feedGone (s : State) (f : Nat) : State :=
  if f != s.feedUse then s else if s.feedOk (1 - f) then s.useFeed (1 - f) else s.wr F.PWR_FEED_STAT_HOLDUP 0 1

theorem feedUnhealthy_eq (f va vb : Nat) : feedUnhealthy f va vb s =
    if !(s.setFeedV va vb).feedOk f then s.setFeedV va vb else ((s.setFeedV va vb).feedFails f).feedGone f := rfl

variable (f : Nat) {g : Fld}

theorem State.feedFails_rd (h : (feedFld f).clearOf g = true) (hoff : g.off < 0x90000) : (s.feedFails f).rd g 0 = s.rd g 0 := by
  unfold State.feedFails
  split
  · exact State.rd_wr_clear _ _ _ _ h
  · rw [State.watch_feed_rd _ _ hoff, State.rd_wr_clear _ _ _ _ h]

theorem State.feedFails_self : (s.feedFails f).feedOk f = false := by
  have hself : (s.feedFails f).rd (feedFld f) 0 = 0 := by
    unfold State.feedFails
    split
    · exact State.rd_wr_held _ 0 (feedFld_holds f).1
    · rw [State.watch_feed_rd _ _ (by rw [feedFld_off]; decide)]
      exact State.rd_wr_held _ 0 (feedFld_holds f).1
  rw [State.feedOk_eq, State.on, hself]
  rfl

theorem State.feedFails_other (h : f < 2) : (s.feedFails f).feedOk (1 - f) = s.feedOk (1 - f) := by
  rw [State.feedOk_eq, State.feedOk_eq, State.on, State.feedFails_rd _ _ (feedFld_other h) (by rw [feedFld_off]; decide), ← State.on]

theorem State.feedGone_rd (huse : F.PWR_FEED_STAT_USE.clearOf g = true) (hold : F.PWR_FEED_STAT_HOLDUP.clearOf g = true)
    (hsw : F.PWR_FEED_SW.clearOf g = true) (hoff : g.off < 0x90000) : (s.feedGone f).rd g 0 = s.rd g 0 := by
  unfold State.feedGone
  split
  · rfl
  · split
    · exact State.useFeed_rd _ _ huse hold hsw hoff
    · exact State.rd_wr_clear _ _ _ _ hold

theorem State.feedGone_feedOk (k : Nat) : (s.feedGone f).feedOk k = s.feedOk k := by
  rw [State.feedOk_eq, State.feedOk_eq, State.on, State.feedGone_rd _ _ (feedFld_clearOf (by decide) (by decide))
    (feedFld_clearOf (by decide) (by decide)) (feedFld_clearOf (by decide) (by decide)) (by rw [feedFld_off]; decide), ← State.on]

theorem State.feedGone_switched (hf : f < 2) (hin : s.feedUse = f) (hok : s.feedOk (1 - f) = true) :
    (s.feedGone f).feedUse = 1 - f ∧ (s.feedGone f).rd F.PWR_FEED_STAT_HOLDUP 0 = 0 := by
  rw [State.feedGone, if_neg (by simp [hin]), if_pos hok]
  exact ⟨State.useFeed_feedUse _ _ (by omega), State.useFeed_holdup _ _⟩

theorem State.feedGone_heldUp (hin : s.feedUse = f) (hok : s.feedOk (1 - f) = false) :
    (s.feedGone f).rd F.PWR_FEED_STAT_HOLDUP 0 = 1 := by
  rw [State.feedGone, if_neg (by simp [hin]), hok, if_neg Bool.false_ne_true]
  exact State.rd_wr_held _ 0 (by decide)

theorem feedUnhealthy_result (hf : f < 2) : ∃ u, feedUnhealthy f va.toNat vb.toNat s = u ∧ u.feedOk f = false ∧
    u.rd F.PWR_FEED_V_VA 0 = va.toNat ∧ u.rd F.PWR_FEED_V_VB 0 = vb.toNat ∧
    (s.feedOk f = true → s.feedUse = f → (s.feedOk (1 - f) = true → u.feedUse = 1 - f ∧ u.rd F.PWR_FEED_STAT_HOLDUP 0 = 0) ∧
      (s.feedOk (1 - f) = false → u.rd F.PWR_FEED_STAT_HOLDUP 0 = 1)) := by
  refine ⟨_, feedUnhealthy_eq s f va.toNat vb.toNat, ?_⟩
  rw [State.setFeedV_feedOk]
  cases hok : s.feedOk f with
  | false => exact ⟨(State.setFeedV_feedOk _ _ _ _).trans hok, s.setFeedV_va va vb, s.setFeedV_vb va vb, nofun⟩
  | true =>
    rw [Bool.not_true, if_neg Bool.false_ne_true]
    have hother : ((s.setFeedV va.toNat vb.toNat).feedFails f).feedOk (1 - f) = s.feedOk (1 - f) :=
      (State.feedFails_other _ _ hf).trans (State.setFeedV_feedOk _ _ _ _)
    have huse : ((s.setFeedV va.toNat vb.toNat).feedFails f).feedUse = s.feedUse :=
      (State.feedFails_rd _ _ (feedFld_clears (by decide) (by decide)) (by decide)).trans
        (State.setFeedV_rd _ (by decide) (by decide) _ _)
    refine ⟨?_, ?_, ?_, fun _ hin => ⟨fun hok' => State.feedGone_switched _ _ hf (huse.trans hin) (hother.trans hok'),
      fun hok' => State.feedGone_heldUp _ _ (huse.trans hin) (hother.trans hok')⟩⟩
    · rw [State.feedGone_feedOk, State.feedFails_self]
    · rw [State.feedGone_rd _ _ (by decide) (by decide) (by decide) (by decide),
        State.feedFails_rd _ _ (feedFld_clears (by decide) (by decide)) (by decide), State.setFeedV_va]
    · rw [State.feedGone_rd _ _ (by decide) (by decide) (by decide) (by decide),
        State.feedFails_rd _ _ (feedFld_clears (by decide) (by decide)) (by decide), State.setFeedV_vb]

end

/-! ### A feed healthy again (R373 to R375) -/

section
variable (s : State) (f : Nat)

/-- A feed shown healthy; the main from now on. -/
def State.feedBack (s : State) (f : Nat) : State :=
  if f = (s.wr (feedFld f) 0 1).feedMain
  then { s.wr (feedFld f) 0 1 with pwr := { s.pwr with mainSince := s.pegs.cyc } } else s.wr (feedFld f) 0 1

/-- What a feed that is back is used for. -/
def State.feedThere (s : State) (f : Nat) : State :=
  if s.pwr.off then s
  else if s.on F.PWR_FEED_STAT_HOLDUP 0 then (if s.pwr.gasped then s else s.useFeed f)
  else if !s.feedOk s.feedUse then s.useFeed f
  else s

theorem feedHealthy_eq (va vb : Nat) : feedHealthy f va vb s =
    if (s.setFeedV va vb).feedOk f then s.setFeedV va vb else ((s.setFeedV va vb).feedBack f).feedThere f := rfl

theorem State.feedBack_rd (g : Fld) : (s.feedBack f).rd g 0 = (s.wr (feedFld f) 0 1).rd g 0 := by
  unfold State.feedBack
  split <;> rfl

theorem State.feedBack_off : (s.feedBack f).pwr.off = s.pwr.off ∧ (s.feedBack f).pwr.gasped = s.pwr.gasped := by
  unfold State.feedBack
  split <;> exact ⟨rfl, rfl⟩

theorem State.feedBack_self : (s.feedBack f).feedOk f = true := by
  rw [State.feedOk_eq, State.on, State.feedBack_rd, State.rd_wr_held _ 0 (feedFld_holds f).2]
  rfl

theorem State.feedThere_feedOk (k : Nat) : (s.feedThere f).feedOk k = s.feedOk k := by
  unfold State.feedThere
  repeat' split
  · rfl
  · rfl
  · exact State.useFeed_feedOk _ _ _
  · exact State.useFeed_feedOk _ _ _
  · rfl

theorem State.feedThere_takesOver (hoff : s.pwr.off = false) (hhold : s.on F.PWR_FEED_STAT_HOLDUP 0 = true) (hgasp : s.pwr.gasped = false) :
    s.feedThere f = s.useFeed f := by
  rw [State.feedThere, if_neg (by simp [hoff]), if_pos hhold, if_neg (by simp [hgasp])]

theorem feedHealthy_feedOk (va vb : Nat) : (feedHealthy f va vb s).feedOk f = true := by
  rw [feedHealthy_eq]
  split
  · assumption
  · rw [State.feedThere_feedOk, State.feedBack_self]

theorem feedHealthy_takesOver (va vb : Nat) (hf : f < 2) (hdown : s.feedOk f = false) (hoff : s.pwr.off = false)
    (hhold : s.on F.PWR_FEED_STAT_HOLDUP 0 = true) (hgasp : s.pwr.gasped = false) :
    (feedHealthy f va vb s).feedUse = f ∧ (feedHealthy f va vb s).rd F.PWR_FEED_STAT_HOLDUP 0 = 0 := by
  have hback := State.feedBack_off (s.setFeedV va vb) f
  have hhold' : ((s.setFeedV va vb).feedBack f).on F.PWR_FEED_STAT_HOLDUP 0 = true := by
    rw [State.on, State.feedBack_rd, State.rd_wr_clear _ _ _ _ (feedFld_clears (by decide) (by decide)),
      State.setFeedV_rd _ (by decide) (by decide), ← State.on, hhold]
  rw [feedHealthy_eq, State.setFeedV_feedOk, hdown, if_neg Bool.false_ne_true,
    State.feedThere_takesOver _ _ (hback.1.trans hoff) hhold' (hback.2.trans hgasp)]
  exact ⟨State.useFeed_feedUse _ _ hf, State.useFeed_holdup _ _⟩

/-- The main takes back. -/
theorem feedReturn_ignored (h : s.feedUse = s.feedMain ∨ s.feedOk s.feedMain = false ∨ s.on F.PWR_FEED_STAT_HOLDUP 0 = true ∨
    s.mainOkS < max 1 (s.rd F.PWR_FEED_CFG 0)) : feedReturn s = s := by
  unfold feedReturn
  refine if_neg ?_
  simp only [Bool.and_eq_true, bne_iff_ne, Bool.not_eq_true', decide_eq_true_eq]
  rintro ⟨⟨⟨huse, hok⟩, hhold⟩, hlong⟩
  rcases h with h | h | h | h
  · exact huse h
  · simp [h] at hok
  · simp [h] at hhold
  · omega

theorem feedReturn_back (huse : s.feedUse ≠ s.feedMain) (hok : s.feedOk s.feedMain = true) (hhold : s.on F.PWR_FEED_STAT_HOLDUP 0 = false)
    (hlong : max 1 (s.rd F.PWR_FEED_CFG 0) ≤ s.mainOkS) : feedReturn s = s.useFeed s.feedMain := by
  unfold feedReturn
  exact if_pos (by simp only [Bool.and_eq_true, bne_iff_ne, Bool.not_eq_true', decide_eq_true_eq]; exact ⟨⟨⟨huse, hok⟩, hhold⟩, hlong⟩)

end

/-! ### Last gasp, hold-up and the thermal trip (R375, R376, R441) -/

section
variable (s : State)

theorem State.gasp_gasped : s.gasp.pwr.gasped = true := by
  unfold State.gasp
  rw [State.driveAlive_pwr]

theorem State.gasp_lastGasp : s.gasp.flt.lastGasp.isSome = true := by
  unfold State.gasp
  rw [State.driveAlive_flt]
  rfl

theorem State.fout_of_gasped (h : s.pwr.gasped = true) : s.fout = true := by
  unfold State.fout State.foutCause
  repeat' split
  all_goals simp_all

theorem lastGasp_ignored (h : s.on F.PWR_FEED_STAT_HOLDUP 0 = false ∨ s.pwr.gasped = true) : lastGasp s = s := by
  unfold lastGasp
  exact if_neg (by rcases h with h | h <;> simp [h])

theorem lastGasp_made (hhold : s.on F.PWR_FEED_STAT_HOLDUP 0 = true) (hgasp : s.pwr.gasped = false) : lastGasp s = s.gasp := by
  unfold lastGasp
  exact if_pos (by simp [hhold, hgasp])

theorem State.powerLost_off : s.powerLost.pwr.off = true := rfl
theorem State.powerLost_store : s.powerLost.store = State.reset.store := rfl

theorem State.isHeld_of_off (h : s.pwr.off = true) : s.isHeld = true := by simp [State.isHeld, h]
theorem State.isHeld_of_tripped (h : s.pwr.tripped = true) : s.isHeld = true := by simp [State.isHeld, h]

/-- The feed that is not the main one is the only other. -/
theorem State.feedOk_of_any (h : s.feedOk 0 = true ∨ s.feedOk 1 = true) (hmain : s.feedOk s.feedMain = false) : s.feedOk (1 - s.feedMain) = true := by
  have hlt := s.feedMain_lt
  generalize s.feedMain = m at hlt hmain ⊢
  match m, hlt with
  | 0, _ => exact h.resolve_left (by simp [hmain])
  | 1, _ => exact h.resolve_right (by simp [hmain])

/-- The feed that the engine starts from. -/
def State.startsFrom (s : State) : Nat := if !s.feedOk s.feedMain && s.feedOk (1 - s.feedMain) then 1 - s.feedMain else s.feedMain

theorem State.startFeed_eq : s.startFeed = s.wr F.PWR_FEED_STAT_USE 0 s.startsFrom := rfl

theorem State.startsFrom_lt : s.startsFrom < 2 := by
  have hlt := s.feedMain_lt
  unfold State.startsFrom
  split <;> omega

theorem State.startsFrom_feedOk (h : s.feedOk 0 = true ∨ s.feedOk 1 = true) : s.feedOk s.startsFrom = true := by
  unfold State.startsFrom
  cases hmain : s.feedOk s.feedMain with
  | true => exact hmain
  | false =>
    have hother := s.feedOk_of_any h hmain
    rw [hother]
    exact hother

theorem State.startFeed_feedOk (h : s.feedOk 0 = true ∨ s.feedOk 1 = true) : s.startFeed.feedOk s.startFeed.feedUse = true := by
  have huse : s.startFeed.feedUse = s.startsFrom :=
    (State.rd_wr_same _ F.PWR_FEED_STAT_USE 0 _ ⟨by decide, by decide⟩).trans (Nat.mod_eq_of_lt s.startsFrom_lt)
  rw [huse, State.startFeed_eq, State.feedOk_eq, State.on_wr_clear _ _ _ _ (feedFld_clearOf (by decide) (by decide)), ← State.feedOk_eq]
  exact s.startsFrom_feedOk h

theorem powerOnRelease_ignored (h : s.pwr.off = false ∨ (s.feedOk 0 = false ∧ s.feedOk 1 = false)) : powerOnRelease s = s := by
  unfold powerOnRelease
  refine if_neg ?_
  rcases h with h | ⟨ha, hb⟩
  · simp [h]
  · simp [ha, hb]

theorem powerOnRelease_starts (hoff : s.pwr.off = true) (h : s.feedOk 0 = true ∨ s.feedOk 1 = true) :
    powerOnRelease s = ({ s with pwr := { s.pwr with off := false } } : State).startFeed := by
  unfold powerOnRelease
  exact if_pos (by rcases h with h | h <;> simp [hoff, h])

theorem thermalTrip_ignored (h : s.pwr.off = true ∨ s.pwr.tripped = true) : thermalTrip s = s := by
  unfold thermalTrip
  exact if_pos (by rcases h with h | h <;> simp [h])

/-- The engine tripped, with the mark of the record made before. -/
def State.tripped (s : State) : State := { s with pwr := { s.pwr with tripped := true, gasped := true } }

theorem thermalTrip_trips (hoff : s.pwr.off = false) (htrip : s.pwr.tripped = false) : thermalTrip s = (s.gasp.afterReset false).tripped := by
  unfold thermalTrip
  exact if_neg (by simp [hoff, htrip])

theorem State.tripped_phase : s.tripped.phase = s.phase := rfl
theorem State.tripped_flt : s.tripped.flt = s.flt := rfl

theorem State.gasp_afterReset_lastGasp : (s.gasp.afterReset false).tripped.flt.lastGasp.isSome = true := by
  rw [State.tripped_flt, State.afterReset_flt]
  exact s.gasp_lastGasp

theorem thermalRelease_ignored (h : s.pwr.tripped = false) : thermalRelease s = s := by
  unfold thermalRelease
  exact if_neg (by simp [h])

theorem thermalRelease_starts (h : s.pwr.tripped = true) :
    thermalRelease s = ({ s with pwr := { s.pwr with tripped := false, gasped := false } } : State).startFeed := by
  unfold thermalRelease
  exact if_pos h

end

/-- Settles O57: a feed by the one in use and the other, the last gasp once, and what ends each hold. -/
theorem feeds : Obligations.Feeds := by
  unfold Obligations.Feeds
  intro s f va vb
  refine ⟨?unhealthy, ?healthy,
    fun h => ⟨fun hnot => ?keepsFeed, fun huse hok hhold hlong => ?back, fun hnot => ?noGasp, fun hhold hgasp => ?gasp⟩,
    fun hnot => ?notSpent, fun hhold => ?spent, fun hnot => ?staysOff, fun hoff hok => ?starts, fun hnot => ?noTrip,
    fun hoff htrip => ?trips, fun hnot => ?notTripped, fun htrip => ?released⟩
  case unhealthy =>
    obtain ⟨u, hu, hresult⟩ := feedUnhealthy_result s va vb f f.isLt
    exact ⟨u, hu ▸ rfl, hresult⟩
  case healthy =>
    have hfin : Finishes (.feedHealthy f va vb) s (feedHealthy f va.toNat vb.toNat s) := rfl
    exact ⟨_, hfin, feedHealthy_feedOk s f _ _,
      fun hdown hoff hhold hgasp => feedHealthy_takesOver s f _ _ f.isLt hdown hoff hhold hgasp⟩
  case keepsFeed =>
    have hfin : Finishes .feedReturn s (feedReturn s) := done_runs h
    rwa [feedReturn_ignored s hnot] at hfin
  case back =>
    have hfin : Finishes .feedReturn s (feedReturn s) := done_runs h
    rw [feedReturn_back s huse hok hhold hlong] at hfin
    exact ⟨_, hfin, State.useFeed_feedUse _ _ s.feedMain_lt⟩
  case noGasp =>
    have hfin : Finishes .lastGasp s (lastGasp s) := done_runs h
    rwa [lastGasp_ignored s hnot] at hfin
  case gasp =>
    have hfin : Finishes .lastGasp s (lastGasp s) := done_runs h
    rw [lastGasp_made s hhold hgasp] at hfin
    exact ⟨_, hfin, s.gasp_gasped, s.gasp_lastGasp, State.fout_of_gasped _ s.gasp_gasped⟩
  case notSpent =>
    have hfin : Finishes .holdupShutdown s (holdupShutdown s) := rfl
    rwa [holdupShutdown, hnot, if_neg Bool.false_ne_true] at hfin
  case spent =>
    have hfin : Finishes .holdupShutdown s (holdupShutdown s) := rfl
    rw [holdupShutdown, if_pos hhold] at hfin
    exact ⟨_, hfin, s.powerLost_off, State.isHeld_of_off _ s.powerLost_off, s.powerLost_store⟩
  case staysOff =>
    have hfin : Finishes .powerOnRelease s (powerOnRelease s) := rfl
    rwa [powerOnRelease_ignored s hnot] at hfin
  case starts =>
    have hfin : Finishes .powerOnRelease s (powerOnRelease s) := rfl
    rw [powerOnRelease_starts s hoff hok] at hfin
    exact ⟨_, hfin, rfl, State.startFeed_feedOk _ hok⟩
  case noTrip =>
    have hfin : Finishes .thermalTrip s (thermalTrip s) := rfl
    rwa [thermalTrip_ignored s hnot] at hfin
  case trips =>
    have hfin : Finishes .thermalTrip s (thermalTrip s) := rfl
    rw [thermalTrip_trips s hoff htrip] at hfin
    exact ⟨_, hfin, rfl, State.isHeld_of_tripped _ rfl, s.gasp_afterReset_lastGasp, (State.tripped_phase _).trans (State.afterReset_phase _ _)⟩
  case notTripped =>
    have hfin : Finishes .thermalRelease s (thermalRelease s) := rfl
    rwa [thermalRelease_ignored s hnot] at hfin
  case released =>
    have hfin : Finishes .thermalRelease s (thermalRelease s) := rfl
    rw [thermalRelease_starts s htrip] at hfin
    exact ⟨_, hfin, rfl, rfl⟩

end Sys2Proof.Machine
end

section
/-!
PROOF. An octant's power: requests, the ends of its transitions, and wakes (R380 to R382, R386, R389). Settles O58.
-/

namespace Sys2Proof.Machine

section
variable (s : State) (o : Nat)

theorem State.octPwr_setOctPwr (x : OctPwr) : (s.setOctPwr o x).octPwr o = x := tget_tput_same _ _ _ _

/-! ### Requests (R381, R382) -/

theorem State.acctTarget_pwr (target k : Nat) : (s.acctTarget target k).pwr = s.pwr := by
  unfold State.acctTarget
  split <;> rfl

theorem State.pwrRequest_reserved {target : Nat} (req : Nat) (h : 7 < target) : s.pwrRequest o target req = s := if_pos h

/-- What a request meets while a transition of its octant runs. -/
theorem State.pwrRequest_during {target : Nat} (req : Nat) (hle : target ≤ 7) (hstep : (s.octPwr o).step ≠ .idle)
    (htest : (s.octPwr o).test = false) :
    s.pwrRequest o target req =
      if (s.octPwr o).target = target then (s.acctTarget target 2).result o rsMerged else s.pendReq o target req := by
  unfold State.pwrRequest
  dsimp only
  rw [if_neg (show ¬tgRun < target from Nat.not_lt.mpr hle), if_pos (by simpa using hstep), htest, if_neg Bool.false_ne_true]

/-- What the request that waits gives way to (R382). -/
def State.replacePend (s : State) (o : Nat) : State :=
  match (s.octPwr o).pend with
  | none => s
  | some p => (s.acctTarget p.1 1).result o rsReplaced

theorem State.pendReq_eq (target req : Nat) :
    s.pendReq o target req = ((s.replacePend o).setOctPwr o { s.octPwr o with pend := some (target, req) }).showPend o := rfl

theorem State.showPend_pend {p : Nat × Nat} (h : (s.octPwr o).pend = some p) (hlt : p.1 < 16) :
    ((s.showPend o).octPwr o).pend = some p ∧ (s.showPend o).rd F.OCT_PWR_STAT_PEND o = p.1 ∧ (s.showPend o).rd F.OCT_PWR_STAT_PEND_V o = 1 := by
  unfold State.showPend
  rw [h]
  refine ⟨h, (State.rd_wr_same _ F.OCT_PWR_STAT_PEND o p.1 ⟨by decide, by decide⟩).trans (Nat.mod_eq_of_lt hlt), ?_⟩
  rw [State.rd_wr_clear _ _ _ _ (by decide)]
  exact State.rd_wr_held _ _ (f := F.OCT_PWR_STAT_PEND_V) (v := 1) (by decide)

theorem State.asleep_of_level (h : s.octState o ≤ 3) : s.asleep o = false := by
  simp only [State.asleep, stS1, stS2, stS3, Bool.or_eq_false_iff, beq_eq_false_iff_ne]
  omega

/-- A request for a level with none in progress. -/
theorem State.pwrRequest_level {target : Nat} (req : Nat) (hle : target ≤ 3) (hstep : (s.octPwr o).step = .idle) (hstate : s.octState o ≤ 3)
    (hqueued : (s.octPwr o).queued = none) :
    s.pwrRequest o target req = if s.octState o = target then s.wr F.OCT_PWR_STAT_RESULT o rsDone
      else s.setOctPwr o { s.octPwr o with queued := some (target, req) } := by
  have hrun : target ≠ tgRun := by
    unfold tgRun
    omega
  unfold State.pwrRequest
  rw [if_neg (by unfold tgRun; omega), if_neg (by simp [hstep]), s.asleep_of_level o hstate, Bool.false_and, if_neg Bool.false_ne_true,
    Bool.false_and, if_neg Bool.false_ne_true, State.targetHolds, if_neg hrun, if_pos hle, State.queueTarget, hqueued, Option.isNone_none,
    Bool.and_true]
  simp only [beq_iff_eq]
  rfl

/-! ### The ends of transitions (R380, R386) -/

theorem State.endStep_octPwr (stat res : Nat) : (s.endStep o stat res).octPwr o =
    { s.octPwr o with step := .idle, target := 0, req := 0, test := false, wake := none, ticks := 0 } := s.octPwr_setOctPwr o _

theorem State.endStep_step (stat res : Nat) : ((s.endStep o stat res).octPwr o).step = .idle := by
  rw [State.endStep_octPwr]

theorem State.endStep_level (stat res : Nat) : ((s.endStep o stat res).octPwr o).level = (s.octPwr o).level := by
  rw [State.endStep_octPwr]

theorem State.endStep_state (stat res : Nat) : (s.endStep o stat res).rd F.OCT_PWR_STAT_STATE o = stat % 16 := by
  unfold State.endStep State.result
  rw [State.rd_wr_clear _ _ _ _ (by decide), State.rd_wr_clear _ _ _ _ (by decide)]
  exact State.rd_wr_same _ F.OCT_PWR_STAT_STATE o stat ⟨by decide, by decide⟩

theorem State.endStep_result (stat : Nat) {res : Nat} (h : F.OCT_PWR_STAT_RESULT.holds res = true) :
    (s.endStep o stat res).rd F.OCT_PWR_STAT_RESULT o = res := State.rd_wr_held _ o h

theorem State.wr_octPwr (f : Fld) (i v : Nat) : (s.wr f i v).octPwr o = s.octPwr o := rfl

theorem State.acct_octPwr (st k : Nat) : (s.acct st k).octPwr o = s.octPwr o := rfl

theorem voltageSettled_eq : voltageSettled o s = if (s.octPwr o).step = .raising ∨ (s.octPwr o).step = .exiting
    then s.setOctPwr o { s.octPwr o with step := .settled } else s := by
  unfold voltageSettled
  simp only [Bool.or_eq_true, decide_eq_true_eq]

theorem voltageRampDownDone_ignored (h : (s.octPwr o).step ≠ .lowering) : voltageRampDownDone o s = s := if_neg h

theorem voltageRampDownDone_done (h : (s.octPwr o).step = .lowering) :
    voltageRampDownDone o s = (s.endStep o (s.octPwr o).level rsDone).acct acLevel 0 := if_pos h

theorem levelChangeAbort_ignored (h : (s.octPwr o).ticks < 12 ∨ (s.octPwr o).step ∉ [PStep.raising, .lowering]) : levelChangeAbort o s = s := by
  unfold levelChangeAbort
  refine if_neg ?_
  simp only [Bool.and_eq_true, Bool.or_eq_true, decide_eq_true_eq]
  rintro ⟨hstep, hlate⟩
  rcases h with h | h
  · omega
  · exact h (by simpa using hstep)

/-- The level before a change. -/
def OctPwr.oldLevel (x : OctPwr) : Nat := if x.step = .lowering then x.prior else x.level

theorem levelChangeAbort_aborts (hlate : 12 ≤ (s.octPwr o).ticks) (h : (s.octPwr o).step ∈ [PStep.raising, .lowering]) :
    levelChangeAbort o s = (((s.setOctPwr o { s.octPwr o with level := (s.octPwr o).oldLevel }).endStep o (s.octPwr o).oldLevel
      rsAborted).wr F.OCT_PWR_STAT_REFUSER o rfTimer).acct acLevel (8 + rfTimer) := by
  unfold levelChangeAbort
  exact if_pos (by simpa [hlate] using h)

theorem saveComplete_ignored (h : (s.octPwr o).step ≠ .save) : saveComplete o s = s := by
  unfold saveComplete
  exact if_pos (by simpa using h)

theorem saveComplete_saved (hstep : (s.octPwr o).step = .save) (h : (s.octPwr o).wake = none ∨ (s.octPwr o).test = true) :
    saveComplete o s = s.setOctPwr o { s.octPwr o with step := .saved } := by
  unfold saveComplete
  dsimp only
  rw [if_neg (by simp [hstep]), if_neg (by rcases h with h | h <;> simp [h])]

theorem saveComplete_reversed (hstep : (s.octPwr o).step = .save) (hwake : (s.octPwr o).wake ≠ none) (htest : (s.octPwr o).test = false) :
    saveComplete o s = (s.setOctPwr o { s.octPwr o with step := .reversing }).freeHeld o := by
  unfold saveComplete
  dsimp only
  rw [if_neg (by simp [hstep]), if_pos (by simp [htest, Option.isSome_iff_ne_none.mpr hwake])]

/-! ### Wakes (R389, R395) -/

/-- What a wake of a dozing channel needs. -/
def State.dozerHears (s : State) (o src c : Nat) : Prop :=
  octOf c = o ∧ s.on F.CH_PWR_STAT_DOZING c = true ∧
    s.on (if src = wkSignal then F.CH_PWR_CTL_WAKE_SIG else F.CH_PWR_CTL_WAKE_PAT) c = true

theorem wakeEvent_octant {src : Nat} (c : Nat) (hsig : src ≠ wkSignal) (hpat : src ≠ wkPattern) : wakeEvent o src c s = s.wakeOct o src :=
  if_neg (by simp [hsig, hpat])

variable {src : Nat} (hsrc : src = wkSignal ∨ src = wkPattern) (c : Nat)
include hsrc

theorem wakeEvent_unheard (h : ¬s.dozerHears o src c) : wakeEvent o src c s = s := by
  unfold wakeEvent
  rw [if_pos (by simpa using hsrc)]
  refine if_neg (fun hcond => h ?_)
  simp only [Bool.and_eq_true, decide_eq_true_eq] at hcond
  exact ⟨hcond.1.1, hcond.1.2, hcond.2⟩

theorem wakeEvent_heard (h : s.dozerHears o src c) : wakeEvent o src c s =
    if s.octRuns o then s.wakeDozer c else if s.wakeEnabled o src then (s.wakeOct o src).wakeDozer c else s := by
  obtain ⟨hoct, hdozing, henabled⟩ := h
  unfold wakeEvent
  rw [if_pos (by simpa using hsrc)]
  exact if_pos (by rw [henabled, hdozing, hoct]; simp)

end

section
variable (s : State) (o src : Nat)

theorem State.raise_pwr (cls idx : Nat) : (s.raise cls idx).pwr = s.pwr :=
  State.raise_keeps State.pwr (fun _ _ _ _ _ _ => rfl) (fun _ _ => rfl) s cls idx

/-- A channel whose doze has ended, its transmitter to follow. -/
def State.wakes (s : State) (c : Nat) : State := { s with pwr := { s.pwr with waking := c :: s.pwr.waking.filter (· != c) } }

theorem State.wakeChannel_dozing {c : Nat} (h : s.on F.CH_PWR_STAT_DOZING c = true) : s.wakeChannel c =
    (((s.wakes c).wr F.CH_PWR_STAT_DOZING c 0).wr F.CH_PWR_STAT_WOKE c 1).raise 8 0 := if_neg (by simp [h])

theorem State.wakeDozer_running {c : Nat} (h : s.on F.CH_PWR_STAT_DOZING c = true) (hruns : s.octRuns (octOf c) = true) :
    s.wakeDozer c = s.wakeChannel c := by
  unfold State.wakeDozer
  rw [if_neg (by simp [h]), if_pos hruns]

theorem State.wakeChannel_result {c : Nat} (h : s.on F.CH_PWR_STAT_DOZING c = true) : (s.wakeChannel c).on F.CH_PWR_STAT_DOZING c = false ∧
    (s.wakeChannel c).on F.CH_PWR_STAT_WOKE c = true ∧ c ∈ (s.wakeChannel c).pwr.waking := by
  rw [s.wakeChannel_dozing h, State.raise_pwr, State.on, State.on, State.raise_rd _ _ _ _ (by decide), State.raise_rd _ _ _ _ (by decide),
    State.rd_wr_clear _ _ _ _ (f := F.CH_PWR_STAT_WOKE) (by decide), State.rd_wr_held _ c (f := F.CH_PWR_STAT_DOZING) (by decide),
    State.rd_wr_held _ c (f := F.CH_PWR_STAT_WOKE) (by decide)]
  exact ⟨rfl, rfl, List.mem_cons_self⟩

theorem State.wakeOct_latched (henabled : s.wakeEnabled o src = true) (hasleep : s.asleep o = true) (hwake : (s.octPwr o).wake = none) :
    s.wakeOct o src = (s.setOctPwr o { s.octPwr o with wake := some src }).wr F.OCT_PWR_STAT_WAKE_SRC o src :=
  if_pos (by simp [henabled, hasleep, hwake])

theorem State.wakeOct_running (h : s.octRuns o = true) : s.wakeOct o src = s := by
  have hstate : s.octState o ≤ 3 ∨ s.octState o = stLevel := by simpa [State.octRuns] using h
  refine if_neg ?_
  have hasleep : s.asleep o = false := by
    simp only [State.asleep, stS1, stS2, stS3, Bool.or_eq_false_iff, beq_eq_false_iff_ne]
    unfold stLevel at hstate
    omega
  have hentering : (s.octState o == stEntering) = false := by
    rw [beq_eq_false_iff_ne]
    unfold stLevel at hstate
    unfold stEntering
    omega
  simp [hasleep, hentering]

end

/-- Settles O58: a request by the octant's state and transition, each transition's end by its step, a wake by what sleeps. -/
theorem octantPower : Obligations.OctantPower := by
  unfold Obligations.OctantPower
  intro s o
  have hrequest {req : Fin 19} {target : Fin 16} (htakes : s.Takes req) (hsel : s.rd F.OCTSEL req = o) :
      Finishes (.octPwrReq req target) s (s.pwrRequest o target req) := by
    have hfin : Finishes (.octPwrReq req target) s (octPwrReq req target s) := doneWrite_takes htakes
    rwa [octPwrReq, hsel] at hfin
  refine ⟨fun req target htakes hsel => ⟨fun hreserved => ?reserved, hrequest htakes hsel, fun hle hstep htest =>
      ⟨fun hsame => ?merged, fun hother => ?replaced⟩, fun hle hstep hstate hqueued => ⟨fun hsame => ?already, fun hother => ?queued⟩⟩,
    fun h => ⟨?settled, fun hnot => ?notLowering, fun hstep => ?rampDown, fun hnot => ?noAbort, fun hlate hstep => ?abort,
      fun hnot => ?notSave, fun hstep hwake => ?saved, fun hstep htest => ?savedTest, fun hstep hwake htest => ?reversed,
      fun src c hsig hpat => ?octantWake, fun src c e hsrc he => ?dozer, fun c => ⟨?gpio, ?request⟩, fun c hoct hdozing hsig hruns => ?signal,
      done_runs h, fun src henabled hasleep hwake hlt => ?latched, fun src hruns => s.wakeOct_running o src hruns⟩⟩
  case reserved =>
    have hfin := hrequest (target := target) htakes hsel
    rwa [State.pwrRequest_reserved s o req hreserved] at hfin
  case merged =>
    have hfin := hrequest (target := target) htakes hsel
    rw [State.pwrRequest_during s o req hle hstep htest, if_pos hsame] at hfin
    exact ⟨_, hfin, State.rd_wr_held _ _ (f := F.OCT_PWR_STAT_RESULT) (by decide), s.acctTarget_pwr _ _⟩
  case replaced =>
    have hfin := hrequest (target := target) htakes hsel
    rw [State.pwrRequest_during s o req hle hstep htest, if_neg hother, State.pendReq_eq] at hfin
    exact ⟨_, hfin, State.showPend_pend _ o (congrArg OctPwr.pend (State.octPwr_setOctPwr _ _ _)) target.isLt⟩
  case already =>
    have hfin := hrequest (target := target) htakes hsel
    rwa [State.pwrRequest_level s o req hle hstep hstate hqueued, if_pos hsame] at hfin
  case queued =>
    have hfin := hrequest (target := target) htakes hsel
    rw [State.pwrRequest_level s o req hle hstep hstate hqueued, if_neg hother] at hfin
    exact ⟨_, hfin, congrArg OctPwr.queued (State.octPwr_setOctPwr _ _ _), rfl⟩
  case settled =>
    have hfin : Finishes (.voltageSettled o) s (voltageSettled o s) := done_runs h
    rwa [voltageSettled_eq] at hfin
  case notLowering =>
    have hfin : Finishes (.voltageRampDownDone o) s (voltageRampDownDone o s) := done_runs h
    rwa [voltageRampDownDone_ignored s o hnot] at hfin
  case rampDown =>
    have hfin : Finishes (.voltageRampDownDone o) s (voltageRampDownDone o s) := done_runs h
    rw [voltageRampDownDone_done s o hstep] at hfin
    refine ⟨_, hfin, ?_, ?_, ?_⟩
    · rw [State.acct_octPwr, State.endStep_step]
    · rw [State.acct, State.rd_inc_clear _ _ _ (by decide), State.endStep_state]
    · rw [State.acct, State.rd_inc_clear _ _ _ (by decide), State.endStep_result _ _ _ (by decide)]
  case noAbort =>
    have hfin : Finishes (.levelChangeAbort o) s (levelChangeAbort o s) := done_runs h
    rwa [levelChangeAbort_ignored s o hnot] at hfin
  case abort =>
    have hfin : Finishes (.levelChangeAbort o) s (levelChangeAbort o s) := done_runs h
    rw [levelChangeAbort_aborts s o hlate hstep] at hfin
    refine ⟨_, hfin, ?_, ?_, ?_, ?_⟩
    · rw [State.acct_octPwr, State.wr_octPwr, State.endStep_step]
    · rw [State.acct, State.rd_inc_clear _ _ _ (by decide), State.rd_wr_clear _ _ _ _ (by decide), State.endStep_result _ _ _ (by decide)]
    · rw [State.acct, State.rd_inc_clear _ _ _ (by decide)]
      exact State.rd_wr_held _ _ (by decide)
    · rw [State.acct_octPwr, State.wr_octPwr, State.endStep_level, State.octPwr_setOctPwr]
      rfl
  case notSave =>
    have hfin : Finishes (.saveComplete o) s (saveComplete o s) := done_runs h
    rwa [saveComplete_ignored s o hnot] at hfin
  case saved =>
    have hfin : Finishes (.saveComplete o) s (saveComplete o s) := done_runs h
    rwa [saveComplete_saved s o hstep (.inl hwake)] at hfin
  case savedTest =>
    have hfin : Finishes (.saveComplete o) s (saveComplete o s) := done_runs h
    rwa [saveComplete_saved s o hstep (.inr htest)] at hfin
  case reversed =>
    have hfin : Finishes (.saveComplete o) s (saveComplete o s) := done_runs h
    rwa [saveComplete_reversed s o hstep hwake htest] at hfin
  case octantWake =>
    have hfin : Finishes (.wakeEvent o src c) s (wakeEvent o src c s) := done_runs h
    rwa [wakeEvent_octant s o c hsig hpat] at hfin
  case dozer =>
    have hfin : Finishes (.wakeEvent o src c) s (wakeEvent o src c s) := done_runs h
    subst he
    refine ⟨fun hnot => ?_, fun hhears hruns => ?_, fun hhears hruns henabled => ?_, fun hhears hruns henabled => ?_⟩
    · rwa [wakeEvent_unheard s o hsrc c hnot] at hfin
    · rwa [wakeEvent_heard s o hsrc c hhears, if_pos hruns] at hfin
    · rwa [wakeEvent_heard s o hsrc c hhears, hruns, if_neg Bool.false_ne_true, if_pos henabled] at hfin
    · rwa [wakeEvent_heard s o hsrc c hhears, hruns, if_neg Bool.false_ne_true, henabled, if_neg Bool.false_ne_true] at hfin
  case gpio =>
    have hfin : Finishes (.wakeEvent o 4 c) s (wakeEvent o wkGpio c s) := done_runs h
    rwa [wakeEvent_octant s o c (by decide) (by decide)] at hfin
  case request =>
    have hfin : Finishes (.wakeEvent o 6 c) s (wakeEvent o wkRequest c s) := done_runs h
    rwa [wakeEvent_octant s o c (by decide) (by decide)] at hfin
  case signal =>
    have hfin : Finishes (.wakeEvent o 1 c) s (wakeEvent o wkSignal c s) := done_runs h
    rw [wakeEvent_heard s o (.inl rfl) c ⟨hoct, hdozing, hsig⟩, if_pos hruns, State.wakeDozer_running s hdozing (by rw [hoct]; exact hruns)] at hfin
    exact ⟨_, hfin, s.wakeChannel_result hdozing⟩
  case latched =>
    rw [State.wakeOct_latched s o src henabled hasleep hwake]
    exact ⟨(State.rd_wr_same _ F.OCT_PWR_STAT_WAKE_SRC o src ⟨by decide, by decide⟩).trans (Nat.mod_eq_of_lt hlt),
      congrArg OctPwr.wake (State.octPwr_setOctPwr s o _)⟩

end Sys2Proof.Machine
end

section
/-!
PROOF. Lasting faults, in-service tests and external inputs (R402 to R404, R414, R415, R418 to R421). Settles O60.
-/

namespace Sys2Proof.Machine

/-! ### Lasting faults (R402 to R404) -/

section
variable (s : State) (req src inst : Nat)

theorem State.watchOf_setWatch (w : Watch) : (s.setWatch src inst w).watchOf src inst = w := tget_tput_same _ _ _ _

/-- What the end of a lasting state leaves of what it watched: of a tracked row nothing. -/
def State.endedWatch (s : State) (src inst : Nat) : Watch :=
  if src = fsCorr then Watch.none else { s.watchOf src inst with lasting := false, act := 0 }

theorem State.lastingEnd_lasting (h : (s.watchOf src inst).lasting = true) : s.lastingEnd req src inst =
    (s.setWatch src inst (s.endedWatch src inst)).log 0x0C02 req (entryInst src inst) [src] := by
  unfold State.lastingEnd State.endedWatch
  dsimp only
  rw [if_neg (by simp [h])]
  split <;> rfl

theorem State.lastingEnd_ignored (h : (s.watchOf src inst).lasting = false) : s.lastingEnd req src inst = s := if_pos (by simp [h])

theorem State.endedWatch_lasting : (s.endedWatch src inst).lasting = false := by
  unfold State.endedWatch
  split <;> rfl

theorem State.lastingEnd_off : ((s.lastingEnd req src inst).watchOf src inst).lasting = false := by
  cases h : (s.watchOf src inst).lasting with
  | false => rw [s.lastingEnd_ignored req src inst h, h]
  | true =>
    rw [s.lastingEnd_lasting req src inst h]
    exact (congrArg Watch.lasting (State.watchOf_setWatch _ _ _ _)).trans (s.endedWatch_lasting src inst)

theorem State.lastingEnd_eff : (s.lastingEnd req src inst).eff = s.eff := by
  cases h : (s.watchOf src inst).lasting with
  | false => rw [s.lastingEnd_ignored req src inst h]
  | true =>
    rw [s.lastingEnd_lasting req src inst h]
    rfl

theorem lastingEnd_ignored (h : (s.watchOf src inst).ticks.any (s.within src) = true ∨ (s.watchOf src inst).lasting = false) :
    lastingEnd src inst s = s := by
  unfold lastingEnd
  rcases h with h | h
  · exact if_pos h
  · rw [s.lastingEnd_ignored _ src inst h, ite_self]

theorem lastingEnd_ends (h : (s.watchOf src inst).ticks.any (s.within src) = false) : lastingEnd src inst s = s.lastingEnd engineReq src inst :=
  if_neg (by simp [h])

theorem State.lastingEnd_logged (h : (s.watchOf src inst).lasting = true) :
    (s.lastingEnd req src inst).flt.cycle.length = s.flt.cycle.length + 1 := by
  rw [s.lastingEnd_lasting req src inst h]
  exact List.length_append

theorem State.clearInst_ticks : ((s.clearInst req src inst).watchOf src inst).ticks = [] := by
  unfold State.clearInst
  dsimp only
  split <;> rw [State.watchOf_setWatch]
  rfl

theorem State.clearInst_lasting : ((s.clearInst req src inst).watchOf src inst).lasting = false := by
  unfold State.clearInst
  dsimp only
  split <;> rw [State.watchOf_setWatch]
  · rfl
  · exact s.lastingEnd_off req src inst

theorem State.clearInst_eff : (s.clearInst req src inst).eff = s.eff := by
  have hended := s.lastingEnd_eff req src inst
  unfold State.clearInst
  dsimp only
  split <;> exact hended

end

/-! ### Tests (R414, R415) -/

section
variable (s : State)

theorem testFinished_none (pass : Bool) (addr : Nat) (h : s.flt.bist = none) : testFinished pass addr s = s := by
  unfold testFinished
  rw [h]

variable {b : Nat × Nat × Nat} (hb : s.flt.bist = some b)
include hb

theorem testFinished_notRunning (pass : Bool) (addr : Nat) (h : b.2.2 ≠ 2) : testFinished pass addr s = s := by
  unfold testFinished
  rw [hb]
  exact if_pos (by simpa using h)

theorem testFinished_octant (pass : Bool) (addr : Nat) (hruns : b.2.2 = 2) (hkind : b.1 ≤ 2) : testFinished pass addr s =
    (s.bistDone (if (s.octPwr b.2.1).wake.isSome then 3 else if pass then 1 else 2) (if pass then 0 else addr)).testExit b.2.1 := by
  unfold testFinished
  rw [hb]
  dsimp only
  rw [if_neg (by simp [hruns]), if_pos hkind]

theorem testFinished_other (pass : Bool) (addr : Nat) (hruns : b.2.2 = 2) (hkind : 2 < b.1) : testFinished pass addr s =
    if b.1 = 3 then (s.bistDone (if pass then 1 else 2) (if pass then 0 else addr)).useDevice b.2.1 useOut
    else s.bistDone (if pass then 1 else 2) (if pass then 0 else addr) := by
  unfold testFinished
  rw [hb]
  dsimp only
  rw [if_neg (by simp [hruns]), if_neg (Nat.not_le.mpr hkind)]

/-- The end of a test shown, with its entry. -/
theorem State.bistDone_result {res addr : Nat} (hres : res < 4) (haddr : addr < 2 ^ 32) : (s.bistDone res addr).flt.bist = none ∧
    (s.bistDone res addr).on F.FLT_BIST_STAT_BUSY 0 = false ∧ (s.bistDone res addr).rd F.FLT_BIST_STAT_RESULT 0 = res ∧
    (s.bistDone res addr).rd F.FLT_BIST_ERR 0 = addr := by
  unfold State.bistDone
  rw [hb]
  dsimp only
  rw [State.on, State.log_rd, State.log_rd, State.log_rd]
  refine ⟨rfl, ?_, ?_, (State.rd_wr_same _ F.FLT_BIST_ERR 0 addr ⟨by decide, by decide⟩).trans (Nat.mod_eq_of_lt haddr)⟩
  · rw [State.rd_wr_clear _ _ _ _ (by decide), State.rd_wr_clear _ _ _ _ (by decide), State.rd_wr_held _ _ (f := F.FLT_BIST_STAT_BUSY) (by decide)]
    rfl
  · rw [State.rd_wr_clear _ _ _ _ (by decide)]
    exact (State.rd_wr_same _ F.FLT_BIST_STAT_RESULT 0 res ⟨by decide, by decide⟩).trans (Nat.mod_eq_of_lt hres)

end

/-! ### What decides on a test (R414): nothing of it lies in FLT_BIST_CTL -/

theorem any_congr_of_mem {α : Type} {l : List α} {p q : α → Bool} (h : ∀ x ∈ l, p x = q x) : l.any p = l.any q := by
  rw [Bool.eq_iff_iff, List.any_eq_true, List.any_eq_true]
  exact exists_congr fun x => and_congr_right fun hx => by rw [h x hx]

theorem octChans_lt {o c : Nat} (ho : o < 8) (hc : c ∈ octChans o) : c < 64 := by
  simp only [octChans, List.mem_map, List.mem_range] at hc
  omega

section
variable (s : State) (f : Fld) (v : Nat) (hf : f.off = F.FLT_BIST_CTL.off)
include hf

theorem State.wrBist_rd {g : Fld} (i : Nat) (hg : g.off < 0xC0000) : (s.wr f 0 v).rd g i = s.rd g i := by
  have hoff : f.off = 0xC0300 := hf
  exact s.rd_wr_clear _ _ _ (Fld.clearOf_of_off (by omega) (by omega) (by omega))

theorem State.wrBist_on {g : Fld} (i : Nat) (hg : g.off < 0xC0000) : (s.wr f 0 v).on g i = s.on g i := by
  rw [State.on, State.wrBist_rd s f v hf i hg, ← State.on]

theorem State.wrBist_role (c : Nat) : (s.wr f 0 v).role c = s.role c := s.wrBist_rd f v hf c (by decide)

theorem State.wrBist_pairValid {c : Nat} (hc : c < 64) : (s.wr f 0 v).pairValid c = s.pairValid c := by
  unfold State.pairValid State.paired State.strap
  dsimp only
  rw [State.wrBist_rd s f v hf 0 (g := F.TWN_STAT_STRAP) (by decide), State.wrBist_role s f v hf,
    State.wrBist_on s f v hf 0 (show 0xB0100 + 4 * c < 0xC0000 by omega)]
  rfl

theorem State.wrBist_pairActive {c : Nat} (hc : c < 64) : (s.wr f 0 v).pairActive c = s.pairActive c := by
  rw [State.pairActive, State.wrBist_pairValid s f v hf hc, State.wrBist_on s f v hf 0 (show 0xB0100 + 4 * c < 0xC0000 by omega),
    ← State.pairActive]

theorem State.wrBist_busyFor (target : Nat) {c : Nat} (hc : c < 64) : (s.wr f 0 v).busyFor target c = s.busyFor target c := by
  unfold State.busyFor State.standbyMember
  rw [State.wrBist_role s f v hf, State.wrBist_pairValid s f v hf hc, State.wrBist_pairActive s f v hf hc,
    State.wrBist_on s f v hf c (g := F.CH_PWR_STAT_DOZING) (by decide)]

theorem State.wrBist_octState (o : Nat) : (s.wr f 0 v).octState o = s.octState o := s.wrBist_rd f v hf o (by decide)

theorem State.wrBist_refuser {o : Nat} (target req : Nat) (ho : o < 8) : (s.wr f 0 v).refuser o target req = s.refuser o target req := by
  have hactive : (octChans o).any (fun c => (s.wr f 0 v).pairValid c && (s.wr f 0 v).pairActive c) =
      (octChans o).any (fun c => s.pairValid c && s.pairActive c) :=
    any_congr_of_mem fun c hc => by rw [State.wrBist_pairValid s f v hf (octChans_lt ho hc), State.wrBist_pairActive s f v hf (octChans_lt ho hc)]
  have hbusy : (octChans o).any (fun c => (s.wr f 0 v).busyFor target c) = (octChans o).any (fun c => s.busyFor target c) :=
    any_congr_of_mem fun c hc => State.wrBist_busyFor s f v hf target (octChans_lt ho hc)
  have hframes : (octChans o).any (s.wr f 0 v).holdsFrame = (octChans o).any s.holdsFrame := rfl
  have hchans : (s.wr f 0 v).activeChans o = s.activeChans o := by
    unfold State.activeChans
    simp only [State.wrBist_role s f v hf]
  unfold State.refuser
  dsimp only
  rw [hactive, hbusy, hframes, hchans, State.wrBist_rd s f v hf 0 (g := F.PWR_VETO) (by decide)]

theorem State.wrBist_bistRefuser (req kind : Nat) {idx : Nat} (hidx : idx < 16) :
    (s.wr f 0 v).bistRefuser req kind idx = s.bistRefuser req kind idx := by
  have hoctant : 8 ≤ idx ∨ (s.wr f 0 v).refuser idx stS3 req = s.refuser idx stS3 req := by
    rcases Nat.lt_or_ge idx 8 with h | h
    · exact .inr (s.wrBist_refuser f v hf _ _ h)
    · exact .inl h
  have hasleep : (s.wr f 0 v).asleep idx = s.asleep idx := by
    unfold State.asleep
    rw [State.wrBist_octState s f v hf]
  have hmem : (s.wr f 0 v).rd F.MEM_MAPOUT_STATE 0 = s.rd F.MEM_MAPOUT_STATE 0 := s.wrBist_rd f v hf 0 (by decide)
  have honline : (s.wr f 0 v).coreOnline idx = s.coreOnline idx := s.wrBist_on f v hf 0 (show 0x90100 + 16 * idx < 0xC0000 by omega)
  have hrun : (s.wr f 0 v).on (F.TDS_CORE_STAT_RUN idx) 0 = s.on (F.TDS_CORE_STAT_RUN idx) 0 :=
    s.wrBist_on f v hf 0 (show 0x90100 + 16 * idx < 0xC0000 by omega)
  unfold State.bistRefuser
  rw [hasleep, hmem, honline, hrun]
  rcases hoctant with h | h
  · rw [if_pos h, if_pos h]
    rfl
  · rw [h]
    rfl

end

/-! ### A test asked for (R414) -/

section
variable (s : State) (req kind : Nat) {idx : Nat}

/-- A request for a test shown. -/
def State.bistShown (s : State) (kind idx : Nat) : State := (s.wr F.FLT_BIST_CTL_KIND 0 kind).wr F.FLT_BIST_CTL_IDX 0 idx

theorem State.bistShown_busy (idx : Nat) : (s.bistShown kind idx).on F.FLT_BIST_STAT_BUSY 0 = s.on F.FLT_BIST_STAT_BUSY 0 := by
  rw [State.bistShown, State.on_wr_clear _ _ _ _ (by decide), State.on_wr_clear _ _ _ _ (by decide)]

theorem State.bistShown_refuser (hidx : idx < 16) : (s.bistShown kind idx).bistRefuser req kind idx = s.bistRefuser req kind idx := by
  rw [State.bistShown, State.wrBist_bistRefuser _ F.FLT_BIST_CTL_IDX _ rfl _ _ hidx,
    State.wrBist_bistRefuser _ F.FLT_BIST_CTL_KIND _ rfl _ _ hidx]

theorem bistRequest_busy (idx : Nat) (h : s.on F.FLT_BIST_STAT_BUSY 0 = true) :
    bistRequest req kind idx s = (s.bistShown kind idx).wr F.FLT_BIST_STAT_REFUSED 0 1 :=
  if_pos ((s.bistShown_busy kind idx).trans h)

theorem bistRequest_refused {r : Nat} (hidx : idx < 16) (hbusy : s.on F.FLT_BIST_STAT_BUSY 0 = false) (hr : s.bistRefuser req kind idx = some r) :
    bistRequest req kind idx s = (s.bistShown kind idx).bistRefuse r := by
  have hr' := (s.bistShown_refuser req kind hidx).trans hr
  unfold bistRequest
  rw [← State.bistShown]
  dsimp only
  rw [s.bistShown_busy kind idx, hbusy, if_neg Bool.false_ne_true, hr']

theorem bistRequest_starts (hidx : idx < 16) (hbusy : s.on F.FLT_BIST_STAT_BUSY 0 = false) (hr : s.bistRefuser req kind idx = none) :
    bistRequest req kind idx s = (s.bistShown kind idx).bistStart kind idx := by
  have hr' := (s.bistShown_refuser req kind hidx).trans hr
  unfold bistRequest
  rw [← State.bistShown]
  dsimp only
  rw [s.bistShown_busy kind idx, hbusy, if_neg Bool.false_ne_true, hr']

/-- A core that is out of dispatch and has yielded may be tested. -/
theorem State.bistRefuser_core (hoff : s.coreOnline idx = false) (hrun : s.on (F.TDS_CORE_STAT_RUN idx) 0 = false) :
    s.bistRefuser req 4 idx = none := by
  unfold State.bistRefuser
  rw [if_neg (by decide), if_neg (by decide), if_pos rfl, if_pos (by simp [hoff, hrun])]

theorem State.bistRefuse_result {r : Nat} (h : r < 8) : (s.bistRefuse r).rd F.FLT_BIST_STAT_REFUSED 0 = 1 ∧
    (s.bistRefuse r).rd F.FLT_BIST_STAT_REFUSER 0 = r := by
  refine ⟨?_, (State.rd_wr_same _ F.FLT_BIST_STAT_REFUSER 0 r ⟨by decide, by decide⟩).trans (Nat.mod_eq_of_lt h)⟩
  rw [State.bistRefuse, State.rd_wr_clear _ _ _ _ (by decide)]
  exact State.rd_wr_held _ _ (by decide)

/-- A test accepted, as it is shown. -/
def State.bistBusy (s : State) : State := ((s.wr F.FLT_BIST_STAT_BUSY 0 1).wr F.FLT_BIST_STAT_REFUSED 0 0).wr F.FLT_BIST_STAT_RESULT 0 0

theorem State.bistBusy_result : s.bistBusy.rd F.FLT_BIST_STAT_BUSY 0 = 1 ∧ s.bistBusy.rd F.FLT_BIST_STAT_REFUSED 0 = 0 := by
  unfold State.bistBusy
  refine ⟨?_, ?_⟩
  · rw [State.rd_wr_clear _ _ _ _ (by decide), State.rd_wr_clear _ _ _ _ (by decide)]
    exact State.rd_wr_held _ _ (by decide)
  · rw [State.rd_wr_clear _ _ _ _ (by decide)]
    exact State.rd_wr_held _ _ (by decide)

/-- A test noted as under way. -/
def State.withTest (s : State) (b : Nat × Nat × Nat) : State := { s with flt := { s.flt with bist := some b } }

theorem State.withTest_rd (b : Nat × Nat × Nat) (f : Fld) (i : Nat) : (s.withTest b).rd f i = s.rd f i := rfl
theorem State.withTest_bist (b : Nat × Nat × Nat) : (s.withTest b).flt.bist = some b := rfl

/-- A core's test begins at once. -/
theorem State.bistStart_core (idx : Nat) : s.bistStart 4 idx = (s.bistBusy.withTest (4, idx, 2)).emit (.bist 4 idx) := by
  unfold State.bistStart
  dsimp only
  rw [if_neg (by decide), if_neg (by decide), if_neg (by decide), State.withTest, State.bistBusy]

theorem State.foldWrite_flt (k : Nat) : (s.foldWrite req k).flt = s.flt := by
  unfold State.foldWrite
  split
  · rfl
  · rw [State.foldValue_frame]

theorem State.foldWrite_out (k : Nat) : (s.foldWrite req k).out = s.out := by
  unfold State.foldWrite
  split
  · rfl
  · rw [State.foldValue_frame]

theorem State.foldWrites_flt (off : Nat) (insts : List Nat) : (s.foldWrites req off insts).flt = s.flt := by
  unfold State.foldWrites
  induction insts generalizing s with
  | nil => rfl
  | cons i l ih => rw [List.foldl_cons, ih, State.foldWrite_flt]

theorem State.foldWrites_out (off : Nat) (insts : List Nat) : (s.foldWrites req off insts).out = s.out := by
  unfold State.foldWrites
  induction insts generalizing s with
  | nil => rfl
  | cons i l ih => rw [List.foldl_cons, ih, State.foldWrite_out]

end

/-! ### External inputs (R418 to R421) -/

section
variable (s : State) (i : Nat)

theorem State.inputOf_setInput (x : InSt) : (s.setInput i x).inputOf i = x := tget_tput_same _ _ _ _

theorem inputTransition_same {active : Bool} (held : Bool) (h : (s.inputOf i).level = active) : inputTransition i active held s = s := if_pos h

theorem inputTransition_glitch {active : Bool} (h : (s.inputOf i).level ≠ active) : inputTransition i active false s =
    if s.on (F.FLT_IN_CFG_EN i) (inputInst i) then s.inc (F.FLT_IN_GLITCH i) 0 else s := by
  unfold inputTransition
  dsimp only
  rw [if_neg h, Bool.not_false, if_pos rfl]

/-- An input inactive again. -/
def State.inputGone (s : State) (i : Nat) : State := (s.wr (F.FLT_IN_STAT_HELD i) (inputInst i) 0).wr (F.FLT_IN_STAT_STUCK i) (inputInst i) 0

theorem inputTransition_held {active : Bool} (h : (s.inputOf i).level ≠ active) : inputTransition i active true s =
    if !s.on (F.FLT_IN_CFG_EN i) (inputInst i) then s.inputLevel i active
    else if active then (s.inputLevel i active).inputActive i else (s.inputLevel i active).inputGone i := if_neg h

theorem State.inputLevel_level (active : Bool) : ((s.inputLevel i active).inputOf i).level = active := by
  unfold State.inputLevel
  dsimp only
  split <;> exact congrArg InSt.level (State.inputOf_setInput s i _)

theorem inputActive_holds (active : Bool) : (F.FLT_IN_STAT_ACTIVE i).holds (if active then 1 else 0) = true := by
  cases active <;> rfl

theorem State.inputLevel_active {i : Nat} (hi : i < 20) (active : Bool) :
    (s.inputLevel i active).on (F.FLT_IN_STAT_ACTIVE i) (inputInst i) = active := by
  have hshown (t : State) : (t.wrB (F.FLT_IN_STAT_ACTIVE i) (inputInst i) active).rd (F.FLT_IN_STAT_ACTIVE i) (inputInst i) =
      if active then 1 else 0 := State.rd_wr_held _ _ (inputActive_holds i active)
  have hgpio (h : i < 16) : F.FLT_GPIO_IN.clearOf (F.FLT_IN_STAT_ACTIVE i) = true :=
    Fld.clearOf_of_off (by decide) (show 0xC0404 + 16 * i < 0x100000 by omega) (show 0xC0404 + 16 * i ≠ 0xC0504 by omega)
  have hon : (s.inputLevel i active).rd (F.FLT_IN_STAT_ACTIVE i) (inputInst i) = if active then 1 else 0 := by
    unfold State.inputLevel
    dsimp only
    split
    next h => rw [State.rd_wr_clear _ _ _ _ (hgpio h), hshown]
    next => exact hshown _
  rw [State.on, hon]
  cases active <;> rfl

theorem State.inputGone_active {i : Nat} (hi : i < 20) : (s.inputGone i).on (F.FLT_IN_STAT_ACTIVE i) (inputInst i) =
    s.on (F.FLT_IN_STAT_ACTIVE i) (inputInst i) := by
  have hall : ∀ i < 20, (F.FLT_IN_STAT_HELD i).clearOf (F.FLT_IN_STAT_ACTIVE i) = true ∧
      (F.FLT_IN_STAT_STUCK i).clearOf (F.FLT_IN_STAT_ACTIVE i) = true := by decide
  rw [State.inputGone, State.on_wr_clear _ _ _ _ (hall i hi).2, State.on_wr_clear _ _ _ _ (hall i hi).1]

/-- A level accepted of an input that does not act by it is shown. -/
theorem inputTransition_shown {active : Bool} (hi : i < 20) (h : (s.inputOf i).level ≠ active)
    (hidle : s.on (F.FLT_IN_CFG_EN i) (inputInst i) = false ∨ active = false) :
    ((inputTransition i active true s).inputOf i).level = active ∧
      (inputTransition i active true s).on (F.FLT_IN_STAT_ACTIVE i) (inputInst i) = active := by
  have hactive := s.inputLevel_active hi active
  rw [inputTransition_held s i h]
  cases hen : s.on (F.FLT_IN_CFG_EN i) (inputInst i) with
  | false =>
    rw [Bool.not_false, if_pos rfl]
    exact ⟨s.inputLevel_level i active, hactive⟩
  | true =>
    obtain rfl : active = false := hidle.resolve_left (by simp [hen])
    rw [Bool.not_true, if_neg Bool.false_ne_true, if_neg Bool.false_ne_true]
    exact ⟨s.inputLevel_level i false, (State.inputGone_active _ hi).trans hactive⟩

theorem chatterEnd_ignored (h : s.on (F.FLT_IN_STAT_CHATTER i) (inputInst i) = false ∨ (s.inputOf i).quiet ≠ 2) : chatterEnd i s = s :=
  if_neg (by rcases h with h | h <;> simp [h])

theorem chatterEnd_ends (hch : s.on (F.FLT_IN_STAT_CHATTER i) (inputInst i) = true) (hquiet : (s.inputOf i).quiet = 2) :
    chatterEnd i s = (s.wr (F.FLT_IN_STAT_CHATTER i) (inputInst i) 0).log 0x0C03 engineReq i [0] := if_pos (by simp [hch, hquiet])

theorem inputStuck_ignored (h : (s.inputOf i).level = false ∨ s.on (F.FLT_IN_STAT_STUCK i) (inputInst i) = true ∨
    s.on (F.FLT_IN_CFG_LEVEL i) (inputInst i) = false ∨ s.on (F.FLT_IN_CFG_EN i) (inputInst i) = false ∨
    s.eng.tick < (s.inputOf i).since + 16 * max 1 (s.rd (F.FLT_IN_CFG_STUCK_TICKS i) (inputInst i))) : inputStuck i s = s := by
  refine if_neg ?_
  rcases h with h | h | h | h | h
  · simp [h]
  · simp [h]
  · simp [h]
  · simp [h]
  · simp only [Bool.and_eq_true, decide_eq_true_eq, not_and]
    exact fun _ => Nat.not_le.mpr h

theorem inputStuck_declared (hen : s.on (F.FLT_IN_CFG_EN i) (inputInst i) = true) (hlevel : s.on (F.FLT_IN_CFG_LEVEL i) (inputInst i) = true)
    (hact : (s.inputOf i).level = true) (hstuck : s.on (F.FLT_IN_STAT_STUCK i) (inputInst i) = false)
    (hlong : (s.inputOf i).since + 16 * max 1 (s.rd (F.FLT_IN_CFG_STUCK_TICKS i) (inputInst i)) ≤ s.eng.tick) :
    inputStuck i s = ((s.wr (F.FLT_IN_STAT_STUCK i) (inputInst i) 1).log 0x0C04 engineReq i []).watch fsInput i := by
  refine if_pos ?_
  simp only [hen, hlevel, hact, hstuck, Bool.not_false, Bool.and_true, Bool.true_and, decide_eq_true_eq]
  exact hlong

end

/-- A requester's CLEAR and UNDO by the source that it selects. -/
theorem clear_eq (s : State) (req : Nat) : clear req s =
    if s.rd F.FLT_SRC_SEL_SRC req < 16 then s.clearInst req (s.rd F.FLT_SRC_SEL_SRC req) (s.rd F.FLT_SRC_SEL_INST req) else s := rfl

theorem undo_ignored (s : State) (req : Nat) (hlock : s.rd F.FLT_SRC_SEL_SRC req ≠ fsLockLoss) (hsf : s.rd F.FLT_SRC_SEL_SRC req ≠ fsSfSet) :
    undo req s = s := if_neg (by simp [hlock, hsf])

theorem undo_ends (s : State) (req : Nat) (h : s.rd F.FLT_SRC_SEL_SRC req = fsLockLoss ∨ s.rd F.FLT_SRC_SEL_SRC req = fsSfSet) :
    undo req s = s.setWatch (s.rd F.FLT_SRC_SEL_SRC req) (s.rd F.FLT_SRC_SEL_INST req)
      { s.watchOf (s.rd F.FLT_SRC_SEL_SRC req) (s.rd F.FLT_SRC_SEL_INST req) with effect := false } := if_pos (by simpa using h)

/-- Settles O60: lasting faults by their window, tests by the one under way, inputs by their level, counts and time. -/
theorem faultsAndInputs : Obligations.FaultsAndInputs := by
  unfold Obligations.FaultsAndInputs
  intro s
  refine ⟨fun h => ⟨fun src inst => ⟨fun hnot => ?lasts, fun hout hlasting => ?ends⟩, fun pass addr hnone => ?noTest,
      fun pass addr b hb hnot => ?notRunning, fun pass addr b res a hb hruns hres ha => ⟨fun hkind => ?octant, fun hkind => ?device, fun hkind => ?core⟩,
      fun pass addr i hb => ?tested, fun i active held => ⟨fun hsame => ?same, fun hother => ?glitch, fun hother hen hact => ?acts,
        fun hother hidle => ?shown⟩, fun i => ⟨fun hnot => ?calm, fun hch hquiet => ?chatters⟩, fun i hnot => ?notStuck,
      fun i hen hlevel hact hstuck hlong => ?stuck⟩,
    fun req htakes => ⟨fun src inst hsrc hinst => ⟨fun hbig => ⟨?noClear, ?noUndo⟩, fun hlt => ?cleared, fun hlock hsf => ?notUndone,
        fun hiso => ?undone⟩, fun kind idx => ⟨doneWrite_takes htakes, fun r hbusy hr hlt => ?refused, fun hbusy => ?busy,
        fun hbusy hkind hoff hrun => ?testStarts⟩⟩⟩
  case lasts =>
    have hfin : Finishes (.lastingEnd src inst) s (lastingEnd src inst s) := done_runs h
    rwa [lastingEnd_ignored s src inst hnot] at hfin
  case ends =>
    have hfin : Finishes (.lastingEnd src inst) s (lastingEnd src inst s) := done_runs h
    rw [lastingEnd_ends s src inst hout] at hfin
    exact ⟨_, hfin, s.lastingEnd_off _ _ _, s.lastingEnd_logged _ _ _ hlasting, s.lastingEnd_eff _ _ _⟩
  case noTest =>
    have hfin : Finishes (.testFinished pass addr) s (testFinished pass addr.toNat s) := done_runs h
    rwa [testFinished_none s pass _ hnone] at hfin
  case notRunning =>
    have hfin : Finishes (.testFinished pass addr) s (testFinished pass addr.toNat s) := done_runs h
    rwa [testFinished_notRunning s hb pass _ hnot] at hfin
  case octant =>
    have hfin : Finishes (.testFinished pass addr) s (testFinished pass addr.toNat s) := done_runs h
    rwa [testFinished_octant s hb pass _ hruns hkind, ← hres, ← ha] at hfin
  case device =>
    have hfin : Finishes (.testFinished pass addr) s (testFinished pass addr.toNat s) := done_runs h
    rwa [testFinished_other s hb pass _ hruns (by omega), if_pos hkind, ← hres, ← ha] at hfin
  case core =>
    have hfin : Finishes (.testFinished pass addr) s (testFinished pass addr.toNat s) := done_runs h
    rwa [testFinished_other s hb pass _ hruns (by omega), if_neg (by omega), ← hres, ← ha] at hfin
  case tested =>
    have hfin : Finishes (.testFinished pass addr) s (testFinished pass addr.toNat s) := done_runs h
    rw [testFinished_other s hb pass _ rfl (show 2 < 4 by decide), if_neg (show ¬(4 : Nat) = 3 by decide)] at hfin
    have haddr := addr.isLt
    exact ⟨_, hfin, s.bistDone_result hb (by split <;> decide) (by split <;> omega)⟩
  case same =>
    have hfin : Finishes (.inputTransition i active held) s (inputTransition i active held s) := done_runs h
    rwa [inputTransition_same s i held hsame] at hfin
  case glitch =>
    have hfin : Finishes (.inputTransition i active false) s (inputTransition i active false s) := done_runs h
    rwa [inputTransition_glitch s i hother] at hfin
  case acts =>
    have hfin : Finishes (.inputTransition i active true) s (inputTransition i active true s) := done_runs h
    subst hact
    rwa [inputTransition_held s i hother, hen, Bool.not_true, if_neg Bool.false_ne_true, if_pos rfl] at hfin
  case shown => exact ⟨_, done_runs h, inputTransition_shown s i i.isLt hother hidle⟩
  case calm =>
    have hfin : Finishes (.chatterEnd i) s (chatterEnd i s) := done_runs h
    rwa [chatterEnd_ignored s i hnot] at hfin
  case chatters =>
    have hfin : Finishes (.chatterEnd i) s (chatterEnd i s) := done_runs h
    rw [chatterEnd_ends s i hch hquiet] at hfin
    refine ⟨_, hfin, ?_, List.length_append⟩
    rw [State.on, State.log_rd, State.rd_wr_held _ _ (f := F.FLT_IN_STAT_CHATTER i) rfl]
    rfl
  case notStuck =>
    have hfin : Finishes (.inputStuck i) s (inputStuck i s) := done_runs h
    rwa [inputStuck_ignored s i hnot] at hfin
  case stuck =>
    have hfin : Finishes (.inputStuck i) s (inputStuck i s) := done_runs h
    rwa [inputStuck_declared s i hen hlevel hact hstuck hlong] at hfin
  case noClear =>
    have hfin : Finishes (.clear req) s (clear req s) := doneWrite_takes htakes
    rwa [clear_eq, hsrc, if_neg (Nat.not_lt.mpr hbig)] at hfin
  case noUndo =>
    have hfin : Finishes (.undo req) s (undo req s) := doneWrite_takes htakes
    rwa [undo_ignored s req (by unfold fsLockLoss; omega) (by unfold fsSfSet; omega)] at hfin
  case cleared =>
    have hfin : Finishes (.clear req) s (clear req s) := doneWrite_takes htakes
    rw [clear_eq, hsrc, if_pos hlt, hinst] at hfin
    exact ⟨_, hfin, s.clearInst_ticks _ _ _, s.clearInst_lasting _ _ _, s.clearInst_eff _ _ _⟩
  case notUndone =>
    have hfin : Finishes (.undo req) s (undo req s) := doneWrite_takes htakes
    rwa [undo_ignored s req (hsrc ▸ hlock) (hsrc ▸ hsf)] at hfin
  case undone =>
    have hfin : Finishes (.undo req) s (undo req s) := doneWrite_takes htakes
    rw [undo_ends s req (hsrc ▸ hiso), hsrc, hinst] at hfin
    exact ⟨_, hfin, congrArg Watch.effect (State.watchOf_setWatch s src inst _), rfl⟩
  case refused =>
    have hfin : Finishes (.bistRequest req kind idx) s ((bistRequest req kind idx s).foldWrites req F.FLT_BIST_CTL.off [0]) :=
      doneWrite_takes htakes
    rw [bistRequest_refused s req kind idx.isLt hbusy hr] at hfin
    obtain ⟨hrefused, hrefuser⟩ := State.bistRefuse_result (s.bistShown kind idx) hlt
    exact ⟨_, hfin, (State.foldWrites_rd _ _ _ _ _ _).trans hrefused, (State.foldWrites_rd _ _ _ _ _ _).trans hrefuser,
      State.foldWrites_flt _ _ _ _, State.foldWrites_out _ _ _ _⟩
  case busy =>
    have hfin : Finishes (.bistRequest req kind idx) s ((bistRequest req kind idx s).foldWrites req F.FLT_BIST_CTL.off [0]) :=
      doneWrite_takes htakes
    rw [bistRequest_busy s req kind idx hbusy] at hfin
    exact ⟨_, hfin, (State.foldWrites_rd _ _ _ _ _ _).trans (State.rd_wr_held _ _ (by decide)),
      State.foldWrites_flt _ _ _ _, State.foldWrites_out _ _ _ _⟩
  case testStarts =>
    have hfin : Finishes (.bistRequest req kind idx) s ((bistRequest req kind idx s).foldWrites req F.FLT_BIST_CTL.off [0]) :=
      doneWrite_takes htakes
    rw [hkind, bistRequest_starts s req 4 idx.isLt hbusy (s.bistRefuser_core req hoff hrun), State.bistStart_core] at hfin
    obtain ⟨hshown, hrefused⟩ := (s.bistShown 4 idx).bistBusy_result
    refine ⟨_, hfin, ?_, ?_, ?_, ?_⟩
    · rw [State.foldWrites_flt, State.emit_flt, State.withTest_bist]
    · rw [State.foldWrites_out]
      rfl
    · rw [State.on, State.foldWrites_rd, State.rd_emit, State.withTest_rd, hshown]
      rfl
    · rw [State.foldWrites_rd, State.rd_emit, State.withTest_rd, hrefused]

end Sys2Proof.Machine
end

section
/-!
PROOF. The phases of the start and RESTART (R356, R357, R359, R360, R422, R428). Settles O55.
-/

namespace Sys2Proof.Machine

/-! ### Resets and releases (R357, R359, R422) -/

section
variable (s : State)

/-- The engine held by its reset input, or let go by it. -/
def State.withInput (s : State) (active : Bool) : State := { s with pwr := { s.pwr with input := active } }

theorem State.withInput_input (active : Bool) : (s.withInput active).pwr.input = active := rfl
theorem State.withInput_store (active : Bool) : (s.withInput active).store = s.store := rfl
theorem State.withInput_eng (active : Bool) : (s.withInput active).eng = s.eng := rfl
theorem State.withInput_reg (active : Bool) (i off : Nat) : (s.withInput active).reg i off = s.reg i off := rfl
theorem State.withInput_phase (active : Bool) : (s.withInput active).phase = s.phase := rfl

theorem resetInput_eq : resetInput s = (s.afterReset false).withInput true := rfl
theorem resetRelease_eq (id : Nat) (m : Bool) : resetRelease id m s = ((s.afterReset false).withInput false).withStraps id m := rfl

theorem State.startFeed_rd {g : Fld} (h : F.PWR_FEED_STAT_USE.clearOf g = true) : s.startFeed.rd g 0 = s.rd g 0 :=
  s.rd_wr_clear _ _ _ h

theorem State.withStraps_phase (id : Nat) (m : Bool) : (s.withStraps id m).phase = s.phase := by
  unfold State.withStraps State.phase State.wrB
  rw [State.startFeed_rd _ (by decide), State.rd_wr_clear _ _ _ _ (by decide), State.rd_wr_clear _ _ _ _ (by decide)]

theorem State.withStraps_pwr (id : Nat) (m : Bool) : (s.withStraps id m).pwr = s.pwr := rfl

theorem State.withStraps_strap {id : Nat} (h : id < 4) (m : Bool) : (s.withStraps id m).rd F.TWN_STAT_STRAP 0 = id := by
  unfold State.withStraps State.wrB
  rw [State.startFeed_rd _ (by decide), State.rd_wr_clear _ _ _ _ (by decide)]
  exact (State.rd_wr_same _ F.TWN_STAT_STRAP 0 id ⟨by decide, by decide⟩).trans (Nat.mod_eq_of_lt h)

theorem State.withStraps_main (id : Nat) (m : Bool) : (s.withStraps id m).on F.PWR_FEED_STAT_MAIN 0 = m := by
  unfold State.withStraps State.wrB State.on
  rw [State.startFeed_rd _ (by decide), State.rd_wr_held _ _ (f := F.PWR_FEED_STAT_MAIN) (by cases m <;> decide)]
  cases m <;> rfl

theorem State.restart_other {key : Nat} (h : key ≠ 0xA5) : s.restart key = s := if_neg h

theorem State.restart_keyed : s.restart 0xA5 = (s.afterReset true).startFeed := if_pos rfl

theorem State.afterReset_link : (s.afterReset true).host.link = s.host.link := by
  rw [← s.driveAlive_host false]
  rfl

theorem State.startFeed_phase : s.startFeed.phase = s.phase := s.startFeed_rd (by decide)
theorem State.startFeed_host : s.startFeed.host = s.host := rfl
theorem State.startFeed_store : s.startFeed.store = s.store := rfl

end

/-! ### The checks of a slot (R354, R356) -/

/-- Every section type that Table: Section types has. -/
theorem type_of_paramOk {type param : Nat} (h : paramOk type param = true) : 1 ≤ type ∧ type ≤ 10 := by
  unfold paramOk at h
  split at h <;> simp at h ⊢

theorem pairwise_of_allApart {l : List (Nat × Nat)} (h : allApart l = true) : l.Pairwise (fun a b => apart a b = true) := by
  induction l with
  | nil => exact .nil
  | cons a l ih =>
    rw [allApart, Bool.and_eq_true, List.all_eq_true] at h
    exact .cons h.1 (ih h.2)

/-- What a layout that passes check 1 holds. -/
theorem layoutOk_holds {z : SlotImage} (h : layoutOk z = true) : z.svn ≤ 64 ∧ (∀ p ∈ slotParts z, p.1 + p.2 ≤ fieldLE z.header 8 4) ∧
    (slotParts z).Pairwise (fun a b => apart a b = true) ∧
    (∀ e ∈ manEntries z.manifest, 1 ≤ e.type ∧ e.type ≤ 10 ∧ e.ofs % 4 = 0 ∧ (e.type = 9 → certFlag z 0 = true)) := by
  unfold layoutOk at h
  simp only [Bool.and_eq_true, decide_eq_true_eq, List.all_eq_true, beq_iff_eq] at h
  obtain ⟨⟨⟨⟨⟨⟨⟨⟨⟨⟨-, hsvn⟩, -⟩, -⟩, -⟩, -⟩, hends⟩, hapart⟩, hentries⟩, -⟩, hext⟩ := h
  refine ⟨hsvn, hends, pairwise_of_allApart hapart, fun e he => ?_⟩
  obtain ⟨hparam, halign⟩ := hentries e he
  obtain ⟨hlo, hhi⟩ := type_of_paramOk hparam
  refine ⟨hlo, hhi, halign, fun hnine => ?_⟩
  rw [Bool.or_eq_true, List.all_eq_true] at hext
  exact hext.resolve_right (fun hnone => by simpa [hnine] using hnone e he)

/-- What a slot without a cause passed (R356). -/
theorem State.slotCause_zero {s : State} {z : SlotImage} (h : s.slotCause z = 0) : z.readable = true ∧ layoutOk z = true ∧ z.rootOk = true ∧
    z.certOk = true ∧ s.rd F.IMG_STAT_FUSE_SVN 0 ≤ z.svn ∧ z.sigOk = true := by
  unfold State.slotCause at h
  repeat' split at h
  all_goals simp_all

/-! ### What a slot leaves (R356, R357) -/

section
variable (s : State) {g : Fld}

theorem State.rd_withImg (x : Img) (f : Fld) (i : Nat) : ({ s with img := x } : State).rd f i = s.rd f i := rfl

/-- Bytes put into registers leave those below them alone. -/
theorem State.putBytes_reg (inst i : Nat) {off o : Nat} (bs : List Byte) (h : o < off) (hend : off + 4 * ceilDiv bs.length 4 ≤ 0x100000) :
    (s.putBytes inst off bs).reg i o = s.reg i o := by
  unfold State.putBytes
  generalize hn : ceilDiv bs.length 4 = n at hend
  clear hn
  induction n with
  | zero => rfl
  | succ n ih =>
    rw [List.range_succ, List.foldl_append, List.foldl_cons, List.foldl_nil, State.reg_setReg_ne _ _ (rkey_ne_of_off (by omega) (by omega) (by omega))]
    exact ih (by omega)

theorem State.putMdig_rd {bs : List Byte} (hbs : bs.length = 64) (i : Nat) (h : g.off < (F.IMG_MDIG_W 0).off) :
    (s.putBytes 0 (F.IMG_MDIG_W 0).off bs).rd g i = s.rd g i := by
  rw [State.rd, State.putBytes_reg _ _ _ _ h (by rw [hbs]; decide), ← State.rd]

theorem sha512_length (m : List Byte) : (sha512 m).length = 64 := length_exactly _ _

theorem State.putBytes_img (inst off : Nat) (bs : List Byte) : (s.putBytes inst off bs).img = s.img := by
  unfold State.putBytes
  refine foldl_keeps State.img (fun _ _ => ?_) _ _
  rfl

theorem imgCause_clears {slot : Nat} (ha : F.IMG_CAUSE_CAUSE_A.clearOf g = true) (hb : F.IMG_CAUSE_CAUSE_B.clearOf g = true) :
    (imgCause slot).clearOf g = true := by
  unfold imgCause
  split
  · exact ha
  · exact hb

theorem imgCause_off (slot : Nat) : (imgCause slot).off = 0x10004 := by
  unfold imgCause
  split <;> rfl

theorem clearOf_imgCause (slot : Nat) (hlt : g.off < 0x100000) (hne : g.off ≠ 0x10004) : g.clearOf (imgCause slot) = true :=
  Fld.clearOf_of_off hlt (by rw [imgCause_off]; decide) (by rw [imgCause_off]; exact hne.symm)

theorem imgCause_other {slot : Nat} (h : slot < 2) : (imgCause slot).clearOf (imgCause (1 - slot)) = true := by
  have hall : ∀ slot < 2, (imgCause slot).clearOf (imgCause (1 - slot)) = true := by decide
  exact hall slot h

theorem State.slot_lt : s.rd F.IMG_STAT_SLOT 0 < 2 := getF_lt _ F.IMG_STAT_SLOT

/-- A slot's cause shown, and that the other slot is now used. -/
def State.causeShown (s : State) (cause : Nat) : State :=
  if s.rd F.IMG_STAT_SLOT 0 = 0 then (s.wr (imgCause (s.rd F.IMG_STAT_SLOT 0)) 0 cause).wr F.IMG_STAT_FALLBACK 0 1
  else s.wr (imgCause (s.rd F.IMG_STAT_SLOT 0)) 0 cause

/-- Nothing of a slot stays. -/
def State.slotForgotten (s : State) : State :=
  let t := ((s.wr F.IMG_STAT_SVN 0 0).wr F.IMG_BUILD 0 0).putBytes 0 (F.IMG_MDIG_W 0).off (List.replicate 64 0)
  { t with img := { t.img with m := [], manifest := [], ownerHash := [], sections := [] } }

theorem State.slotFails_eq (cause : Nat) : s.slotFails cause =
    if (s.causeShown cause).slotForgotten.rd (imgCause (1 - s.rd F.IMG_STAT_SLOT 0)) 0 = 9
    then ((s.causeShown cause).slotForgotten.wr F.IMG_STAT_SLOT 0 (1 - s.rd F.IMG_STAT_SLOT 0)).wr F.IMG_STAT_PHASE 0 phHeader
    else (s.causeShown cause).slotForgotten.wr F.IMG_STAT_PHASE 0 phNoImage := by
  unfold State.slotFails State.causeShown State.slotForgotten
  rfl

theorem State.causeShown_rd (cause : Nat) (hcause : (imgCause (s.rd F.IMG_STAT_SLOT 0)).clearOf g = true)
    (hfall : F.IMG_STAT_FALLBACK.clearOf g = true) : (s.causeShown cause).rd g 0 = s.rd g 0 := by
  unfold State.causeShown
  split
  · rw [State.rd_wr_clear _ _ _ _ hfall, State.rd_wr_clear _ _ _ _ hcause]
  · exact State.rd_wr_clear _ _ _ _ hcause

theorem State.slotForgotten_rd (hsvn : F.IMG_STAT_SVN.clearOf g = true) (hbuild : F.IMG_BUILD.clearOf g = true)
    (h : g.off < (F.IMG_MDIG_W 0).off) : s.slotForgotten.rd g 0 = s.rd g 0 := by
  unfold State.slotForgotten
  dsimp only
  rw [State.rd_withImg, State.putMdig_rd _ List.length_replicate _ h, State.rd_wr_clear _ _ _ _ hbuild, State.rd_wr_clear _ _ _ _ hsvn]

/-- The other slot's cause decides: 9 for one that has not been tried. -/
theorem State.slotFails_otherCause (cause : Nat) : (s.causeShown cause).slotForgotten.rd (imgCause (1 - s.rd F.IMG_STAT_SLOT 0)) 0 =
    s.rd (imgCause (1 - s.rd F.IMG_STAT_SLOT 0)) 0 := by
  rw [State.slotForgotten_rd _ (clearOf_imgCause _ (by decide) (by decide)) (clearOf_imgCause _ (by decide) (by decide))
    (by rw [imgCause_off]; decide), State.causeShown_rd _ _ (imgCause_other s.slot_lt) (clearOf_imgCause _ (by decide) (by decide))]

theorem State.slotFails_next (cause : Nat) (h : s.rd (imgCause (1 - s.rd F.IMG_STAT_SLOT 0)) 0 = 9) :
    (s.slotFails cause).phase = phHeader ∧ (s.slotFails cause).rd F.IMG_STAT_SLOT 0 = 1 - s.rd F.IMG_STAT_SLOT 0 := by
  rw [State.slotFails_eq, State.slotFails_otherCause, if_pos h]
  refine ⟨State.rd_wr_held _ _ (by decide), ?_⟩
  rw [State.rd_wr_clear _ _ _ _ (by decide)]
  exact (State.rd_wr_same _ F.IMG_STAT_SLOT 0 _ ⟨by decide, by decide⟩).trans (Nat.mod_eq_of_lt (Nat.lt_succ_of_le (Nat.sub_le _ _)))

theorem State.slotFails_last (cause : Nat) (h : s.rd (imgCause (1 - s.rd F.IMG_STAT_SLOT 0)) 0 ≠ 9) :
    (s.slotFails cause).phase = phNoImage := by
  rw [State.slotFails_eq, State.slotFails_otherCause, if_neg h]
  exact State.rd_wr_held _ _ (by decide)

theorem State.slotFails_phase (cause : Nat) : (s.slotFails cause).phase = phHeader ∨ (s.slotFails cause).phase = phNoImage := by
  rcases eq_or_ne (s.rd (imgCause (1 - s.rd F.IMG_STAT_SLOT 0)) 0) 9 with h | h
  · exact .inl (s.slotFails_next cause h).1
  · exact .inr (s.slotFails_last cause h)

theorem State.slotFails_img (cause : Nat) : (s.slotFails cause).img.manifest = [] ∧ (s.slotFails cause).img.sections = [] := by
  rw [State.slotFails_eq]
  split <;> exact ⟨rfl, rfl⟩

/-- What a slot that passes shows. -/
theorem State.holdSlot_shows {z : SlotImage} (hsvn : z.svn ≤ 64) : (s.holdSlot z).rd F.IMG_STAT_SVN 0 = z.svn ∧
    (s.holdSlot z).rd F.IMG_BUILD 0 = z.build ∧ (s.holdSlot z).img.manifest = z.signed := by
  have hbuild : z.build < 256 ^ 4 := fieldLE_lt _ _ _
  unfold State.holdSlot
  dsimp only
  rw [State.putMdig_rd _ (sha512_length _) _ (by decide), State.putMdig_rd _ (sha512_length _) _ (by decide), State.putBytes_img]
  refine ⟨?_, (State.rd_wr_same _ F.IMG_BUILD 0 _ ⟨by decide, by decide⟩).trans (Nat.mod_eq_of_lt (Nat.lt_of_lt_of_le hbuild (by decide))), rfl⟩
  rw [State.rd_wr_clear _ _ _ _ (by decide)]
  exact (State.rd_wr_same _ F.IMG_STAT_SVN 0 _ ⟨by decide, by decide⟩).trans (Nat.mod_eq_of_lt (Nat.lt_of_le_of_lt hsvn (by decide)))

end

/-! ### The phases (R356, R359) -/

section
variable (s : State)

theorem headerChecked_ignored (z : SlotImage) (h : s.phase ≠ phHeader) : headerChecked z s = s := if_pos (by simpa using h)

theorem headerChecked_passes {z : SlotImage} (h : s.phase = phHeader) (hz : s.slotCause z = 0) :
    headerChecked z s = (s.holdSlot z).wr F.IMG_STAT_PHASE 0 phSections := by
  unfold headerChecked
  rw [if_neg (by simp [h]), if_pos hz]

theorem headerChecked_fails {z : SlotImage} (h : s.phase = phHeader) (hz : s.slotCause z ≠ 0) : headerChecked z s = s.slotFails (s.slotCause z) := by
  unfold headerChecked
  rw [if_neg (by simp [h]), if_neg hz]

theorem State.mayApply_phase : s.mayApply.phase = if s.phase = phSections ∧ s.img.checked = true ∧ s.img.trained = true then phApply else s.phase := by
  unfold State.mayApply
  simp only [Bool.and_eq_true, decide_eq_true_eq, and_assoc]
  split
  · exact State.rd_wr_held _ _ (by decide)
  · rfl

theorem State.mayApply_img : s.mayApply.img = s.img := by
  unfold State.mayApply
  split <;> rfl

theorem sectionsChecked_ignored (r d : Bool) (cs : List (List Byte)) (h : s.phase ≠ phSections ∨ s.img.checked = true) :
    sectionsChecked r d cs s = s := if_pos (by rcases h with h | h <;> simp [h])

/-- The sections of the slot held. -/
def State.holdSections (s : State) (cs : List (List Byte)) : State :=
  ({ s with img := { s.img with checked := true, sections := heldSections (s.img.manifest.drop 256) cs } } : State).wr
    (imgCause (s.rd F.IMG_STAT_SLOT 0)) 0 0

theorem State.holdSections_phase (cs : List (List Byte)) : (s.holdSections cs).phase = s.phase :=
  State.rd_wr_clear _ _ _ _ (imgCause_clears (by decide) (by decide))

theorem State.holdSections_img (cs : List (List Byte)) :
    (s.holdSections cs).img = { s.img with checked := true, sections := heldSections (s.img.manifest.drop 256) cs } := rfl

theorem sectionsChecked_passes (cs : List (List Byte)) (h : s.phase = phSections) (hchecked : s.img.checked = false) :
    sectionsChecked true true cs s = (s.holdSections cs).mayApply := if_neg (by simp [h, hchecked])

theorem sectionsChecked_fails (r d : Bool) (cs : List (List Byte)) (h : s.phase = phSections) (hchecked : s.img.checked = false)
    (hbad : (r && d) = false) : ∃ cause, sectionsChecked r d cs s = s.slotFails cause := by
  unfold sectionsChecked
  rw [if_neg (by simp [h, hchecked])]
  cases r with
  | false => exact ⟨1, rfl⟩
  | true =>
    obtain rfl : d = false := hbad
    exact ⟨8, rfl⟩

/-! ### Memory training (R297) -/

/-- Each channel's temperature after training. -/
def State.trainTemps (s : State) (temps : List (BitVec 8)) : State :=
  (List.range 64).foldl (fun s m =>
    (s.chTemp m (temps.getD (m / 4) 0).toNat).wr F.MEM_CH_TEMP_T_TRAIN m (temps.getD (m / 4) 0).toNat) s

theorem State.trainTemps_keeps {β : Type} (q : State → β)
    (hwr : ∀ (s : State) (f : Fld) (m v : Nat), f.off = F.MEM_CH_STAT.off ∨ f.off = F.MEM_CH_TEMP.off → q (s.wr f m v) = q s)
    (temps : List (BitVec 8)) : q (s.trainTemps temps) = q s :=
  foldl_keeps q (fun s m => (hwr _ F.MEM_CH_TEMP_T_TRAIN m _ (.inr rfl)).trans
    (State.chTemp_keeps q (fun s f v hf => hwr s f m v hf) s _)) _ _

theorem State.trainTemps_phase (temps : List (BitVec 8)) : (s.trainTemps temps).phase = s.phase := by
  refine State.trainTemps_keeps s State.phase (fun s f m v hf => s.rd_wr_clear _ _ _ ?_) temps
  rcases hf with hf | hf
  · exact Fld.clearOf_of_off (by rw [hf]; decide) (by decide) (by rw [hf]; decide)
  · exact Fld.clearOf_of_off (by rw [hf]; decide) (by decide) (by rw [hf]; decide)

theorem State.trainTemps_img (temps : List (BitVec 8)) : (s.trainTemps temps).img = s.img :=
  State.trainTemps_keeps s State.img (fun _ _ _ _ _ => rfl) temps

/-- Training ended. -/
def State.trained (s : State) (temps : List (BitVec 8)) : State :=
  { s.trainTemps temps with img := { (s.trainTemps temps).img with trained := true } }

theorem State.trained_phase (temps : List (BitVec 8)) : (s.trained temps).phase = s.phase := s.trainTemps_phase temps

theorem State.trained_img (temps : List (BitVec 8)) : (s.trained temps).img = { s.img with trained := true } := by
  unfold State.trained
  rw [State.trainTemps_img]

/-- The devices of which a channel failed. -/
def failedDevices (failed : Nat) : List Nat := (List.range 16).filter (fun d => failed / 2 ^ (4 * d) % 16 != 0)

/-- What training leads to, by the devices that failed. -/
def State.afterTraining (s : State) : List Nat → State
  | [] => s.mayApply
  | [d] => (s.bootMapOut d).mayApply
  | _ => s.wr F.IMG_STAT_PHASE 0 phMemFail

theorem memTrainingDone_ignored (f : Nat) (ts : List (BitVec 8)) (h : s.img.trained = true ∨ (s.phase ≠ phHeader ∧ s.phase ≠ phSections)) :
    memTrainingDone f ts s = s := by
  refine if_pos ?_
  rcases h with h | ⟨hheader, hsections⟩
  · simp [h]
  · simp [hheader, hsections]

theorem memTrainingDone_done (f : Nat) (ts : List (BitVec 8)) (hnot : s.img.trained = false) (h : s.phase = phHeader ∨ s.phase = phSections) :
    memTrainingDone f ts s = (s.trained ts).afterTraining (failedDevices f) := by
  unfold memTrainingDone
  rw [if_neg (by rcases h with h | h <;> simp [hnot, h])]
  rfl

theorem State.useDevice_img (d u : Nat) : (s.useDevice d u).img = s.img := by
  unfold State.useDevice
  refine foldl_keeps State.img (fun _ _ => ?_) _ _
  rfl

theorem State.bootMapOut_img (d : Nat) : (s.bootMapOut d).img = s.img := by
  unfold State.bootMapOut
  dsimp only
  rw [State.wr_img, State.useDevice_img, State.wr_img, State.wr_img]

theorem State.afterTraining_img (l : List Nat) : (s.afterTraining l).img = s.img := by
  unfold State.afterTraining
  split
  · exact s.mayApply_img
  · exact (State.mayApply_img _).trans (s.bootMapOut_img _)
  · rfl

theorem failedDevices_zero : failedDevices 0 = [] := by decide

theorem mem_failedDevices {f : Nat} {d : Fin 16} (h : f / 2 ^ (4 * d.val) % 16 ≠ 0) : d.val ∈ failedDevices f :=
  List.mem_filter.mpr ⟨List.mem_range.mpr d.isLt, by simpa using h⟩

theorem State.afterTraining_none : (s.afterTraining []).phase =
    if s.phase = phSections ∧ s.img.checked = true ∧ s.img.trained = true then phApply else s.phase := s.mayApply_phase

theorem State.afterTraining_two {l : List Nat} {d e : Nat} (hd : d ∈ l) (he : e ∈ l) (hne : d ≠ e) : (s.afterTraining l).phase = phMemFail := by
  match l with
  | [] => cases hd
  | [x] => exact absurd ((List.mem_singleton.mp hd).trans (List.mem_singleton.mp he).symm) hne
  | _ :: _ :: _ => exact State.rd_wr_held _ _ (by decide)

/-! ### APPLY (R359, R360) -/

theorem apply_ignored (h : s.phase ≠ phApply ∨ s.eng.commits.any (fun x => x.req == 17) = true) : apply s = s := by
  refine if_neg ?_
  rcases h with h | h
  · simp [h]
  · simp [h, loaderReq]

/-- Every section loaded, and the copies given up. -/
def State.loaded (s : State) : State :=
  let t := (applyOrder s.img.sections).foldl State.load s
  { t with img := { t.img with sections := [] }, mem := { t.mem with initDone := true } }

theorem apply_eq (h : s.phase = phApply) (hnone : s.eng.commits.any (fun x => x.req == 17) = false) :
    apply s = s.loaded.tickCommit loaderReq startCommitWord := if_pos (by simp [h, hnone, loaderReq])

theorem State.loaded_img_sections : s.loaded.img.sections = [] := rfl
theorem State.loaded_mem_initDone : s.loaded.mem.initDone = true := rfl

theorem State.loaded_eng (h : s.img.sections = []) : s.loaded.eng = s.eng := by
  unfold State.loaded
  rw [h]
  rfl

theorem State.tickCommit_img (req : Nat) (w : Word) : (s.tickCommit req w).img = s.img := by
  unfold State.tickCommit
  dsimp only
  split <;> rfl

theorem State.tickCommit_mem (req : Nat) (w : Word) : (s.tickCommit req w).mem = s.mem := by
  unfold State.tickCommit
  dsimp only
  split <;> rfl

/-- The start commit covers the device and every octant. -/
theorem startCommitWord_fields : getF startCommitWord F.TICK_COMMIT_DEV = 1 ∧ getF startCommitWord F.TICK_COMMIT_OCT_MASK = 255 := by decide

theorem State.startCommit_waits : ∃ x, (s.tickCommit loaderReq startCommitWord).eng.commits = s.eng.commits ++ [x] ∧ x.req = 17 ∧
    x.dev = true ∧ x.octs = 255 := by
  obtain ⟨hdev, hocts⟩ := startCommitWord_fields
  unfold State.tickCommit
  dsimp only
  rw [hdev, hocts, if_neg (by simp)]
  exact ⟨_, rfl, rfl, rfl, rfl⟩

end

/-- Settles O55: resets and releases, then each phase by the command that ends it. -/
theorem startPhases : Obligations.StartPhases := by
  unfold Obligations.StartPhases
  intro s
  refine ⟨?resetInput, fun id m => ?release, fun h => ⟨?resetPhase, fun z hz => ?cause, fun z hnot => ?notHeader, fun z hp hz => ?header,
    fun z hp hz => ?slotFails, fun r d cs hnot => ?notSections, fun cs hp hc => ?sections, fun r d cs hp hc hbad => ?sectionsFail,
    fun f ts hnot => ?notTraining, fun f ts hnot hp => ?training, fun hnot => ?notApply, fun hp hnone => ?applied,
    fun hp hnone hempty => ?commits, fun req key hkey => ?noKey, fun req => ?restarted⟩⟩
  case resetInput =>
    have hfin : Finishes .resetInput s (resetInput s) := rfl
    rw [resetInput_eq] at hfin
    refine ⟨_, hfin, State.withInput_input _ _, ?_, ?_, ?_, fun i off hoff hkept hnot => ?_⟩
    · rw [State.withInput_phase, State.afterReset_phase]
    · rw [State.withInput_store, State.afterReset_store]
    · rw [State.withInput_eng, State.afterReset_eng]
    · simp only [List.mem_cons, List.not_mem_nil, or_false, not_or] at hnot
      rw [State.withInput_reg, s.afterReset_reg false i hoff hnot.1 hnot.2, hkept, if_neg Bool.false_ne_true]
  case release =>
    have hfin : Finishes (.resetRelease id m) s (resetRelease id m s) := rfl
    rw [resetRelease_eq] at hfin
    refine ⟨_, hfin, ?_, ?_, State.withStraps_strap _ id.isLt m, State.withStraps_main _ _ m⟩
    · rw [State.withStraps_pwr, State.withInput_input]
    · rw [State.withStraps_phase, State.withInput_phase, State.afterReset_phase]
  case resetPhase => exact done_runs h
  case cause =>
    obtain ⟨hread, hlayout, hroot, hcert, hfuse, hsig⟩ := State.slotCause_zero hz
    obtain ⟨hsvn, hends, hapart, hentries⟩ := layoutOk_holds hlayout
    exact ⟨hread, hroot, hcert, hsig, hfuse, hsvn, hends, hapart, hentries⟩
  case notHeader =>
    have hfin : Finishes (.headerChecked z) s (headerChecked z s) := done_runs h
    rwa [headerChecked_ignored s z hnot] at hfin
  case header =>
    have hfin : Finishes (.headerChecked z) s (headerChecked z s) := done_runs h
    rw [headerChecked_passes s hp hz] at hfin
    obtain ⟨hsvn, hbuild, hmanifest⟩ := s.holdSlot_shows (layoutOk_holds (State.slotCause_zero hz).2.1).1
    exact ⟨_, hfin, State.rd_wr_held _ _ (by decide), (State.rd_wr_clear _ _ _ _ (by decide)).trans hsvn,
      (State.rd_wr_clear _ _ _ _ (by decide)).trans hbuild, hmanifest⟩
  case slotFails =>
    have hfin : Finishes (.headerChecked z) s (headerChecked z s) := done_runs h
    rw [headerChecked_fails s hp hz] at hfin
    exact ⟨_, hfin, s.slotFails_next _, s.slotFails_last _⟩
  case notSections =>
    have hfin : Finishes (.sectionsChecked r d cs) s (sectionsChecked r d cs s) := done_runs h
    rwa [sectionsChecked_ignored s r d cs hnot] at hfin
  case sections =>
    have hfin : Finishes (.sectionsChecked true true cs) s (sectionsChecked true true cs s) := done_runs h
    rw [sectionsChecked_passes s cs hp hc] at hfin
    refine ⟨_, hfin, congrArg Img.checked (State.mayApply_img _), congrArg Img.sections (State.mayApply_img _), ?_⟩
    rw [State.mayApply_phase, State.holdSections_phase, hp, State.holdSections_img]
    simp only [true_and]
  case sectionsFail =>
    have hfin : Finishes (.sectionsChecked r d cs) s (sectionsChecked r d cs s) := done_runs h
    obtain ⟨cause, hcause⟩ := sectionsChecked_fails s r d cs hp hc hbad
    rw [hcause] at hfin
    exact ⟨_, hfin, (s.slotFails_img cause).1, (s.slotFails_img cause).2, s.slotFails_phase cause⟩
  case notTraining =>
    have hfin : Finishes (.memTrainingDone f ts) s (memTrainingDone f.toNat ts s) := done_runs h
    rwa [memTrainingDone_ignored s _ ts hnot] at hfin
  case training =>
    have hfin : Finishes (.memTrainingDone f ts) s (memTrainingDone f.toNat ts s) := done_runs h
    rw [memTrainingDone_done s _ ts hnot hp] at hfin
    refine ⟨_, hfin, ?_, fun hzero => ?_, fun d e hne hd he => ?_⟩
    · rw [State.afterTraining_img, State.trained_img]
    · rw [hzero, show (0 : BitVec 64).toNat = 0 from rfl, failedDevices_zero, State.afterTraining_none, State.trained_phase, State.trained_img]
      simp only [and_true]
    · exact State.afterTraining_two _ (mem_failedDevices hd) (mem_failedDevices he) (fun hval => hne (Fin.ext hval))
  case notApply =>
    have hfin : Finishes .apply s (apply s) := done_runs h
    rwa [apply_ignored s hnot] at hfin
  case applied =>
    have hfin : Finishes .apply s (apply s) := done_runs h
    rw [apply_eq s hp hnone] at hfin
    refine ⟨_, hfin, ?_, ?_⟩
    · rw [State.tickCommit_img, State.loaded_img_sections]
    · rw [State.tickCommit_mem, State.loaded_mem_initDone]
  case commits =>
    have hfin : Finishes .apply s (apply s) := done_runs h
    rw [apply_eq s hp hnone] at hfin
    obtain ⟨x, hcommits, hreq, hdev, hocts⟩ := s.loaded.startCommit_waits
    refine ⟨_, x, hfin, ?_, hreq, hdev, hocts⟩
    rw [hcommits, State.loaded_eng s hempty]
  case noKey =>
    have hfin : Finishes (.restart req key) s (s.restart key.toNat) := done_runs h
    rwa [State.restart_other s (fun heq => hkey (BitVec.eq_of_toNat_eq heq))] at hfin
  case restarted =>
    have hfin : Finishes (.restart req 0xA5#8) s (s.restart 0xA5) := done_runs h
    rw [State.restart_keyed] at hfin
    refine ⟨_, hfin, ?_, ?_, ?_⟩
    · rw [State.startFeed_phase, State.afterReset_phase]
    · rw [State.startFeed_host, State.afterReset_link]
    · rw [State.startFeed_store, State.afterReset_store]

end Sys2Proof.Machine
end

section
/-!
PROOF. Slot checks, flash, fuses, reports and key slots (R358, R362, R364, R366, R369, R372). Settles O56.
-/

namespace Sys2Proof.Machine

/-! ### A write folded changes of the image's state the digest and its count alone (R362) -/

section
variable (s : State) {β : Type} (q : Img → β) (hq : ∀ (x : Img) (d : List Byte) (n : Nat), q { x with d := d, folds := n } = q x)
include hq

theorem State.foldWritten_img (req key : Nat) (rec : List Byte) : q (s.foldWritten req key rec).img = q s.img := by
  unfold State.foldWritten
  split
  · rfl
  · exact hq _ _ _

theorem State.foldWrite_img (req k : Nat) : q (s.foldWrite req k).img = q s.img := by
  unfold State.foldWrite State.foldValue
  split
  · rfl
  · split
    · rfl
    · exact s.foldWritten_img q hq _ _ _

theorem State.foldWrites_img (req off : Nat) (insts : List Nat) : q (s.foldWrites req off insts).img = q s.img := by
  unfold State.foldWrites
  induction insts generalizing s with
  | nil => rfl
  | cons i l ih => rw [List.foldl_cons, ih, State.foldWrite_img _ q hq]

end

/-! ### Slot checks (R372) -/

section
variable (s : State)

theorem State.imgVerify_runs (h : s.on F.IMG_VERIFY_BUSY 0 = true) : s.imgVerify = s := if_pos h

theorem State.imgVerify_starts (h : s.on F.IMG_VERIFY_BUSY 0 = false) : s.imgVerify =
    ({ s with img := { s.img with verify := some (s.rd F.IMG_VERIFY_SLOT 0) } } : State).wr F.IMG_VERIFY_BUSY 0 1 := if_neg (by simp [h])

theorem imgVerifyDone_none (z : SlotImage) (h : s.img.verify = none) : imgVerifyDone z s = s := by
  unfold imgVerifyDone
  rw [h]

/-- The result of a check shown. -/
def State.verifyShown (s : State) (z : SlotImage) : State :=
  (((s.wr F.IMG_VERIFY_BUSY 0 0).wrB F.IMG_VERIFY_PASS 0 (s.verifyCause z == 0)).wr F.IMG_VERIFY_SVN 0 z.svn).wr F.IMG_VERIFY_CAUSE 0
    (s.verifyCause z)

theorem imgVerifyDone_some {z : SlotImage} {v : Nat} (h : s.img.verify = some v) : ∃ x : Img, x.verify = none ∧
    imgVerifyDone z s = { s.verifyShown z with img := x } := by
  unfold imgVerifyDone
  rw [h]
  exact ⟨_, rfl, rfl⟩

theorem State.verifyCause_le (z : SlotImage) : s.verifyCause z ≤ 8 := by
  have hslot : s.slotCause z ≤ 7 := by
    unfold State.slotCause
    repeat' split
    all_goals decide
  unfold State.verifyCause
  repeat' split
  · omega
  · decide
  · decide

theorem State.verifyCause_zero {z : SlotImage} (h : s.verifyCause z = 0) : z.digestsOk = true := by
  unfold State.verifyCause at h
  split at h
  next hne => simp [h] at hne
  next =>
    split at h
    · assumption
    · cases h

theorem State.verifyShown_result (z : SlotImage) : (s.verifyShown z).on F.IMG_VERIFY_BUSY 0 = false ∧
    (s.verifyShown z).on F.IMG_VERIFY_PASS 0 = (s.verifyCause z == 0) ∧ (s.verifyShown z).rd F.IMG_VERIFY_SVN 0 = z.svn % 128 ∧
    (s.verifyShown z).rd F.IMG_VERIFY_CAUSE 0 = s.verifyCause z := by
  have hlt : s.verifyCause z < 2 ^ 8 := Nat.lt_of_le_of_lt (s.verifyCause_le z) (by decide)
  unfold State.verifyShown State.wrB State.on
  refine ⟨?_, ?_, ?_, (State.rd_wr_same _ F.IMG_VERIFY_CAUSE 0 _ ⟨by decide, by decide⟩).trans (Nat.mod_eq_of_lt hlt)⟩
  · rw [State.rd_wr_clear _ _ _ _ (by decide), State.rd_wr_clear _ _ _ _ (by decide), State.rd_wr_clear _ _ _ _ (by decide),
      State.rd_wr_held _ _ (f := F.IMG_VERIFY_BUSY) (by decide)]
    rfl
  · rw [State.rd_wr_clear _ _ _ _ (by decide), State.rd_wr_clear _ _ _ _ (by decide)]
    cases s.verifyCause z == 0 with
    | false => rw [State.rd_wr_held _ _ (f := F.IMG_VERIFY_PASS) (by decide)]; rfl
    | true => rw [State.rd_wr_held _ _ (f := F.IMG_VERIFY_PASS) (by decide)]; rfl
  · rw [State.rd_wr_clear _ _ _ _ (by decide)]
    exact State.rd_wr_same _ F.IMG_VERIFY_SVN 0 _ ⟨by decide, by decide⟩

/-! ### Flash commands (R372) -/

/-- A flash command begun. -/
def State.flashBegun (s : State) (x : FlashCmd) : State :=
  ({ (s.wr F.IMG_FL_CTL_BUSY 0 1).wr F.IMG_FL_CTL_ERR 0 0 with img := { s.img with flash := some x } } : State).emit (.flash x.op x.addr x.bytes)

theorem State.flashGo_runs (op : Nat) (h : s.on F.IMG_FL_CTL_BUSY 0 = true) : s.flashGo op = s := if_pos h

theorem State.flashGo_refused {op : Nat} (h : s.on F.IMG_FL_CTL_BUSY 0 = false) (hop : op ≠ 0) (hreads : s.startReads = true) :
    s.flashGo op = s.wr F.IMG_FL_CTL_ERR 0 1 := by
  unfold State.flashGo
  rw [if_neg (by simp [h]), if_pos (by simp [hop, hreads])]

theorem State.flashGo_begins {op : Nat} (h : s.on F.IMG_FL_CTL_BUSY 0 = false) (hfree : op = 0 ∨ s.startReads = false) :
    ∃ x : FlashCmd, x.op = op ∧ s.flashGo op = s.flashBegun x := by
  unfold State.flashGo
  rw [if_neg (by simp [h]), if_neg (by rcases hfree with hfree | hfree <;> simp [hfree])]
  exact ⟨_, rfl, rfl⟩

theorem State.flashBegun_rd (x : FlashCmd) {g : Fld} (hbusy : F.IMG_FL_CTL_BUSY.clearOf g = true) (herr : F.IMG_FL_CTL_ERR.clearOf g = true) :
    (s.flashBegun x).rd g 0 = s.rd g 0 := by
  rw [State.flashBegun, State.rd_emit, State.rd_withImg, State.rd_wr_clear _ _ _ _ herr, State.rd_wr_clear _ _ _ _ hbusy]

theorem State.flashBegun_busy (x : FlashCmd) : (s.flashBegun x).on F.IMG_FL_CTL_BUSY 0 = true := by
  rw [State.on, State.flashBegun, State.rd_emit, State.rd_withImg, State.rd_wr_clear _ _ _ _ (by decide),
    State.rd_wr_held _ _ (f := F.IMG_FL_CTL_BUSY) (by decide)]
  rfl

theorem State.flashBegun_flash (x : FlashCmd) : (s.flashBegun x).img.flash = some x := rfl
theorem State.flashBegun_out (x : FlashCmd) : (s.flashBegun x).out = .flash x.op x.addr x.bytes :: s.out := rfl

/-- A command's operation shown, and the command given. -/
def State.flashCommand (s : State) (op : Nat) : State := (s.wr F.IMG_FL_CTL_OP 0 op).flashGo op

theorem State.flashOp_startReads (op : Nat) : (s.wr F.IMG_FL_CTL_OP 0 op).startReads = s.startReads := by
  unfold State.startReads State.phase
  rw [State.rd_wr_clear _ _ _ _ (by decide)]
  rfl

theorem State.flashOp_busy (op : Nat) : (s.wr F.IMG_FL_CTL_OP 0 op).on F.IMG_FL_CTL_BUSY 0 = s.on F.IMG_FL_CTL_BUSY 0 :=
  s.on_wr_clear _ _ _ (by decide)

theorem State.flashCommand_op {op : Nat} (hop : op < 4) : (s.flashCommand op).rd F.IMG_FL_CTL_OP 0 = op := by
  have hshown : (s.wr F.IMG_FL_CTL_OP 0 op).rd F.IMG_FL_CTL_OP 0 = op :=
    (State.rd_wr_same _ F.IMG_FL_CTL_OP 0 op ⟨by decide, by decide⟩).trans (Nat.mod_eq_of_lt hop)
  unfold State.flashCommand
  cases hbusy : (s.wr F.IMG_FL_CTL_OP 0 op).on F.IMG_FL_CTL_BUSY 0 with
  | true => rw [State.flashGo_runs _ op hbusy, hshown]
  | false =>
    rcases Classical.em (op = 0 ∨ (s.wr F.IMG_FL_CTL_OP 0 op).startReads = false) with hfree | hnot
    · obtain ⟨x, -, hx⟩ := State.flashGo_begins _ hbusy hfree
      rw [hx, State.flashBegun_rd _ _ (by decide) (by decide), hshown]
    · obtain ⟨hne, hreads⟩ := not_or.mp hnot
      rw [State.flashGo_refused _ hbusy hne (Bool.not_eq_false _ ▸ hreads), State.rd_wr_clear _ _ _ _ (by decide), hshown]

theorem State.flashCommand_runs (op : Nat) (h : s.on F.IMG_FL_CTL_BUSY 0 = true) :
    (s.flashCommand op).img.flash = s.img.flash ∧ (s.flashCommand op).out = s.out := by
  rw [State.flashCommand, State.flashGo_runs _ op ((s.flashOp_busy op).trans h)]
  exact ⟨rfl, rfl⟩

theorem State.flashCommand_begins {op : Nat} (h : s.on F.IMG_FL_CTL_BUSY 0 = false) (hfree : op = 0 ∨ s.startReads = false) :
    (s.flashCommand op).img.flash.map (·.op) = some op ∧ (s.flashCommand op).on F.IMG_FL_CTL_BUSY 0 = true ∧
      (s.flashCommand op).out.length = s.out.length + 1 := by
  obtain ⟨x, hop, hx⟩ := State.flashGo_begins (op := op) (s.wr F.IMG_FL_CTL_OP 0 op) ((s.flashOp_busy op).trans h)
    (hfree.imp_right (s.flashOp_startReads op).trans)
  rw [State.flashCommand, hx, State.flashBegun_flash, State.flashBegun_out, Option.map_some, hop]
  exact ⟨rfl, State.flashBegun_busy _ _, rfl⟩

theorem State.flashCommand_refused {op : Nat} (h : s.on F.IMG_FL_CTL_BUSY 0 = false) (hop : op ≠ 0) (hreads : s.startReads = true) :
    (s.flashCommand op).on F.IMG_FL_CTL_ERR 0 = true ∧ (s.flashCommand op).out = s.out := by
  rw [State.flashCommand, State.flashGo_refused _ ((s.flashOp_busy op).trans h) hop ((s.flashOp_startReads op).trans hreads), State.on,
    State.rd_wr_held _ _ (f := F.IMG_FL_CTL_ERR) (by decide)]
  exact ⟨rfl, rfl⟩

/-- Each of the three commands is one operation. -/
theorem flash_finishes {s : State} (h : s.Runs) {req : Fin 19} {c : Instr} {op : Nat}
    (hc : (c, op) ∈ [(Instr.flashRead req, 0), (.flashProgram req, 1), (.flashErase req, 2)]) :
    op < 4 ∧ Finishes c s ((s.flashCommand op).foldWrites req F.IMG_FL_CTL.off [0]) := by
  simp only [List.mem_cons, List.not_mem_nil, or_false, Prod.mk.injEq] at hc
  rcases hc with ⟨rfl, rfl⟩ | ⟨rfl, rfl⟩ | ⟨rfl, rfl⟩
  · exact ⟨by decide, done_runs h⟩
  · exact ⟨by decide, done_runs h⟩
  · exact ⟨by decide, done_runs h⟩

theorem flashCommandDone_none (ok : Bool) (data : List Byte) (h : s.img.flash = none) : flashCommandDone ok data s = s := by
  unfold flashCommandDone
  rw [h]

/-- A command's end shown. -/
def State.flashEnded (s : State) (ok : Bool) : State :=
  (({ s with img := { s.img with flash := none } } : State).wr F.IMG_FL_CTL_BUSY 0 0).wrB F.IMG_FL_CTL_ERR 0 (!ok)

theorem flashCommandDone_some {ok : Bool} {data : List Byte} {x : FlashCmd} (h : s.img.flash = some x) : flashCommandDone ok data s =
    if ok && x.op = 0 then (s.flashEnded ok).fillBuf (exactly ((s.flashEnded ok).rd F.IMG_FL_CTL_LEN 0 + 1) data) else s.flashEnded ok := by
  unfold flashCommandDone
  rw [h]
  rfl

theorem State.getBytes_length (inst off n : Nat) : (s.getBytes inst off n).length ≤ n := List.length_take_le _ _

theorem State.fillBuf_rd {bs : List Byte} (hbs : bs.length ≤ 256) {g : Fld} (h : g.off < (F.IMG_FL_BUF 0).off) :
    (s.fillBuf bs).rd g 0 = s.rd g 0 := by
  have hlen : (bs ++ (s.getBytes 0 (F.IMG_FL_BUF 0).off 256).drop bs.length).length ≤ 512 := by
    have hbuf := s.getBytes_length 0 (F.IMG_FL_BUF 0).off 256
    rw [List.length_append, List.length_drop]
    omega
  have hoff : (F.IMG_FL_BUF 0).off = 0x10200 := rfl
  rw [hoff] at hlen
  rw [State.rd, State.fillBuf, State.putBytes_reg _ _ _ _ h (by rw [hoff, ceilDiv]; omega), ← State.rd]

theorem State.fillBuf_img (bs : List Byte) : (s.fillBuf bs).img = s.img := s.putBytes_img _ _ _

theorem State.flashEnded_result (ok : Bool) : (s.flashEnded ok).on F.IMG_FL_CTL_BUSY 0 = false ∧ (s.flashEnded ok).on F.IMG_FL_CTL_ERR 0 = !ok := by
  unfold State.flashEnded State.wrB State.on
  refine ⟨?_, ?_⟩
  · rw [State.rd_wr_clear _ _ _ _ (by decide), State.rd_wr_held _ _ (f := F.IMG_FL_CTL_BUSY) (by decide)]
    rfl
  · rw [State.rd_wr_held _ _ (f := F.IMG_FL_CTL_ERR) (by cases ok <;> decide)]
    cases ok <;> rfl

theorem State.flashEnded_flash (ok : Bool) : (s.flashEnded ok).img.flash = none := rfl

theorem flashCommandDone_result {ok : Bool} {data : List Byte} {x : FlashCmd} (h : s.img.flash = some x) :
    (flashCommandDone ok data s).img.flash = none ∧ (flashCommandDone ok data s).on F.IMG_FL_CTL_BUSY 0 = false ∧
      (flashCommandDone ok data s).on F.IMG_FL_CTL_ERR 0 = !ok := by
  obtain ⟨hbusy, herr⟩ := s.flashEnded_result ok
  have hlen : (exactly ((s.flashEnded ok).rd F.IMG_FL_CTL_LEN 0 + 1) data).length ≤ 256 := by
    rw [length_exactly]
    exact getF_lt _ F.IMG_FL_CTL_LEN
  rw [flashCommandDone_some s h]
  split
  · rw [State.fillBuf_img, State.on, State.on, State.fillBuf_rd _ hlen (by decide), State.fillBuf_rd _ hlen (by decide)]
    exact ⟨s.flashEnded_flash ok, hbusy, herr⟩
  · exact ⟨s.flashEnded_flash ok, hbusy, herr⟩

/-! ### Fuses (R358) -/

theorem State.advance_runs (h : s.on F.IMG_FUSE_CTL_BUSY 0 = true) : s.advance = s := by
  unfold State.advance
  exact if_pos h

/-- The fuses advance in RUN, to an SVN above theirs that the other slot has too. -/
def State.mayAdvance (s : State) : Prop := s.phase = phRun ∧ s.rd F.IMG_STAT_FUSE_SVN 0 < s.rd F.IMG_STAT_SVN 0 ∧
  ∃ v, s.img.otherSvn = some v ∧ s.rd F.IMG_STAT_SVN 0 ≤ v

theorem State.advance_refused (hbusy : s.on F.IMG_FUSE_CTL_BUSY 0 = false) (h : ¬s.mayAdvance) :
    s.advance = s.wr F.IMG_FUSE_CTL_REFUSED 0 1 := by
  unfold State.advance
  dsimp only
  rw [if_neg (by simp [hbusy])]
  refine if_pos ?_
  by_contra hnot
  simp only [Bool.or_eq_true, bne_iff_ne, decide_eq_true_eq, Bool.not_eq_true', not_or, not_not, Nat.not_le, Bool.not_eq_false] at hnot
  obtain ⟨⟨hrun, hlt⟩, hother⟩ := hnot
  cases hv : s.img.otherSvn with
  | none => simp [hv] at hother
  | some v => exact h ⟨hrun, hlt, v, hv, by simpa [hv] using hother⟩

theorem State.advance_begins (hbusy : s.on F.IMG_FUSE_CTL_BUSY 0 = false) (h : s.mayAdvance) : s.advance =
    ((s.wr F.IMG_FUSE_CTL_REFUSED 0 0).wr F.IMG_FUSE_CTL_BUSY 0 1).emit
      (.fuses (s.rd F.IMG_STAT_SVN 0 - s.rd F.IMG_STAT_FUSE_SVN 0)) := by
  obtain ⟨hrun, hlt, v, hv, hle⟩ := h
  unfold State.advance
  dsimp only
  rw [if_neg (by simp [hbusy]), if_neg (by simp [hrun, hv, hle, Nat.not_le.mpr hlt])]

theorem fuseAdvanceDone_ignored (h : s.on F.IMG_FUSE_CTL_BUSY 0 = false) : fuseAdvanceDone s = s := if_neg (by simp [h])

theorem fuseAdvanceDone_done (h : s.on F.IMG_FUSE_CTL_BUSY 0 = true) : fuseAdvanceDone s =
    (s.wr F.IMG_FUSE_CTL_BUSY 0 0).wr F.IMG_STAT_FUSE_SVN 0 (s.rd F.IMG_STAT_SVN 0) := if_pos h

/-! ### Reports (R362, R364) -/

theorem queueReq_mem (r : Nat) (l : List Nat) : r ∈ queueReq r l := by
  cases l with
  | nil => exact List.mem_singleton.mpr rfl
  | cons h t => exact List.mem_cons_of_mem _ (List.mem_append_right _ List.mem_cons_self)

theorem queueReq_head (r : Nat) (l : List Nat) : (queueReq r l).head? = some (l.headD r) := by
  cases l <;> rfl

theorem State.attRequest_runs {req : Nat} (h : s.on F.IMG_ATT_CTL_BUSY req = true) : s.attRequest req = s := if_pos h

/-- A requester's report asked for. -/
def State.attShown (s : State) (req : Nat) : State := (s.wr F.IMG_ATT_CTL_BUSY req 1).wr F.IMG_ATT_CTL_DONE req 0

theorem State.attRequest_asks {req : Nat} (h : s.on F.IMG_ATT_CTL_BUSY req = false) :
    s.attRequest req = { s.attShown req with img := { s.img with attQ := queueReq req s.img.attQ } } := if_neg (by simp [h])

theorem State.attShown_result (req : Nat) : (s.attShown req).rd F.IMG_ATT_CTL_BUSY req = 1 ∧ (s.attShown req).rd F.IMG_ATT_CTL_DONE req = 0 := by
  unfold State.attShown
  refine ⟨?_, State.rd_wr_held _ _ (by decide)⟩
  rw [State.rd_wr_clear _ _ _ _ (by decide)]
  exact State.rd_wr_held _ _ (by decide)

theorem reportReady_none (h : s.img.attQ = []) : reportReady s = s := by
  unfold reportReady
  rw [h]

theorem reportReady_unheard {r : Nat} {rest : List Nat} (h : s.img.attQ = r :: rest) (hr : unheard ≤ r) :
    reportReady s = { s with img := { s.img with attQ := rest } } := by
  unfold reportReady
  rw [h]
  exact if_pos hr

/-- A report ready for its requester. -/
def State.reportShown (s : State) (req : Nat) : State := (s.wr F.IMG_ATT_CTL_BUSY req 0).wr F.IMG_ATT_CTL_DONE req 1

theorem reportReady_served {r : Nat} {rest : List Nat} (h : s.img.attQ = r :: rest) (hr : r < unheard) : ∃ bytes,
    reportReady s = { (s.putBytes r (F.IMG_ATT_BUF 0).off bytes).reportShown r with
      img := { (s.putBytes r (F.IMG_ATT_BUF 0).off bytes).img with attQ := rest } } := by
  unfold reportReady
  rw [h]
  dsimp only
  rw [if_neg (Nat.not_le.mpr hr)]
  exact ⟨_, rfl⟩

theorem State.reportShown_result (req : Nat) :
    (s.reportShown req).rd F.IMG_ATT_CTL_BUSY req = 0 ∧ (s.reportShown req).rd F.IMG_ATT_CTL_DONE req = 1 := by
  unfold State.reportShown
  refine ⟨?_, State.rd_wr_held _ _ (by decide)⟩
  rw [State.rd_wr_clear _ _ _ _ (by decide)]
  exact State.rd_wr_held _ _ (by decide)

theorem State.rdigLatch_result (req : Nat) : tget (fun _ => []) (s.rdigLatch req).rdata req = (exactly 64 s.img.d).take 4 ∧
    (s.rdigLatch req).rd F.IMG_RDIG_CNT_LO req = s.img.folds % 2 ^ 32 ∧ (s.rdigLatch req).img = s.img := by
  unfold State.rdigLatch
  refine ⟨State.answer_rdata _ _ _, ?_, s.putBytes_img _ _ _⟩
  rw [State.rd_answer, State.rd_wr_clear _ _ _ _ (by decide), State.putBytes_img]
  exact State.rd_wr_same _ F.IMG_RDIG_CNT_LO req _ ⟨by decide, by decide⟩

end

/-! ### Key slots (R366, R369) -/

section
variable (s : State) (c t : Nat)

/-- Which of a terminal's slots hold both keys, as bits. -/
def State.fullMask (s : State) (c t : Nat) : Nat := (List.range 4).foldl (fun v k => if s.slotFull c t k then v + 2 ^ k else v) 0

theorem State.showSlots_eq : s.showSlots c t =
    (s.wr (F.CH_PP_INSTALLED t) c (s.fullMask c t)).wrB (F.CH_PP_CUR_VALID t) c (bit (s.fullMask c t) (s.rd (F.CH_PP_CUR t) c)) := rfl

/-- The mask of four slots. -/
def mask4 (a b c d : Bool) : Nat := a.toNat + 2 * b.toNat + 4 * c.toNat + 8 * d.toNat

theorem State.fullMask_eq : s.fullMask c t = mask4 (s.slotFull c t 0) (s.slotFull c t 1) (s.slotFull c t 2) (s.slotFull c t 3) := by
  unfold State.fullMask
  rw [show List.range 4 = [0, 1, 2, 3] from rfl]
  simp only [List.foldl_cons, List.foldl_nil]
  cases s.slotFull c t 0 <;> cases s.slotFull c t 1 <;> cases s.slotFull c t 2 <;> cases s.slotFull c t 3 <;> rfl

theorem mask4_facts : ∀ a b c d : Bool, mask4 a b c d < 16 ∧ bit (mask4 a b c d) 0 = a ∧ bit (mask4 a b c d) 1 = b ∧
    bit (mask4 a b c d) 2 = c ∧ bit (mask4 a b c d) 3 = d := by decide

theorem State.fullMask_lt : s.fullMask c t < 16 := by
  rw [State.fullMask_eq]
  exact (mask4_facts _ _ _ _).1

theorem State.fullMask_bit {k : Nat} (hk : k < 4) : bit (s.fullMask c t) k = s.slotFull c t k := by
  rw [State.fullMask_eq]
  obtain ⟨-, h0, h1, h2, h3⟩ := mask4_facts (s.slotFull c t 0) (s.slotFull c t 1) (s.slotFull c t 2) (s.slotFull c t 3)
  match k, hk with
  | 0, _ => exact h0
  | 1, _ => exact h1
  | 2, _ => exact h2
  | 3, _ => exact h3

theorem CH_PP_clear {t : Nat} (ht : t < 32) : (F.CH_PP_CUR_VALID t).clearOf (F.CH_PP_INSTALLED t) = true := by
  have hall : ∀ t < 32, (F.CH_PP_CUR_VALID t).clearOf (F.CH_PP_INSTALLED t) = true := by decide
  exact hall t ht

theorem State.showSlots_installed {t : Nat} (ht : t < 32) : (s.showSlots c t).rd (F.CH_PP_INSTALLED t) c = s.fullMask c t := by
  rw [State.showSlots_eq, State.wrB, State.rd_wr_clear _ _ _ _ (CH_PP_clear ht)]
  exact (State.rd_wr_same _ (F.CH_PP_INSTALLED t) c _ ⟨Nat.le_of_ble_eq_true rfl, Nat.le_of_ble_eq_true rfl⟩).trans
    (Nat.mod_eq_of_lt (s.fullMask_lt c t))

theorem State.showSlots_keys : (s.showSlots c t).img = s.img := rfl

theorem State.payKey_setKey (k dir : Nat) (key : List Byte) : (s.setKey c t k dir key).payKey c t k dir = key := tget_tput_same _ _ _ _

/-- A key erased stays erased through another erasure. -/
theorem State.payKey_setKey_none {k dir : Nat} (k' dir' : Nat) (h : s.payKey c t k dir = []) : (s.setKey c t k' dir' []).payKey c t k dir = [] := by
  unfold State.payKey State.setKey at *
  rcases eq_or_ne (keyIx c t k dir) (keyIx c t k' dir') with heq | hne
  · rw [heq]
    exact tget_tput_same _ _ _ _
  · exact (tget_tput_ne _ _ _ hne).trans h

/-- A slot's two keys erased. -/
def State.dropSlot (s : State) (c t k : Nat) : State := (s.setKey c t k 0 []).setKey c t k 1 []

theorem State.dropSlot_keys (k : Nat) : (s.dropSlot c t k).payKey c t k 0 = [] ∧ (s.dropSlot c t k).payKey c t k 1 = [] :=
  ⟨State.payKey_setKey_none _ _ _ _ _ (State.payKey_setKey _ _ _ _ _ _), State.payKey_setKey _ _ _ _ _ _⟩

theorem State.slotFull_false {k : Nat} (h : s.payKey c t k 0 = []) : s.slotFull c t k = false := by simp [State.slotFull, h]

theorem State.dropSlot_keeps {k j : Nat} (h : s.payKey c t k 0 = []) : (s.dropSlot c t j).payKey c t k 0 = [] :=
  State.payKey_setKey_none _ _ _ _ _ (State.payKey_setKey_none _ _ _ _ _ h)

/-- A terminal's slots erased. -/
def State.dropTerm (s : State) (c t : Nat) : State := (List.range 4).foldl (fun s k => s.dropSlot c t k) s

theorem State.eraseTerm_eq : s.eraseTerm c t = (s.dropTerm c t).showSlots c t := rfl

theorem State.dropTerm_keys {k : Nat} (hk : k < 4) : (s.dropTerm c t).payKey c t k 0 = [] :=
  foldl_range_holds (P := fun k u => u.payKey c t k 0 = []) (fun u i => (u.dropSlot_keys c t i).1)
    (fun u _ _ _ h => u.dropSlot_keeps c t h) s hk

theorem State.dropTerm_mask : (s.dropTerm c t).fullMask c t = 0 := by
  have hempty {k : Nat} (hk : k < 4) : (s.dropTerm c t).slotFull c t k = false := State.slotFull_false _ _ _ (s.dropTerm_keys c t hk)
  rw [State.fullMask_eq, hempty (by decide), hempty (by decide), hempty (by decide), hempty (by decide)]
  rfl

theorem bit_zero (i : Nat) : bit 0 i = false := by
  unfold bit
  rw [Nat.zero_div]
  rfl

theorem State.eraseTerm_shown {t : Nat} (ht : t < 32) :
    (s.eraseTerm c t).rd (F.CH_PP_INSTALLED t) c = 0 ∧ (s.eraseTerm c t).rd (F.CH_PP_CUR_VALID t) c = 0 := by
  rw [State.eraseTerm_eq]
  refine ⟨(State.showSlots_installed _ c ht).trans (s.dropTerm_mask c t), ?_⟩
  rw [State.showSlots_eq, State.wrB, s.dropTerm_mask c t, bit_zero]
  exact State.rd_wr_held _ _ (f := F.CH_PP_CUR_VALID t) rfl

theorem State.dropTerm_rd (f : Fld) (i : Nat) : (s.dropTerm c t).rd f i = s.rd f i := by
  unfold State.dropTerm
  refine foldl_keeps (fun u => u.rd f i) (fun u k => ?_) _ _
  rfl

theorem State.eraseTerm_other {j : Nat} (h : t ≠ j) : (s.eraseTerm c j).rd (F.CH_PP_INSTALLED t) c = s.rd (F.CH_PP_INSTALLED t) c := by
  have hkey : rkey c (F.CH_PP_INSTALLED t).off ≠ rkey c (F.CH_PP_INSTALLED j).off := by
    show c * 0x100000 + (0x41840 + 4 * t) ≠ c * 0x100000 + (0x41840 + 4 * j)
    omega
  rw [State.eraseTerm_eq, State.showSlots_eq, State.wrB, State.rd, State.reg_wr_ne _ (f := F.CH_PP_CUR_VALID j) _ hkey,
    State.reg_wr_ne _ (f := F.CH_PP_INSTALLED j) _ hkey, ← State.rd, State.dropTerm_rd]

theorem State.eraseChannel_shown {t : Nat} (ht : t < 32) : (s.eraseChannel c).rd (F.CH_PP_INSTALLED t) c = 0 :=
  foldl_range_holds (P := fun t u => t < 32 → u.rd (F.CH_PP_INSTALLED t) c = 0) (fun u _ hi => (u.eraseTerm_shown c hi).1)
    (fun u i _ hij h hi => (u.eraseTerm_other c i hij).trans (h hi)) s ht ht

/-! ### Operations on one channel (R366) -/

variable (req : Nat)

/-- The code of an operation kept for a requester and channel. -/
def State.ppNoted (s : State) (req c op : Nat) : State := s.wr F.CH_PP_CTL_OP (ppInst req c) op

theorem State.ppNoted_tid (op : Nat) : (s.ppNoted req c op).ppTid req c = s.ppTid req c := by
  unfold State.ppTid State.role State.ppNoted
  rw [State.rd_wr_clear _ _ _ _ (by decide), State.rd_wr_clear _ _ _ _ (by decide)]

theorem State.ppNoted_rd {g : Fld} (i op : Nat) (h : F.CH_PP_CTL_OP.clearOf g = true) : (s.ppNoted req c op).rd g i = s.rd g i :=
  s.rd_wr_clear _ _ _ h

theorem State.ppNoted_key (i op : Nat) : (s.ppNoted req c op).getBytes i (F.CH_PP_KEY_W 0).off 32 = s.getBytes i (F.CH_PP_KEY_W 0).off 32 := by
  have hword : ∀ k ∈ List.range (ceilDiv 32 4), (s.ppNoted req c op).reg i ((F.CH_PP_KEY_W 0).off + 4 * k) = s.reg i ((F.CH_PP_KEY_W 0).off + 4 * k) := by
    intro k hk
    have hlt : k < 8 := List.mem_range.mp hk
    exact s.reg_wr_ne _ (f := F.CH_PP_CTL_OP) (rkey_ne_of_off (show 0x41804 + 4 * k < 0x100000 by omega) (by decide)
      (show 0x41804 + 4 * k ≠ 0x41800 by omega))
  unfold State.getBytes
  rw [List.flatMap_congr fun k hk => by rw [hword k hk]]

theorem State.ppTid_lt : s.ppTid req c < 32 := by
  unfold State.ppTid
  split
  · decide
  · exact getF_lt _ F.CH_PP_CTL_TID

theorem State.ppSlot_lt (i : Nat) : s.rd F.CH_PP_CTL_SLOT i < 4 := getF_lt _ F.CH_PP_CTL_SLOT

theorem State.showSlots_payKey (t' k dir : Nat) : (s.showSlots c t).payKey c t' k dir = s.payKey c t' k dir := by
  rw [State.payKey, State.showSlots_keys, ← State.payKey]

variable {req c} (h : s.ppChans req = [c])
include h

theorem State.ppOp_single (op : Nat) : s.ppOp req op = s.ppNoted req c op := by
  rw [State.ppOp, h]
  rfl

theorem writeSlot_single : writeSlot req s = ((s.ppNoted req c 0).setKey c (s.ppTid req c) (s.rd F.CH_PP_CTL_SLOT (ppInst req c))
    (s.rd F.CH_PP_CTL_DIR (ppInst req c)) (s.getBytes (ppInst req c) (F.CH_PP_KEY_W 0).off 32)).showSlots c (s.ppTid req c) := by
  rw [writeSlot, s.ppOp_single h, h, List.foldl_cons, List.foldl_nil, State.writeSlot]
  rw [s.ppNoted_tid, s.ppNoted_key, s.ppNoted_rd _ _ _ _ (by decide), s.ppNoted_rd _ _ _ _ (by decide)]

theorem eraseSlot_single : eraseSlot req s =
    ((s.ppNoted req c 1).dropSlot c (s.ppTid req c) (s.rd F.CH_PP_CTL_SLOT (ppInst req c))).showSlots c (s.ppTid req c) := by
  rw [eraseSlot, s.ppOp_single h, h, List.foldl_cons, List.foldl_nil, State.eraseSlot]
  rw [s.ppNoted_tid, s.ppNoted_rd _ _ _ _ (by decide), State.dropSlot]

theorem eraseTid_single : eraseTid req s = (s.ppNoted req c 2).eraseTerm c (s.ppTid req c) := by
  rw [eraseTid, s.ppOp_single h, h, List.foldl_cons, List.foldl_nil, State.eraseTid, s.ppNoted_tid]

theorem eraseChannel_single : eraseChannel req s = (s.ppNoted req c 3).eraseChannel c := by
  rw [eraseChannel, s.ppOp_single h, h, List.foldl_cons, List.foldl_nil]

theorem change_single (t : Nat) : change req t s = s.wr (F.CH_PP_CHANGE t) c 1 := by
  rw [change, h, List.foldl_cons, List.foldl_nil]

theorem eraseSlot_installed : bit ((eraseSlot req s).rd (F.CH_PP_INSTALLED (s.ppTid req c)) c) (s.rd F.CH_PP_CTL_SLOT (ppInst req c)) = false := by
  rw [eraseSlot_single s h, State.showSlots_installed _ c (s.ppTid_lt c req), State.fullMask_bit _ _ _ (s.ppSlot_lt _)]
  exact State.slotFull_false _ _ _ (State.dropSlot_keys _ _ _ _).1

end

/-- Settles O56: each service by what runs already, the start's state and the fuses; a key slot by the channel selected. -/
theorem imageServices : Obligations.ImageServices := by
  unfold Obligations.ImageServices
  intro s h
  refine ⟨fun req hidle => ?verifies, fun req hbusy => ?verifyRuns, fun chk hnone => ?noCheck, fun z v hv => ?checked,
    fun z => s.verifyCause_zero, fun req c op hc => ?flash, fun ok data hnone => ?noFlash, fun ok data x hx => ?flashDone,
    fun req hbusy => ?blowing, fun req hidle hnot => ?fusesRefused, fun req v hidle hrun hlt hv hle => ?fuses, fun hidle => ?notBlowing,
    fun hbusy => ?blown, fun req hbusy => ?asked, fun req hidle => ?asks, fun hnone => ?noReport, fun r rest hq hr => ?unheard,
    fun r rest hq hr => ?report, fun req => ⟨_, done_runs h, s.rdigLatch_result req⟩,
    fun req htakes => ⟨doneWrite_takes htakes, doneWrite_takes htakes, doneWrite_takes htakes, doneWrite_takes htakes,
      fun t => doneWrite_takes htakes⟩, fun req c htakes hch hc t k ht hk => ?slots⟩
  case verifies =>
    have hfin : Finishes (.imgVerify req) s (s.imgVerify.foldWrites req F.IMG_VERIFY.off [0]) := done_runs h
    rw [s.imgVerify_starts hidle] at hfin
    refine ⟨_, hfin, State.foldWrites_img _ Img.verify (fun _ _ _ => rfl) _ _ _, ?_⟩
    rw [State.on, State.foldWrites_rd, State.rd_wr_held _ _ (f := F.IMG_VERIFY_BUSY) (by decide)]
    rfl
  case verifyRuns =>
    have hfin : Finishes (.imgVerify req) s (s.imgVerify.foldWrites req F.IMG_VERIFY.off [0]) := done_runs h
    rw [s.imgVerify_runs hbusy] at hfin
    exact ⟨_, hfin, State.foldWrites_img _ Img.verify (fun _ _ _ => rfl) _ _ _, State.foldWrites_eff _ _ _ _⟩
  case noCheck =>
    have hfin : Finishes (.imgVerifyDone chk) s (imgVerifyDone chk s) := done_runs h
    rwa [imgVerifyDone_none s chk hnone] at hfin
  case checked =>
    have hfin : Finishes (.imgVerifyDone z) s (imgVerifyDone z s) := done_runs h
    obtain ⟨x, hx, hdone⟩ := imgVerifyDone_some s (z := z) hv
    rw [hdone] at hfin
    obtain ⟨hbusy, hpass, hsvn, hcause⟩ := s.verifyShown_result z
    refine ⟨_, hfin, hx, ?_, ?_, ?_, ?_⟩
    · rw [State.on, State.rd_withImg, ← State.on, hbusy]
    · rw [State.on, State.rd_withImg, ← State.on, hpass]
    · rw [State.rd_withImg, hsvn]
    · rw [State.rd_withImg, hcause]
  case flash =>
    obtain ⟨hop, hfin⟩ := flash_finishes h hc
    have himg : ((s.flashCommand op).foldWrites req F.IMG_FL_CTL.off [0]).img.flash = (s.flashCommand op).img.flash :=
      State.foldWrites_img _ Img.flash (fun _ _ _ => rfl) _ _ _
    refine ⟨_, hfin, (State.foldWrites_rd _ _ _ _ _ _).trans (s.flashCommand_op hop), fun hbusy => ?_, fun hidle hfree => ?_,
      fun hidle hne hreads => ?_⟩
    · rw [himg, State.foldWrites_out]
      exact s.flashCommand_runs op hbusy
    · rw [himg, State.foldWrites_out, State.on, State.foldWrites_rd, ← State.on]
      exact s.flashCommand_begins hidle hfree
    · rw [State.foldWrites_out, State.on, State.foldWrites_rd, ← State.on]
      exact s.flashCommand_refused hidle hne hreads
  case noFlash =>
    have hfin : Finishes (.flashCommandDone ok data) s (flashCommandDone ok data s) := done_runs h
    rwa [flashCommandDone_none s ok data hnone] at hfin
  case flashDone => exact ⟨_, done_runs h, flashCommandDone_result s hx⟩
  case blowing =>
    have hfin : Finishes (.advance req) s s.advance := done_runs h
    rwa [s.advance_runs hbusy] at hfin
  case fusesRefused =>
    have hfin : Finishes (.advance req) s s.advance := done_runs h
    refine s.advance_refused hidle ?_ ▸ hfin
    rintro ⟨hrun, hlt, v, hv, hle⟩
    rcases hnot with hnot | hnot | hnot | ⟨w, hw, hnot⟩
    · exact hnot hrun
    · omega
    · rw [hv] at hnot
      cases hnot
    · rw [hv] at hw
      cases hw
      omega
  case fuses =>
    have hfin : Finishes (.advance req) s s.advance := done_runs h
    rw [s.advance_begins hidle ⟨hrun, hlt, v, hv, hle⟩] at hfin
    refine ⟨_, hfin, rfl, ?_, ?_⟩
    · rw [State.on, State.rd_emit, State.rd_wr_held _ _ (f := F.IMG_FUSE_CTL_BUSY) (by decide)]
      rfl
    · rw [State.rd_emit, State.rd_wr_clear _ _ _ _ (by decide)]
      exact State.rd_wr_held _ _ (by decide)
  case notBlowing =>
    have hfin : Finishes .fuseAdvanceDone s (fuseAdvanceDone s) := done_runs h
    rwa [fuseAdvanceDone_ignored s hidle] at hfin
  case blown =>
    have hfin : Finishes .fuseAdvanceDone s (fuseAdvanceDone s) := done_runs h
    rw [fuseAdvanceDone_done s hbusy] at hfin
    refine ⟨_, hfin, ?_, ?_⟩
    · rw [State.on, State.rd_wr_clear _ _ _ _ (by decide), State.rd_wr_held _ _ (f := F.IMG_FUSE_CTL_BUSY) (by decide)]
      rfl
    · exact (State.rd_wr_same _ F.IMG_STAT_FUSE_SVN 0 _ ⟨by decide, by decide⟩).trans (Nat.mod_eq_of_lt (getF_lt _ F.IMG_STAT_SVN))
  case asked =>
    have hfin : Finishes (.attestationRequest req) s (s.attRequest req) := done_runs h
    rwa [s.attRequest_runs hbusy] at hfin
  case asks =>
    have hfin : Finishes (.attestationRequest req) s (s.attRequest req) := done_runs h
    rw [s.attRequest_asks hidle] at hfin
    obtain ⟨hbusy, hdone⟩ := s.attShown_result req
    refine ⟨_, hfin, queueReq_mem _ _, ?_, ?_, queueReq_head _ _⟩
    · rw [State.on, State.rd_withImg, hbusy]
      rfl
    · rw [State.on, State.rd_withImg, hdone]
      rfl
  case noReport =>
    have hfin : Finishes .reportReady s (reportReady s) := done_runs h
    rwa [reportReady_none s hnone] at hfin
  case unheard =>
    have hfin : Finishes .reportReady s (reportReady s) := done_runs h
    rwa [reportReady_unheard s hq hr] at hfin
  case report =>
    have hfin : Finishes .reportReady s (reportReady s) := done_runs h
    obtain ⟨bytes, hready⟩ := reportReady_served s hq hr
    rw [hready, State.putBytes_img] at hfin
    obtain ⟨hbusy, hdone⟩ := (s.putBytes r (F.IMG_ATT_BUF 0).off bytes).reportShown_result r
    refine ⟨_, hfin, rfl, ?_, ?_⟩
    · rw [State.on, State.rd_withImg, hbusy]
      rfl
    · rw [State.on, State.rd_withImg, hdone]
      rfl
  case slots =>
    subst ht hk
    refine ⟨⟨_, doneWrite_takes htakes, ?_⟩, ⟨_, doneWrite_takes htakes, ?_⟩, ⟨_, doneWrite_takes htakes, ?_⟩,
      ⟨_, doneWrite_takes htakes, fun t ht => ?_⟩, fun t => ⟨_, doneWrite_takes htakes, ?_⟩⟩
    · rw [writeSlot_single s hch, State.showSlots_payKey, State.payKey_setKey]
    · obtain ⟨hzero, hone⟩ := (s.ppNoted req c 1).dropSlot_keys c (s.ppTid req c) (s.rd F.CH_PP_CTL_SLOT (ppInst req c))
      refine ⟨?_, ?_, eraseSlot_installed s hch⟩
      · rw [eraseSlot_single s hch, State.showSlots_payKey, hzero]
      · rw [eraseSlot_single s hch, State.showSlots_payKey, hone]
    · rw [eraseTid_single s hch]
      exact State.eraseTerm_shown _ c (s.ppTid_lt c req)
    · rw [eraseChannel_single s hch]
      exact State.eraseChannel_shown _ c ht
    · rw [State.foldWrites_rd, change_single s hch]
      exact State.rd_wr_held _ _ (f := F.CH_PP_CHANGE t) rfl

end Sys2Proof.Machine
end

section
/-!
PROOF. Dozing channels, device standby and its exit, and the capo banks (R392, R393, R395 to R398). Settles O59.
-/

namespace Sys2Proof.Machine

/-! ### Doze and its end (R395) -/

section
variable (s : State) (req c : Nat)

theorem State.foldWrites_pwr {β : Type} (q : Pwr → β) (hq : ∀ (x : Pwr) (l : List (Nat × Nat)), q { x with sleepFolds := l } = q x)
    (off : Nat) (insts : List Nat) : q (s.foldWrites req off insts).pwr = q s.pwr := by
  have hone (s : State) (k : Nat) : q (s.foldWrite req k).pwr = q s.pwr := by
    unfold State.foldWrite
    split
    · exact hq _ _
    · rw [State.foldValue_frame]
  unfold State.foldWrites
  induction insts generalizing s with
  | nil => rfl
  | cons i l ih => rw [List.foldl_cons, ih, hone]

/-- A doze asked for. -/
def State.asksDoze (s : State) (req c : Nat) : State :=
  { s with pwr := { s.pwr with dozeReq := (c, req) :: s.pwr.dozeReq.filter (·.1 != c) } }

theorem doze_single (h : s.ppChans req = [c]) : doze req s = s.asksDoze req c := by
  rw [doze, h, List.foldl_cons, List.foldl_nil, State.asksDoze]

theorem undoze_single (h : s.ppChans req = [c]) : undoze req s = s.undozeChan c := by
  rw [undoze, h, List.foldl_cons, List.foldl_nil]

/-- A doze not yet begun given up. -/
def State.dropDoze (s : State) (c : Nat) : State := { s with pwr := { s.pwr with dozeReq := s.pwr.dozeReq.filter (·.1 != c) } }

theorem State.dropDoze_on (f : Fld) (i : Nat) : (s.dropDoze c).on f i = s.on f i := rfl

theorem State.undozeChan_eq : s.undozeChan c =
    if s.on F.CH_PWR_STAT_DOZING c then ((s.dropDoze c).wakes c).wr F.CH_PWR_STAT_DOZING c 0 else s.dropDoze c := rfl

theorem State.undozeChan_dozing : (s.undozeChan c).on F.CH_PWR_STAT_DOZING c = false := by
  rw [State.undozeChan_eq]
  cases h : s.on F.CH_PWR_STAT_DOZING c with
  | true =>
    rw [if_pos rfl, State.on, State.rd_wr_held _ _ (f := F.CH_PWR_STAT_DOZING) (by decide)]
    rfl
  | false => rw [if_neg Bool.false_ne_true, State.dropDoze_on, h]

theorem State.undozeChan_dozeReq : (s.undozeChan c).pwr.dozeReq = s.pwr.dozeReq.filter (·.1 != c) := by
  rw [State.undozeChan_eq]
  split <;> rfl

theorem State.undozeChan_waking (h : s.on F.CH_PWR_STAT_DOZING c = true) : c ∈ (s.undozeChan c).pwr.waking := by
  rw [State.undozeChan_eq, if_pos h]
  exact List.mem_cons_self

theorem dozeTxReady_ignored (h : s.pwr.waking.contains c = false) : dozeTxReady c s = s := if_pos (by rw [h]; rfl)

/-- A transmitter ready. -/
def State.txReady (s : State) (c : Nat) : State := { s with pwr := { s.pwr with waking := s.pwr.waking.filter (· != c) } }

theorem State.txReady_waking : c ∉ (s.txReady c).pwr.waking := by simp [State.txReady]

theorem State.txReady_rd (f : Fld) (i : Nat) : (s.txReady c).rd f i = s.rd f i := rfl

theorem dozeTxReady_ready (h : s.pwr.waking.contains c = true) : dozeTxReady c s =
    if (s.txReady c).rd F.CH_LANE_STAT_PWR c = pwrRxOnly then (s.txReady c).wr F.CH_LANE_STAT_PWR c pwrOn else s.txReady c :=
  if_neg (by rw [h]; decide)

theorem dozeTxReady_result (h : s.pwr.waking.contains c = true) : c ∉ (dozeTxReady c s).pwr.waking ∧
    (s.rd F.CH_LANE_STAT_PWR c = pwrRxOnly → (dozeTxReady c s).rd F.CH_LANE_STAT_PWR c = pwrOn) := by
  rw [dozeTxReady_ready s c h, State.txReady_rd]
  refine ⟨?_, fun hrx => ?_⟩
  · split <;> exact s.txReady_waking c
  · rw [if_pos hrx]
    exact State.rd_wr_held _ _ (by decide)

/-! ### Wake patterns (R396) -/

/-- Whether a protected frame is for the terminal of a channel. -/
def State.ownFrame (s : State) (c tid : Nat) (prot : Bool) : Bool :=
  s.role c == roleTerm && prot && s.on F.CH_TF_CFG_TID_VALID c && s.rd F.CH_TF_CFG_TID c == tid

/-- Whether a channel's wake detector takes a frame. -/
def State.hears (s : State) (c : Nat) (frame : List Byte) (bc own : Bool) : Prop :=
  s.detects c frame bc = true ∨ (own = true ∧ s.rd F.CH_TF_STAT_ALIGN c = alSync)

/-- A pattern met, counted and shown. -/
def State.patternShown (s : State) (c n : Nat) : State := (s.inc F.CH_WAKE_HITS c).wr F.CH_PWR_STAT_PAT c n

variable (frame : List Byte) (tid : Nat) (bc prot : Bool)

theorem wakePatternMatch_unheard (h : s.on F.CH_PWR_STAT_DOZING c = false ∨ ¬s.hears c frame bc (s.ownFrame c tid prot)) :
    wakePatternMatch c frame tid bc prot s = s := by
  refine if_pos ?_
  rcases h with h | h
  · simp [h]
  · rw [State.hears, State.ownFrame] at h
    rw [Bool.or_eq_true]
    refine .inr ?_
    rw [Bool.not_eq_true']
    by_contra hnot
    rw [Bool.not_eq_false, Bool.or_eq_true, Bool.and_eq_true, beq_iff_eq] at hnot
    exact h hnot

theorem wakePatternMatch_none (h : (List.range 8).find? (fun n => s.patMatches c n frame (s.ownFrame c tid prot)) = none) :
    wakePatternMatch c frame tid bc prot s = s := by
  rw [State.ownFrame] at h
  unfold wakePatternMatch
  dsimp only
  rw [h, ite_self]

theorem wakePatternMatch_met {n : Nat} (hdozing : s.on F.CH_PWR_STAT_DOZING c = true) (hhears : s.hears c frame bc (s.ownFrame c tid prot))
    (h : (List.range 8).find? (fun n => s.patMatches c n frame (s.ownFrame c tid prot)) = some n) :
    wakePatternMatch c frame tid bc prot s = wakeEvent (octOf c) wkPattern c (s.patternShown c n) := by
  rw [State.ownFrame] at h hhears
  unfold wakePatternMatch
  dsimp only
  rw [h]
  refine if_neg ?_
  rw [hdozing, Bool.not_true, Bool.false_or, Bool.not_eq_true', Bool.not_eq_false, Bool.or_eq_true, Bool.and_eq_true, beq_iff_eq]
  exact hhears

theorem State.patternShown_rd {g : Fld} (n : Nat) (hhits : F.CH_WAKE_HITS.clearOf g = true) (hpat : F.CH_PWR_STAT_PAT.clearOf g = true) :
    (s.patternShown c n).rd g c = s.rd g c := by
  rw [State.patternShown, State.rd_wr_clear _ _ _ _ hpat, State.rd_inc_clear _ _ _ hhits]

/-- A pattern met on a channel whose WAKE_PAT is 0 is only counted. -/
theorem wakeEvent_patternOff {n : Nat} (h : s.on F.CH_PWR_CTL_WAKE_PAT c = false) :
    wakeEvent (octOf c) wkPattern c (s.patternShown c n) = s.patternShown c n := by
  refine wakeEvent_unheard _ _ (.inr rfl) c ?_
  rintro ⟨-, -, hpat⟩
  rw [if_neg (by decide), State.on, State.patternShown_rd _ _ _ (by decide) (by decide), ← State.on, h] at hpat
  cases hpat

theorem State.patternShown_result {n : Nat} (hn : n < 8) : (s.patternShown c n).rd F.CH_PWR_STAT_PAT c = n ∧
    (s.patternShown c n).rd F.CH_WAKE_HITS c = min (s.rd F.CH_WAKE_HITS c + 1) (2 ^ 32 - 1) ∧
    (s.patternShown c n).on F.CH_PWR_STAT_DOZING c = s.on F.CH_PWR_STAT_DOZING c := by
  refine ⟨(State.rd_wr_same _ F.CH_PWR_STAT_PAT c n ⟨by decide, by decide⟩).trans (Nat.mod_eq_of_lt hn), ?_, ?_⟩
  · rw [State.patternShown, State.rd_wr_clear _ _ _ _ (by decide)]
    exact State.rd_inc_same _ _ ⟨by decide, by decide⟩
  · rw [State.on, State.patternShown_rd _ _ _ (by decide) (by decide), ← State.on]

/-! ### A wake leaves device standby as it is (R398) -/

theorem State.wakeOct_standby (o src : Nat) : (s.wakeOct o src).pwr.standby = s.pwr.standby := by
  unfold State.wakeOct
  dsimp only
  split <;> rfl

theorem State.wakeChannel_standby : (s.wakeChannel c).pwr.standby = s.pwr.standby := by
  unfold State.wakeChannel
  split
  · rfl
  · rw [State.raise_pwr]
    rfl

theorem State.wakeDozer_standby : (s.wakeDozer c).pwr.standby = s.pwr.standby := by
  unfold State.wakeDozer
  split
  · rfl
  · split
    · exact s.wakeChannel_standby c
    · rfl

theorem wakeEvent_standby (o src : Nat) : (wakeEvent o src c s).pwr.standby = s.pwr.standby := by
  by_cases hsrc : src = wkSignal ∨ src = wkPattern
  · by_cases h : s.dozerHears o src c
    · rw [wakeEvent_heard s o hsrc c h]
      repeat' split
      · exact s.wakeDozer_standby c
      · rw [State.wakeDozer_standby, State.wakeOct_standby]
      · rfl
    · rw [wakeEvent_unheard s o hsrc c h]
  · obtain ⟨hsig, hpat⟩ := not_or.mp hsrc
    rw [wakeEvent_octant s o c hsig hpat, State.wakeOct_standby]

theorem wakePatternMatch_standby : (wakePatternMatch c frame tid bc prot s).pwr.standby = s.pwr.standby := by
  unfold wakePatternMatch
  dsimp only
  repeat' split
  · rfl
  · rfl
  · rw [wakeEvent_standby]
    rfl

theorem State.isHeld_of_standby (h : s.pwr.standby = true) : s.isHeld = true := by simp [State.isHeld, h]

theorem State.inStandby_standby (h : s.inStandby = true) : s.pwr.standby = true := by
  simp only [State.inStandby, Bool.and_eq_true] at h
  exact h.1.1.1

theorem State.inStandby_false (h : s.Runs) : s.inStandby = false := by
  cases hin : s.inStandby with
  | false => rfl
  | true => exact absurd (s.isHeld_of_standby (s.inStandby_standby hin)) (by rw [h]; decide)

end

theorem wakePatternMatch_finishes {s : State} (h : s.Runs) (c : Fin 64) (f : List Byte) (t : Fin 32) (b p : Bool) :
    Finishes (.wakePatternMatch c f t b p) s (wakePatternMatch c f t b p s) := by
  show execWakePatternMatch c f t b p s = _
  unfold execWakePatternMatch
  dsimp only
  rw [s.inStandby_false h, if_neg Bool.false_ne_true]
  exact done_runs h

theorem wakePatternMatch_finishes_standby {s : State} (h : s.inStandby = true) (c : Fin 64) (f : List Byte) (t : Fin 32) (b p : Bool) :
    Finishes (.wakePatternMatch c f t b p) s (wakePatternMatch c f t b p s) := by
  show execWakePatternMatch c f t b p s = _
  unfold execWakePatternMatch
  dsimp only
  rw [h, if_pos rfl]
  rfl

/-! ### Device standby (R397) -/

section
variable (s : State) (req : Nat)

theorem dsRequest_refused {r : Nat} (h : s.dsRefuser req = some r) : dsRequest req s =
    ((s.wr F.PWR_DS_CTL_REFUSER 0 r).wr F.PWR_DS_CTL_RESULT 0 2).acct acDs (3 + r) := by
  unfold dsRequest
  rw [h]

/-- The engine stands by, with what the capo banks keep. -/
def State.standsBy (s : State) : State :=
  { s with pwr := { s.pwr with standby := true, capoEff := s.eff, capoShd := s.shd, capoGates := s.egress.gates, capoTrec := s.twin.trec,
                               capoTerm := s.twin.term, capoSofs := s.twin.sofs, dsBad := 0, dsRestore := true } }

theorem dsRequest_standsBy (h : s.dsRefuser req = none) : dsRequest req s = ((s.acct acDs 0).flushLog.driveAlive false).standsBy := by
  unfold dsRequest
  rw [h]
  rfl

theorem State.standsBy_standby : s.standsBy.pwr.standby = true := rfl
theorem State.standsBy_capoEff : s.standsBy.pwr.capoEff = s.standsBy.eff := rfl
theorem State.standsBy_twin : s.standsBy.twin = s.twin := rfl

theorem State.driveAlive_high (high : Bool) : (s.driveAlive high).twin.high = high := by
  unfold State.driveAlive
  split
  · assumption
  · rfl

theorem State.dsRefused_result {r : Nat} (hr : r < 8) (st k : Nat) (hst : (F.PWR_ACCT st k).clearOf F.PWR_DS_CTL_REFUSER = true)
    (hst' : (F.PWR_ACCT st k).clearOf F.PWR_DS_CTL_RESULT = true) :
    (((s.wr F.PWR_DS_CTL_REFUSER 0 r).wr F.PWR_DS_CTL_RESULT 0 2).acct st k).rd F.PWR_DS_CTL_REFUSER 0 = r ∧
      (((s.wr F.PWR_DS_CTL_REFUSER 0 r).wr F.PWR_DS_CTL_RESULT 0 2).acct st k).rd F.PWR_DS_CTL_RESULT 0 = 2 := by
  rw [State.acct, State.rd_inc_clear _ _ _ hst, State.rd_inc_clear _ _ _ hst', State.rd_wr_clear _ _ _ _ (by decide)]
  exact ⟨(State.rd_wr_same _ F.PWR_DS_CTL_REFUSER 0 r ⟨by decide, by decide⟩).trans (Nat.mod_eq_of_lt hr), State.rd_wr_held _ _ (by decide)⟩

theorem acctDs_clear {r : Nat} (hr : r < 8) : (F.PWR_ACCT acDs (3 + r)).clearOf F.PWR_DS_CTL_REFUSER = true ∧
    (F.PWR_ACCT acDs (3 + r)).clearOf F.PWR_DS_CTL_RESULT = true := by
  have hall : ∀ r < 8, (F.PWR_ACCT acDs (3 + r)).clearOf F.PWR_DS_CTL_REFUSER = true ∧
    (F.PWR_ACCT acDs (3 + r)).clearOf F.PWR_DS_CTL_RESULT = true := by decide
  exact hall r hr

/-! ### The exit from device standby (R398) -/

theorem dsExit_ignored (bad : Nat) (h : s.pwr.standby = false ∨ s.pwr.off = true ∨ s.pwr.tripped = true ∨ s.pwr.input = true) :
    dsExit bad s = s := if_pos (by rcases h with h | h | h | h <;> simp [h])

/-- The channels' dozes carried over a reset. -/
def State.keptDozes (s t : State) : State := (List.range 64).foldl s.keepDoze t

/-- What capo memory held stays, to be restored after APPLY. -/
def State.withCapo (t : State) (p : Pwr) (bad : Nat) : State :=
  { t with pwr := { t.pwr with capoEff := p.capoEff, capoShd := p.capoShd, capoGates := p.capoGates, capoTrec := p.capoTrec,
                               capoTerm := p.capoTerm, capoSofs := p.capoSofs, dsBad := bad, dsRestore := true, waking := p.waking } }

/-- The start from the slot last started. -/
def State.exitShown (t : State) (slot : Nat) : State := (t.wr F.IMG_STAT_SLOT 0 slot).wr F.PWR_DS_CTL_RESULT 0 1

theorem dsExit_exits (bad : Nat) (hstandby : s.pwr.standby = true) (hoff : s.pwr.off = false) (htrip : s.pwr.tripped = false)
    (hinput : s.pwr.input = false) :
    dsExit bad s = ((s.keptDozes (s.afterReset true)).exitShown (s.rd F.IMG_STAT_SLOT 0)).withCapo s.pwr bad := by
  unfold dsExit
  rw [if_neg (by simp [hstandby, hoff, htrip, hinput])]
  rfl

variable (t : State)

theorem State.keepDoze_rd (c i : Nat) {g : Fld} (hlt : g.off < 0x100000) (hstat : g.off ≠ F.CH_PWR_STAT.off)
    (hlane : F.CH_LANE_STAT_PWR.clearOf g = true) : (s.keepDoze t c).rd g i = t.rd g i := by
  have hset : (t.setReg c F.CH_PWR_STAT.off (s.reg c F.CH_PWR_STAT.off)).rd g i = t.rd g i := by
    rw [State.rd, State.reg_setReg_ne _ _ (rkey_ne_of_off hlt (by decide) hstat), ← State.rd]
  unfold State.keepDoze
  dsimp only
  split
  · rw [State.rd_wr_clear _ _ _ _ hlane, hset]
  · exact hset

theorem State.keptDozes_rd (i : Nat) {g : Fld} (hlt : g.off < 0x100000) (hstat : g.off ≠ F.CH_PWR_STAT.off)
    (hlane : F.CH_LANE_STAT_PWR.clearOf g = true) : (s.keptDozes t).rd g i = t.rd g i := by
  unfold State.keptDozes
  exact foldl_keeps (fun u => u.rd g i) (fun u c => s.keepDoze_rd u c i hlt hstat hlane) _ _

theorem State.keepDoze_frame (c : Nat) : (s.keepDoze t c).pwr = t.pwr ∧ (s.keepDoze t c).host = t.host := by
  unfold State.keepDoze
  dsimp only
  split <;> exact ⟨rfl, rfl⟩

theorem State.keptDozes_pwr : (s.keptDozes t).pwr = t.pwr := by
  unfold State.keptDozes
  exact foldl_keeps State.pwr (fun u c => (s.keepDoze_frame u c).1) _ _

theorem State.keptDozes_host : (s.keptDozes t).host = t.host := by
  unfold State.keptDozes
  exact foldl_keeps State.host (fun u c => (s.keepDoze_frame u c).2) _ _

theorem State.keepDoze_dozing (c : Nat) : (s.keepDoze t c).on F.CH_PWR_STAT_DOZING c = s.on F.CH_PWR_STAT_DOZING c := by
  have hset : (t.setReg c F.CH_PWR_STAT.off (s.reg c F.CH_PWR_STAT.off)).on F.CH_PWR_STAT_DOZING c = s.on F.CH_PWR_STAT_DOZING c := by
    rw [State.on, State.rd_setReg_same (g := F.CH_PWR_STAT_DOZING) (o := F.CH_PWR_STAT.off) _ _ _ rfl]
    rfl
  unfold State.keepDoze
  dsimp only
  split
  · rw [State.on_wr_clear _ _ _ _ (by decide), hset]
  · exact hset

theorem State.keepDoze_lane (c : Nat) (h : s.on F.CH_PWR_STAT_DOZING c = true) : (s.keepDoze t c).rd F.CH_LANE_STAT_PWR c = pwrRxOnly := by
  unfold State.keepDoze
  dsimp only
  rw [if_pos (by simp [h])]
  exact State.rd_wr_held _ _ (by decide)

theorem State.keepDoze_other {c j : Nat} (h : c ≠ j) {g : Fld} (hlt : g.off < 0x100000) : (s.keepDoze t j).rd g c = t.rd g c := by
  have hkey {off : Nat} (hoff : off < 0x100000) : rkey c g.off ≠ rkey j off := fun he => h ((rkey_inj hlt hoff).mp he).1
  have hset : (t.setReg j F.CH_PWR_STAT.off (s.reg j F.CH_PWR_STAT.off)).rd g c = t.rd g c := by
    rw [State.rd, State.reg_setReg_ne _ _ (hkey (by decide)), ← State.rd]
  unfold State.keepDoze
  dsimp only
  split
  · rw [State.rd, State.reg_wr_ne _ (f := F.CH_LANE_STAT_PWR) _ (hkey (by decide)), ← State.rd, hset]
  · exact hset

theorem State.keptDozes_dozing {c : Nat} (hc : c < 64) : (s.keptDozes t).on F.CH_PWR_STAT_DOZING c = s.on F.CH_PWR_STAT_DOZING c := by
  unfold State.keptDozes
  refine foldl_range_holds (P := fun c u => u.on F.CH_PWR_STAT_DOZING c = s.on F.CH_PWR_STAT_DOZING c) (fun u c => s.keepDoze_dozing u c)
    (fun u c j hne h => ?_) t hc
  rw [State.on, State.keepDoze_other _ _ hne (by decide), ← State.on, h]

theorem State.keptDozes_lane {c : Nat} (hc : c < 64) (h : s.on F.CH_PWR_STAT_DOZING c = true) :
    (s.keptDozes t).rd F.CH_LANE_STAT_PWR c = pwrRxOnly := by
  unfold State.keptDozes
  exact foldl_range_holds (P := fun c u => s.on F.CH_PWR_STAT_DOZING c = true → u.rd F.CH_LANE_STAT_PWR c = pwrRxOnly)
    (fun u c => s.keepDoze_lane u c) (fun u c j hne hu hon => (s.keepDoze_other u hne (by decide)).trans (hu hon)) t hc h

theorem State.withCapo_rd (p : Pwr) (bad : Nat) (f : Fld) (i : Nat) : (t.withCapo p bad).rd f i = t.rd f i := rfl
theorem State.withCapo_standby (p : Pwr) (bad : Nat) : (t.withCapo p bad).pwr.standby = t.pwr.standby := rfl
theorem State.withCapo_capoEff (p : Pwr) (bad : Nat) : (t.withCapo p bad).pwr.capoEff = p.capoEff := rfl
theorem State.withCapo_host (p : Pwr) (bad : Nat) : (t.withCapo p bad).host = t.host := rfl
theorem State.exitShown_pwr (slot : Nat) : (t.exitShown slot).pwr = t.pwr := rfl
theorem State.exitShown_host (slot : Nat) : (t.exitShown slot).host = t.host := rfl

theorem State.exitShown_rd (slot i : Nat) {g : Fld} (hslot : F.IMG_STAT_SLOT.clearOf g = true) (hres : F.PWR_DS_CTL_RESULT.clearOf g = true) :
    (t.exitShown slot).rd g i = t.rd g i := by
  rw [State.exitShown, State.rd_wr_clear _ _ _ _ hres, State.rd_wr_clear _ _ _ _ hslot]

theorem State.exitShown_result {slot : Nat} (h : slot < 2) :
    (t.exitShown slot).rd F.PWR_DS_CTL_RESULT 0 = 1 ∧ (t.exitShown slot).rd F.IMG_STAT_SLOT 0 = slot := by
  unfold State.exitShown
  refine ⟨State.rd_wr_held _ _ (by decide), ?_⟩
  rw [State.rd_wr_clear _ _ _ _ (by decide)]
  exact (State.rd_wr_same _ F.IMG_STAT_SLOT 0 slot ⟨by decide, by decide⟩).trans (Nat.mod_eq_of_lt h)

theorem State.afterReset_msixTab : (s.afterReset true).host.msixTab = s.host.msixTab := by
  rw [← s.driveAlive_host false]
  rfl

end

/-! ### The capo banks (R392, R393) -/

theorem length_fitPart (n : Nat) (l : List Nat) : (fitPart n l).length = n := by
  rw [fitPart, List.length_append, List.length_take, List.length_replicate]
  omega

theorem length_toBytes (l : List Nat) : (toBytes l).length = l.length := List.length_map ..

theorem length_bytesLE (n v : Nat) : (bytesLE n v).length = n := by
  rw [bytesLE, List.length_map, List.length_range]

section
variable (s : State)

/-- A bank's bytes ahead of its check word. -/
def State.bankBody (s : State) (b : Nat) : List Byte := toBytes (fitPart 65532 (s.bankContent b))

theorem State.bankBody_length (b : Nat) : (s.bankBody b).length = 65532 := by
  rw [State.bankBody, length_toBytes, length_fitPart]

theorem State.capoBank_eq (b : Nat) : s.capoBank b = s.bankBody b ++ toBytes (bytesLE 4 (crc32c (s.bankBody b))) := by
  rw [State.capoBank, State.bankBody]

theorem State.capoBank_length (b : Nat) : (s.capoBank b).length = 65536 := by
  rw [State.capoBank_eq, List.length_append, State.bankBody_length, length_toBytes_bytesLE]

theorem State.capoBank_check (b : Nat) : (s.capoBank b).drop 65532 = toBytes (bytesLE 4 (crc32c ((s.capoBank b).take 65532))) := by
  have htake : (s.capoBank b).take 65532 = s.bankBody b := by
    rw [State.capoBank_eq]
    exact List.take_left' (s.bankBody_length b)
  rw [htake, State.capoBank_eq]
  exact List.drop_left' (s.bankBody_length b)

/-- A register's place in a save is as wide as it says, twice that where it has RWT fields; whose register it is does not matter. -/
theorem State.regSave_length (n i : Nat) {off : Nat} (h : off < 0x100000) :
    (s.regSave n (rkey i off)).length = n + if keyMask rwtAcc off = 0 then 0 else n := by
  have hmask : keyMask rwtAcc (rkey i off) = keyMask rwtAcc off := by
    rw [keyMask, rkey_offset h, keyMask, Nat.mod_eq_of_lt h]
  unfold State.regSave
  dsimp only
  rw [List.length_append, length_bytesLE, hmask]
  split
  · rfl
  · rw [length_bytesLE]

/-- The fields of a queue and of a meter that a commit takes up are the settings; the rest count. -/
theorem queueSave_masks : keyMask rwtAcc F.QSH_Q_CFG.off ≠ 0 ∧ keyMask rwtAcc F.QSH_Q_TL.off ≠ 0 ∧ keyMask rwtAcc F.QSH_SHP_CFG.off ≠ 0 ∧
    keyMask rwtAcc F.QSH_SHP_RATE.off ≠ 0 ∧ keyMask rwtAcc F.QSH_SHP_BURST.off ≠ 0 ∧ keyMask rwtAcc F.QSH_Q_TX.off = 0 ∧
    keyMask rwtAcc F.QSH_Q_TL_LATE.off = 0 := by decide +kernel

theorem meterSave_masks : keyMask rwtAcc F.OCT_MTR_CFG.off ≠ 0 ∧ keyMask rwtAcc F.OCT_MTR_CIR.off ≠ 0 ∧ keyMask rwtAcc F.OCT_MTR_PIR.off ≠ 0 ∧
    keyMask rwtAcc F.OCT_MTR_CBS.off ≠ 0 ∧ keyMask rwtAcc F.OCT_MTR_PBS.off ≠ 0 ∧ keyMask rwtAcc F.OCT_MTR_GREEN.off = 0 ∧
    keyMask rwtAcc F.OCT_MTR_YELLOW.off = 0 ∧ keyMask rwtAcc F.OCT_MTR_RED.off = 0 ∧ keyMask rwtAcc F.OCT_MTR_REDDROP.off = 0 := by
  decide +kernel

theorem State.queueSave_length (q : Nat) : (s.queueSave q).length = 46 := by
  obtain ⟨hcfg, htl, hscfg, hrate, hburst, htx, hlate⟩ := queueSave_masks
  unfold State.queueSave
  simp only [List.flatMap_cons, List.flatMap_nil, List.length_append, List.length_nil]
  rw [s.regSave_length 4 q (by decide), s.regSave_length 4 q (by decide), s.regSave_length 4 q (by decide), s.regSave_length 4 q (by decide),
    s.regSave_length 3 q (by decide), s.regSave_length 4 q (by decide), s.regSave_length 4 q (by decide), if_neg hcfg, if_neg htl,
    if_neg hscfg, if_neg hrate, if_neg hburst, if_pos htx, if_pos hlate]

theorem State.meterSave_length (m : Nat) : (s.meterSave m).length = 52 := by
  obtain ⟨hcfg, hcir, hpir, hcbs, hpbs, hgreen, hyellow, hred, hdrop⟩ := meterSave_masks
  unfold State.meterSave
  simp only [List.flatMap_cons, List.flatMap_nil, List.length_append, List.length_nil]
  rw [s.regSave_length 4 m (by decide), s.regSave_length 4 m (by decide), s.regSave_length 4 m (by decide), s.regSave_length 3 m (by decide),
    s.regSave_length 3 m (by decide), s.regSave_length 4 m (by decide), s.regSave_length 4 m (by decide), s.regSave_length 4 m (by decide),
    s.regSave_length 4 m (by decide), if_neg hcfg, if_neg hcir, if_neg hpir, if_neg hcbs, if_neg hpbs, if_pos hgreen, if_pos hyellow,
    if_pos hred, if_pos hdrop]

end

/-- Settles O59: a doze by what is asked and heard, standby by its refuser, its exit as a reset that keeps the dozes, and the lengths
of the banks and of what a queue and a meter save. -/
theorem dozeAndStandby : Obligations.DozeAndStandby := by
  unfold Obligations.DozeAndStandby
  intro s c
  refine ⟨fun req htakes => ⟨doneWrite_takes htakes, doneWrite_takes htakes⟩,
    fun h f t b p own hown => ⟨fun hdet hnot => ?undetected, fun hnone => ?noPattern, fun n hdozing hhears hfind => ?pattern⟩,
    fun req htakes hch => ⟨?doze, ?undoze⟩,
    fun h => ⟨fun hnot => ?notWaking, fun hwaking => ⟨_, done_runs h, dozeTxReady_result s c hwaking⟩, fun f t b p hawake => ?awake,
      fun f t b p n hdozing hdet hrole hfind hpat => ?counted⟩,
    fun req htakes => ⟨fun r hr hlt => ?refused, fun hnone => ?standsBy⟩,
    fun hin f t b p => ⟨wakePatternMatch_finishes_standby hin c f t b p, ?held⟩, fun bad hnot => ?noExit,
    fun bad hstandby hoff htrip hinput => ?exit, fun b => ⟨s.capoBank_length b, s.capoBank_check b⟩, fun q _ => s.queueSave_length q,
    fun m _ => s.meterSave_length m⟩
  case undetected =>
    have hfin := wakePatternMatch_finishes h c f t b p
    rw [wakePatternMatch_unheard] at hfin
    · exact hfin
    · refine .inr ?_
      rw [State.hears, hdet, State.ownFrame, ← hown]
      rintro (hhears | ⟨htrue, halign⟩)
      · cases hhears
      · rcases hnot with hnot | hnot
        · rw [htrue] at hnot
          cases hnot
        · exact hnot halign
  case noPattern =>
    have hfin := wakePatternMatch_finishes h c f t b p
    rwa [wakePatternMatch_none s c f t b p (by rw [State.ownFrame, ← hown]; exact hnone)] at hfin
  case pattern =>
    have hfin := wakePatternMatch_finishes h c f t b p
    rwa [wakePatternMatch_met s c f t b p hdozing (by rw [State.hears, State.ownFrame, ← hown]; exact hhears)
      (by rw [State.ownFrame, ← hown]; exact hfind)] at hfin
  case doze =>
    refine ⟨_, doneWrite_takes htakes, ?_, ?_⟩
    · rw [State.foldWrites_pwr _ _ Pwr.dozeReq (fun _ _ => rfl), doze_single s req c hch]
      exact List.mem_cons_self
    · rw [State.foldWrites_eff, doze_single s req c hch]
      rfl
  case undoze =>
    refine ⟨_, doneWrite_takes htakes, ?_, ?_, fun hdozing => ?_⟩
    · rw [State.on, State.foldWrites_rd, undoze_single s req c hch, ← State.on, State.undozeChan_dozing]
    · rw [State.foldWrites_pwr _ _ Pwr.dozeReq (fun _ _ => rfl), undoze_single s req c hch, State.undozeChan_dozeReq]
      exact fun e he => by simpa using (List.mem_filter.mp he).2
    · rw [State.foldWrites_pwr _ _ Pwr.waking (fun _ _ => rfl), undoze_single s req c hch]
      exact s.undozeChan_waking c hdozing
  case notWaking =>
    have hfin : Finishes (.dozeTxReady c) s (dozeTxReady c s) := done_runs h
    rwa [dozeTxReady_ignored s c hnot] at hfin
  case awake =>
    have hfin := wakePatternMatch_finishes h c f t b p
    rwa [wakePatternMatch_unheard s c f t b p (.inl hawake)] at hfin
  case counted =>
    have hfin := wakePatternMatch_finishes h c f t b p
    have hown : s.ownFrame c t p = false := by simp [State.ownFrame, hrole]
    rw [wakePatternMatch_met s c f t b p hdozing (.inl hdet) (by rw [hown]; exact hfind), wakeEvent_patternOff s c hpat] at hfin
    obtain ⟨hshown, hhits, hstill⟩ := s.patternShown_result c (List.mem_range.mp (List.mem_of_find?_eq_some hfind))
    exact ⟨_, hfin, hshown, hhits, hstill.trans hdozing⟩
  case refused =>
    have hfin : Finishes (.dsRequest req) s (dsRequest req s) := doneWrite_takes htakes
    rw [dsRequest_refused s req hr] at hfin
    obtain ⟨hrefuser, hresult⟩ := s.dsRefused_result hlt acDs (3 + r) (acctDs_clear hlt).1 (acctDs_clear hlt).2
    exact ⟨_, hfin, hrefuser, hresult, rfl⟩
  case standsBy =>
    have hfin : Finishes (.dsRequest req) s (dsRequest req s) := doneWrite_takes htakes
    rw [dsRequest_standsBy s req hnone] at hfin
    refine ⟨_, hfin, State.standsBy_standby _, State.isHeld_of_standby _ (State.standsBy_standby _), ?_, State.standsBy_capoEff _⟩
    rw [State.standsBy_twin, State.driveAlive_high]
  case held => exact State.isHeld_of_standby _ ((wakePatternMatch_standby s c f t b p).trans (s.inStandby_standby hin))
  case noExit =>
    have hfin : Finishes (.dsExit bad) s (dsExit bad.toNat s) := rfl
    rwa [dsExit_ignored s _ hnot] at hfin
  case exit =>
    have hfin : Finishes (.dsExit bad) s (dsExit bad.toNat s) := rfl
    rw [dsExit_exits s _ hstandby hoff htrip hinput] at hfin
    obtain ⟨hresult, hslot⟩ := (s.keptDozes (s.afterReset true)).exitShown_result s.slot_lt
    refine ⟨_, hfin, ?_, ?_, ?_, State.withCapo_capoEff _ _ _, ?_, ?_, ?_, fun hdozing => ?_⟩
    · rw [State.withCapo_standby, State.exitShown_pwr, State.keptDozes_pwr, State.afterReset_pwr]
      rfl
    · rw [State.phase, State.withCapo_rd, State.exitShown_rd _ _ _ (by decide) (by decide),
        State.keptDozes_rd _ _ _ (by decide) (by decide) (by decide)]
      exact s.afterReset_phase true
    · rw [State.withCapo_rd, hresult]
    · rw [State.withCapo_rd, hslot]
    · rw [State.withCapo_host, State.exitShown_host, State.keptDozes_host, State.afterReset_msixTab]
    · rw [State.on, State.withCapo_rd, State.exitShown_rd _ _ _ (by decide) (by decide), ← State.on, State.keptDozes_dozing _ _ c.isLt]
    · rw [State.withCapo_rd, State.exitShown_rd _ _ _ (by decide) (by decide), State.keptDozes_lane _ _ c.isLt hdozing]

end Sys2Proof.Machine
end

section
/-!
PROOF. Whole-word writes of registers that only hold what is written to them: the select registers, the masks of a commit and the
host log's base (R5, R26, R36, R37), with the record of the writes of a device cycle. Settles O13.
-/

namespace Sys2Proof.Machine

/-! ### The bytes of a whole word -/

/-- The four bytes of a whole word, all enabled. -/
theorem wholeWord_eq (w : Word) : wholeWord w = [some (BitVec.ofNat 8 (w.toNat % 256)), some (BitVec.ofNat 8 (w.toNat / 256 % 256)),
    some (BitVec.ofNat 8 (w.toNat / 65536 % 256)), some (BitVec.ofNat 8 (w.toNat / 16777216 % 256))] := by
  simp [wholeWord, toBytes, bytesLE, List.range_succ]

theorem byteMask_wholeWord (w : Word) : byteMask (wholeWord w) = 0xFFFFFFFF := by
  simp [wholeWord_eq, byteMask]

theorem fullWord_wholeWord (w : Word) : fullWord (wholeWord w) = true := by
  simp [fullWord, byteMask_wholeWord]

theorem byteValue_wholeWord (w : Word) : byteValue (wholeWord w) = w.toNat := by
  have hlt := w.isLt
  simp only [wholeWord_eq, byteValue, Option.getD_some, BitVec.toNat_ofNat]
  omega

/-- Where nothing is claimed, every byte of a write counts. -/
theorem unclaimed_zero (d : List (Option Byte)) : unclaimed 0 d = d := by
  simp [unclaimed]

/-- Where every bit is claimed, no byte of a whole word counts. -/
theorem byteMask_unclaimed_all (w : Word) : byteMask (unclaimed 0xFFFFFFFF (wholeWord w)) = 0 := by
  simp [wholeWord_eq, unclaimed, byteMask]

/-- A write of a whole word is a write of the one register that lies at the offset. -/
theorem State.writeBytes_word (s : State) (req : Nat) {off : Nat} (h : off % 4 = 0) (w : Word) :
    s.writeBytes req off (wholeWord w) = (s.newAccess req).writeRegister req off (wholeWord w) := by
  have hoff : off / 4 * 4 = off := by omega
  rw [State.writeBytes, h, hoff]
  simp [wholeWord_eq]

/-! ### A field of a mixed word -/

theorem testBit_getF (w : Word) (f : Fld) (i : Nat) : (getF w f).testBit i = (decide (i < f.width) && w.toNat.testBit (f.lo + i)) := by
  rw [getF, Nat.testBit_mod_two_pow, Nat.testBit_div_two_pow, Nat.add_comm]

theorem getLsbD_mixWord (old new : Word) (m i : Nat) :
    (mixWord old new m).getLsbD i = if m.testBit i then new.getLsbD i else old.getLsbD i := by
  by_cases hi : i < 32
  · have hbit : (BitVec.ofNat 32 m).getLsbD i = m.testBit i := (BitVec.getLsbD_ofNat ..).trans (by simp [hi])
    simp only [mixWord, BitVec.getLsbD_or, BitVec.getLsbD_and, BitVec.getLsbD_not, hbit, hi, decide_true, Bool.true_and]
    cases m.testBit i <;> simp
  · simp [BitVec.getLsbD_of_ge _ _ (Nat.le_of_not_lt hi)]

/-- A field whose bits are all taken from the new word is the new word's. -/
theorem getF_mixWord (old new : Word) {f : Fld} {m : Nat} (h : ∀ i < f.width, m.testBit (f.lo + i) = true) :
    getF (mixWord old new m) f = getF new f := by
  refine Nat.eq_of_testBit_eq (fun i => ?_)
  rw [testBit_getF, testBit_getF, BitVec.testBit_toNat, BitVec.testBit_toNat, getLsbD_mixWord]
  by_cases hi : i < f.width
  · rw [h i hi, if_pos rfl]
  · simp [hi]

/-- With every bit taken from the new word, that word is left. -/
theorem mixWord_all (old new : Word) : mixWord old new 0xFFFFFFFF = new := by
  refine BitVec.eq_of_getLsbD_eq (fun i hi => ?_)
  rw [getLsbD_mixWord, if_pos ((Nat.testBit_two_pow_sub_one 32 i).trans (decide_eq_true hi))]

/-! ### What the fold of a write leaves alone -/

theorem State.foldValue_eff (s : State) (req k : Nat) (data : List Byte) : (s.foldValue req k data).eff = s.eff := by
  rw [State.foldValue_frame]

theorem State.foldValue_eng (s : State) (req k : Nat) (data : List Byte) : (s.foldValue req k data).eng = s.eng := by
  rw [State.foldValue_frame]

theorem State.foldWrite_eng (s : State) (req k : Nat) : (s.foldWrite req k).eng = s.eng := by
  unfold State.foldWrite
  split
  · rfl
  · exact s.foldValue_eng _ _ _

/-! ### Registers that only hold what is written -/

/-- The selects of the requesters, the masks of a commit, and the host log's base: a write of these has no rule of its own. -/
def plainOffs : List Nat := [0x30000, 0x50000, 0x70000, 0x80000, 0xA0000, 0x40000, 0x104, 0x108, 0xA0F24]

section
variable (s : State) (req i : Nat)

theorem State.openBits_plain : ∀ off ∈ plainOffs, s.openBits req off i = 0xFFFFFFFF := by simp [plainOffs, State.openBits]

theorem State.writeFields_plain (r : RegRow) (d : List (Option Byte)) :
    ∀ off ∈ plainOffs, s.writeFields req off i r d = s.writeRw req off i r d := by simp [plainOffs, State.writeFields]

theorem State.takesFields_plain (w : Word) (m : Nat) : ∀ off ∈ plainOffs, s.takesFields req off i w m = true := by
  simp [plainOffs, State.takesFields]

theorem State.goOutRefused_plain (d : List (Option Byte)) : ∀ off ∈ plainOffs, s.goOutRefused off d = false := by
  simp [plainOffs, State.goOutRefused, F.MEM_MAPOUT_GO_OUT]

theorem State.afterWrite_plain (full : Bool) : ∀ off ∈ plainOffs, s.afterWrite req off i full = s := by
  simp [plainOffs, State.afterWrite]

theorem State.start_plain (v : Word) : ∀ off ∈ plainOffs, s.start req off v = s := by
  simp [plainOffs, State.start, State.startChannels, State.startAgents, State.startDevice]

/-- A register without W1C, W1S and RWT fields has nothing but its RW fields to be written. -/
theorem State.writeRest_none (off : Nat) {r : RegRow} (v : Word) (hc : accMask r.flds (· == .w1c) = 0)
    (hs : accMask r.flds (· == .w1s) = 0) (ht : accMask r.flds (· == .rwt) = 0) : s.writeRest req off i r v = s := by
  have hold (x : Word) : x &&& ~~~(v &&& 0#32) ||| (v &&& 0#32) = x := by
    rw [BitVec.and_zero, BitVec.or_zero]
    exact BitVec.and_allOnes
  have hzero (m : Nat) : BitVec.ofNat 32 (0 &&& m) = 0#32 := by rw [Nat.zero_and]
  simp only [State.writeRest, hc, hs, ht, hzero, hold]
  rfl

end

theorem plainOffs_offset : ∀ off ∈ plainOffs, off % 4 = 0 ∧ off < 0x100000 ∧ off / 0x10000 ≠ 0xE := by decide

/-- Such a register has RW fields, and no W1C, W1S or RWT ones. -/
def RegRow.holdsOnly (r : RegRow) : Bool :=
  accMask r.flds (· == .rw) != 0 && (accMask r.flds (· == .rw) &&& 0xFFFFFFFF) == accMask r.flds (· == .rw) &&
    accMask r.flds (· == .w1c) == 0 &&
    accMask r.flds (· == .w1s) == 0 && accMask r.flds (· == .rwt) == 0

theorem RegRow.holdsOnly_iff (r : RegRow) : r.holdsOnly = true ↔ accMask r.flds (· == .rw) ≠ 0 ∧
    accMask r.flds (· == .rw) &&& 0xFFFFFFFF = accMask r.flds (· == .rw) ∧ accMask r.flds (· == .w1c) = 0 ∧
    accMask r.flds (· == .w1s) = 0 ∧ accMask r.flds (· == .rwt) = 0 := by
  simp only [RegRow.holdsOnly, Bool.and_eq_true, bne_iff_ne, beq_iff_eq, and_assoc]

theorem plainOffs_holdsOnly : ∀ off ∈ plainOffs, (findRow off).all RegRow.holdsOnly = true := by decide +kernel

section
variable (s : State) (req i : Nat) {off : Nat} {r : RegRow} (w : Word) (h : off ∈ plainOffs) (hr : r.holdsOnly = true)
include h hr

/-- Where no higher requester has written the register, its RW fields take the word written. -/
theorem State.writeInst_plain (hc : s.claimed req (rkey i off) = 0) :
    s.writeInst req off i r (wholeWord w) =
      ((s.noteWrite req (rkey i off) 0xFFFFFFFF).setReg i off (mixWord (s.reg i off) w (accMask r.flds (· == .rw)))).foldWrite req
        (rkey i off) := by
  obtain ⟨hrw, hall, hw1c, hw1s, hrwt⟩ := r.holdsOnly_iff.mp hr
  have hwritten (n : State) : n.writeRw req off i r (wholeWord w) =
      n.setReg i off (mixWord (n.reg i off) w (accMask r.flds (· == .rw))) := by
    rw [State.writeRw, State.openBits_plain _ _ _ _ h, mixWord_all, State.merged, byteValue_wholeWord, byteMask_wholeWord, hall,
      BitVec.ofNat_toNat, BitVec.setWidth_eq]
  simp only [State.writeInst, hc, unclaimed_zero, byteMask_wholeWord, State.openBits_plain _ _ _ _ h,
    State.goOutRefused_plain _ _ _ h, State.takesFields_plain _ _ _ _ _ _ h, State.writeFields_plain _ _ _ _ _ _ h,
    State.afterWrite_plain _ _ _ _ _ h, State.writeRest_none _ _ _ _ _ hw1c hw1s hrwt, hall, bne_iff_ne.mpr hrw, hrwt, hwritten]
  simp [State.reg]

/-- Where higher requesters have written the whole register, what is left of a write is its fold. -/
theorem State.writeInst_plain_lost (hc : s.claimed req (rkey i off) = 0xFFFFFFFF) :
    (s.writeInst req off i r (wholeWord w)).eff = s.eff := by
  obtain ⟨hrw, hall, hw1c, hw1s, hrwt⟩ := r.holdsOnly_iff.mp hr
  have hnone : fullWord (unclaimed 0xFFFFFFFF (wholeWord w)) = false := fullWord_unclaimed_all _
  simp only [State.writeInst, hc, byteMask_unclaimed_all, Nat.and_zero, Nat.zero_and, State.afterWrite_plain _ _ _ _ _ h, hrwt]
  simp only [bne_self_eq_false, Bool.false_and, Bool.and_false, Bool.or_false, if_true, hnone, Bool.false_eq_true, if_false]
  rw [apply_ite State.eff, State.foldValue_eff, State.noteWrite_eff, ite_self]

/-- Such a write leaves the engine's clock and its commits alone, whoever has written before. -/
theorem State.writeInst_plain_eng (d : List (Option Byte)) : (s.writeInst req off i r d).eng = s.eng := by
  obtain ⟨hrw, hall, hw1c, hw1s, hrwt⟩ := r.holdsOnly_iff.mp hr
  simp only [State.writeInst, State.writeFields_plain _ _ _ _ _ _ h, State.afterWrite_plain _ _ _ _ _ h,
    State.writeRest_none _ _ _ _ _ hw1c hw1s hrwt, hrwt, if_true, ite_self, apply_ite State.eng, State.foldWrite_eng,
    State.foldValue_eng]
  split <;> rfl

end

section
variable {s : State} {req : Fin 19} {off i : Nat} {r : RegRow} (htakes : s.Takes req) (h : off ∈ plainOffs) (hrow : findRow off = some r)
  (hinst : s.writeInsts req r = [i])
include htakes h hrow hinst

/-- A whole-word write of such a register is a write of the one instance that the requester's selects name. -/
theorem State.writeAt_plain (w : Word) : s.writeAt req (.reg (BitVec.ofNat 20 off)) (wholeWord w) =
    (s.newAccess req).writeInst req off i r (wholeWord w) := by
  obtain ⟨haligned, hlt, hregion⟩ := plainOffs_offset off h
  have hoff : (BitVec.ofNat 20 off).toNat = off := by simp only [BitVec.toNat_ofNat]; omega
  have htake : (s.newAccess req).takesWrite req off = true := by
    simp only [State.takesWrite, Bool.or_eq_true, beq_iff_eq]
    exact .inl htakes.2
  have hinst' : (s.newAccess req).writeInsts req r = [i] := hinst
  show s.writeBytes req (BitVec.ofNat 20 off).toNat (wholeWord w) = _
  rw [hoff, State.writeBytes_word _ _ haligned, State.writeRegister, if_neg (by simp [htake]), if_neg hregion, hrow]
  simp only [hinst', List.foldl_cons, List.foldl_nil, State.start_plain _ _ _ _ h, ite_self]

end

/-! ### The select registers (R36) -/

/-- The select registers, by the field that selects. -/
def selectFlds : List Fld := [F.PEGSEL, F.OCTSEL, F.QSEL, F.MEMSEL, F.RINGSEL, F.CHSEL_CH]

/-- A select register is banked by requester, and its field may be written. -/
def selectRow (f : Fld) (r : RegRow) : Bool :=
  r.bank == .req && r.holdsOnly && (List.range f.width).all (fun i => (accMask r.flds (· == .rw)).testBit (f.lo + i))

theorem selectFlds_rows : ∀ f ∈ selectFlds, f.off ∈ plainOffs ∧ (findRow f.off).any (selectRow f) = true := by decide +kernel

/-- A register banked by requester belongs to no octant and is not folded (R362, R429). -/
theorem State.foldWrite_banked (s : State) (req : Nat) {k : Nat} {r : RegRow} (hrow : findRow (k % 0x100000) = some r)
    (hbank : r.bank = .req) : s.foldWrite req k = s := by
  simp [State.foldWrite, State.keySleeps, keyOctant, State.foldValue, foldPlace, hrow, hbank]

/-- A select register takes the word written in the requester's copy, and nothing else changes. -/
theorem State.writeSelect {s : State} {req : Fin 19} (htakes : s.Takes req) (halone : s.Alone req) (w : Word) {f : Fld}
    (hf : f ∈ selectFlds) : ∃ u, Finishes (.registerWrite req (.reg (BitVec.ofNat 20 f.off)) (wholeWord w)) s u ∧
      u.rd f req = getF w f ∧ OnlyRegs [rkey req f.off] s u := by
  obtain ⟨hoff, hany⟩ := selectFlds_rows f hf
  obtain ⟨r, hrow, hsel⟩ := Option.any_eq_true _ _ |>.mp hany
  simp only [selectRow, Bool.and_eq_true, beq_iff_eq, List.all_eq_true, List.mem_range] at hsel
  obtain ⟨⟨hbank, hholds⟩, hbits⟩ := hsel
  have hkey : findRow (rkey req f.off % 0x100000) = some r := by
    rwa [rkey_offset (plainOffs_offset _ hoff).2.1]
  have hinst : s.writeInsts req r = [req.val] := by simp [State.writeInsts, hbank]
  have hclaim : (s.newAccess req).claimed req (rkey req f.off) = 0 := State.claimed_alone (State.newAccess_alone halone) _
  refine ⟨_, done_runs htakes.1, ?_⟩
  rw [State.writeAt_plain htakes hoff hrow hinst, State.writeInst_plain _ _ _ _ hoff hholds hclaim, State.foldWrite_banked _ _ hkey hbank]
  exact ⟨(State.rd_setReg_same _ _ _ rfl).trans (getF_mixWord _ _ hbits), State.setReg_onlyRegs ((s.newAccess req).noteWrite req _ _) req f.off _⟩

/-! ### Two writes of one register in a device cycle (R37) -/

/-- HDMA_LOG_BASE_HI, a register of the device that every requester may write. -/
def logBase : Nat := 0xA0F24

theorem logBase_row : ∃ r, findRow logBase = some r ∧ r.bank = .dev ∧ r.holdsOnly = true ∧ accMask r.flds (· == .rw) = 0xFFFFFFFF :=
  ⟨reg1 "HDMA_LOG_BASE_HI" 0xA0F24 .dev 0x0 [(31, 0, .rw)], by decide +kernel⟩

theorem State.logBase_awake (s : State) : s.keySleeps (rkey 0 logBase) = false := by
  obtain ⟨r, hrow, hbank, -⟩ := logBase_row
  have hrow' : findRow (rkey 0 logBase % 0x100000) = some r := hrow
  simp [State.keySleeps, keyOctant, hrow', hbank]

/-- The register as a write of it leaves it that no higher requester overrules, noted and folded. -/
def State.logBaseWritten (s : State) (req : Nat) (w : Word) : State :=
  (((s.newAccess req).noteWrite req (rkey 0 logBase) 0xFFFFFFFF).setReg 0 logBase w).foldWrite req (rkey 0 logBase)

section
variable {s : State} {req : Fin 19} (htakes : s.Takes req) (w : Word)
include htakes

theorem State.writeLogBase (hc : (s.newAccess req).claimed req (rkey 0 logBase) = 0) :
    s.writeAt req (.reg 0xA0F24) (wholeWord w) = s.logBaseWritten req w := by
  obtain ⟨r, hrow, hbank, hholds, hmask⟩ := logBase_row
  have hoff : logBase ∈ plainOffs := by decide
  have hinst : s.writeInsts req r = [0] := by simp [State.writeInsts, hbank]
  have hwrite := State.writeAt_plain htakes hoff hrow hinst w
  rwa [State.writeInst_plain _ _ _ _ hoff hholds hc, hmask, mixWord_all] at hwrite

theorem State.writeLogBase_lost (hc : (s.newAccess req).claimed req (rkey 0 logBase) = 0xFFFFFFFF) :
    (s.writeAt req (.reg 0xA0F24) (wholeWord w)).eff = s.eff := by
  obtain ⟨r, hrow, hbank, hholds, -⟩ := logBase_row
  have hoff : logBase ∈ plainOffs := by decide
  have hinst : s.writeInsts req r = [0] := by simp [State.writeInsts, hbank]
  have hwrite := State.writeAt_plain htakes hoff hrow hinst w
  exact (congrArg State.eff hwrite).trans (State.writeInst_plain_lost _ _ _ _ hoff hholds hc)

end

section
variable (s : State) (req : Nat) (w : Word)

theorem State.logBaseWritten_eff : (s.logBaseWritten req w).eff = (s.setReg 0 logBase w).eff := State.foldWrite_eff _ _ _

theorem State.logBaseWritten_reg : (s.logBaseWritten req w).reg 0 logBase = w := by
  rw [State.reg, State.logBaseWritten_eff, ← State.reg, State.reg_setReg_same]

theorem State.logBaseWritten_frame : s.logBaseWritten req w = { s with
    eff := (s.setReg 0 logBase w).eff, same := (s.logBaseWritten req w).same, img := (s.logBaseWritten req w).img } := by
  rw [State.logBaseWritten, State.foldWrite, if_neg (by rw [State.logBase_awake]; decide), State.foldValue_frame]
  rfl

theorem State.logBaseWritten_takes {r : Fin 19} (h : s.Takes r) : (s.logBaseWritten req w).Takes r := by
  obtain ⟨hruns, hphase⟩ := h
  refine ⟨?_, hphase.imp_right (fun hrun => ?_)⟩
  · rw [State.logBaseWritten_frame]
    exact hruns
  · rw [State.rd, State.reg, State.logBaseWritten_eff, ← State.reg, State.reg_setReg_ne _ _ (by decide), ← State.rd, hrun]

/-- Behind a single write that has not been folded comes at most the fold, which claims no bit. -/
theorem State.foldWritten_same {e : CycWrite} (h : s.same = [e]) (hf : e.fold = none) (key : Nat) (rec : List Byte) :
    ∃ fs : List CycWrite, (∀ x ∈ fs, x.cyc = s.pegs.cyc ∧ x.req = req ∧ x.mask = 0) ∧
      (s.foldWritten req key rec).same = e :: fs := by
  unfold State.foldWritten
  split
  · exact ⟨[], by simp, h⟩
  · exact ⟨[{ cyc := s.pegs.cyc, req, key, mask := 0, fold := some (s.img.d, rec) }], by simp, by simp [h, hf, foldChain]⟩

/-- In a cycle without other writes the record holds the write, and perhaps its fold. -/
theorem State.logBaseWritten_same (h : s.same = []) : ∃ fs : List CycWrite, (∀ x ∈ fs, x.cyc = s.pegs.cyc ∧ x.req = req ∧ x.mask = 0) ∧
    (s.logBaseWritten req w).same =
      { cyc := s.pegs.cyc, req, key := rkey 0 logBase, mask := 0xFFFFFFFF, fold := none } :: fs := by
  have hnoted : (((s.newAccess req).noteWrite req (rkey 0 logBase) 0xFFFFFFFF).setReg 0 logBase w).same =
      [{ cyc := s.pegs.cyc, req, key := rkey 0 logBase, mask := 0xFFFFFFFF, fold := none }] := by
    simp [State.noteWrite, State.newAccess, h]
  rw [State.logBaseWritten, State.foldWrite, if_neg (by rw [State.logBase_awake]; decide)]
  unfold State.foldValue
  split
  · exact ⟨[], by simp, hnoted⟩
  · exact State.foldWritten_same _ req hnoted rfl _ _

end

/-- Only the entries of higher requesters claim bits, and folds claim none. -/
theorem foldl_mask_folds (fs : List CycWrite) (h : ∀ x ∈ fs, x.mask = 0) (m : Nat) : fs.foldl (fun m x => m ||| x.mask) m = m := by
  induction fs with
  | nil => rfl
  | cons x fs ih =>
    rw [List.foldl_cons, h x List.mem_cons_self, Nat.or_zero]
    exact ih (fun y hy => h y (List.mem_cons_of_mem _ hy))

section
variable {s : State} {lo hi : Fin 19} (hlt : lo.val < hi.val) (hs : s.same = []) (w : Word)
include hlt hs

/-- Behind a write of a lower requester, the higher one is alone. -/
theorem State.logBaseWritten_alone : (s.logBaseWritten lo w).Alone hi := by
  obtain ⟨fs, hfs, hsame⟩ := s.logBaseWritten_same lo w hs
  intro x hx _
  rw [hsame, List.mem_cons] at hx
  rcases hx with rfl | hx
  · exact Nat.le_of_lt hlt
  · exact (hfs x hx).2.1 ▸ Nat.le_of_lt hlt

/-- Behind a write of a higher requester, every bit is claimed for the lower one. -/
theorem State.logBaseWritten_claimed : ((s.logBaseWritten hi w).newAccess lo).claimed lo (rkey 0 logBase) = 0xFFFFFFFF := by
  obtain ⟨fs, hfs, hsame⟩ := s.logBaseWritten_same hi w hs
  have hcyc : (s.logBaseWritten hi w).pegs.cyc = s.pegs.cyc := by rw [State.logBaseWritten_frame]
  have hne : lo.val ≠ hi.val := Nat.ne_of_lt hlt
  have hkept : ((s.logBaseWritten hi w).newAccess lo).same = (s.logBaseWritten hi w).same := by
    refine if_neg ?_
    rw [hsame, hcyc]
    simp only [List.any_cons, List.any_eq_true, Bool.or_eq_true, beq_iff_eq, bne_iff_ne, ne_eq, not_true_eq_false, or_false, not_or,
      not_exists, not_and]
    exact ⟨fun he => hne he.symm, fun x hx => ⟨fun he => hne (he.symm.trans (hfs x hx).2.1), fun hc => hc (hfs x hx).1⟩⟩
  rw [State.claimed, hkept, hsame, List.filter_cons_of_pos (by simpa [State.newAccess, hcyc] using hlt), List.foldl_cons,
    foldl_mask_folds _ (fun x hx => (hfs x (List.mem_filter.mp hx).1).2.2), Nat.zero_or]

end

/-- Settles O13: a select register by the mask of its field; of two writes of HDMA_LOG_BASE_HI the lower requester's has no effect,
in front because it is overwritten, behind because the higher one has claimed every bit. -/
theorem selectsAreBanked : Obligations.SelectsAreBanked := by
  refine ⟨fun s req w f htakes halone hf => State.writeSelect htakes halone w hf, fun s lo hi v w hlo hhi hlt hs => ?_⟩
  have hfree (req : Fin 19) : s.Alone req := fun x hx => by rw [hs] at hx; cases hx
  have hfirst (req : Fin 19) : (s.newAccess req).claimed req (rkey 0 logBase) = 0 :=
    State.claimed_alone (State.newAccess_alone (hfree req)) _
  have hlo' := s.logBaseWritten_takes hi w hlo
  have hhi' := s.logBaseWritten_takes lo v hhi
  have hfin {t : State} {req : Fin 19} (h : t.Takes req) (x : Word) : Finishes (.registerWrite req (.reg 0xA0F24) (wholeWord x)) t
    (t.writeAt req (.reg 0xA0F24) (wholeWord x)) := done_runs h.1
  have hlow := hfin hlo v
  have hhigh := hfin hhi w
  rw [State.writeLogBase hlo v (hfirst lo)] at hlow
  rw [State.writeLogBase hhi w (hfirst hi)] at hhigh
  refine ⟨⟨_, _, hlow, hfin hhi' w, ?_⟩, ⟨_, _, hhigh, hfin hlo' v, ?_⟩⟩
  · rw [State.writeLogBase hhi' w (State.claimed_alone (State.newAccess_alone (State.logBaseWritten_alone hlt hs v)) _)]
    exact State.logBaseWritten_reg _ _ _
  · rw [State.reg, State.writeLogBase_lost hlo' v (State.logBaseWritten_claimed hlt hs w)]
    exact State.logBaseWritten_reg _ _ _

end Sys2Proof.Machine
end

section
/-!
PROOF. Commits and the core tick (R17, R18, R24, R26 to R28, R30, R31): the scope that a write of TICK_COMMIT captures, what the cutoff
takes, what a commit moves and what becomes of an octant's part. Settles O14, O15 and O16.
-/

namespace Sys2Proof.Machine

/-! ### A number put together from its bits -/

/-- The number whose bits below n are given. -/
def numberOf (p : Nat → Bool) (n : Nat) : Nat := (List.range n).foldl (fun v i => if p i then v + 2 ^ i else v) 0

theorem numberOf_succ (p : Nat → Bool) (n : Nat) :
    numberOf p (n + 1) = if p n then numberOf p n + 2 ^ n else numberOf p n := by
  simp [numberOf, List.range_succ]

theorem numberOf_lt (p : Nat → Bool) (n : Nat) : numberOf p n < 2 ^ n := by
  induction n with
  | zero => exact Nat.one_pos
  | succ n ih =>
    rw [numberOf_succ, Nat.pow_succ]
    split <;> omega

theorem bit_numberOf (p : Nat → Bool) {n i : Nat} (h : i < n) : bit (numberOf p n) i = p i := by
  rw [bit_eq_testBit]
  induction n with
  | zero => cases h
  | succ n ih =>
    have hhigh : (numberOf p n).testBit n = false := Nat.testBit_lt_two_pow (numberOf_lt p n)
    rw [numberOf_succ]
    rcases Nat.lt_succ_iff_lt_or_eq.mp h with hi | rfl
    · split
      · rw [Nat.add_comm, Nat.testBit_two_pow_add_gt hi, ih hi]
      · exact ih hi
    · cases hp : p i with
      | true => rw [if_pos rfl, Nat.add_comm, Nat.testBit_two_pow_add_eq, hhigh, Bool.not_false]
      | false => rw [if_neg Bool.false_ne_true, hhigh]

/-! ### TICK_COMMIT (R26, R27) -/

theorem tickCommit_finishes {s : State} {req : Fin 19} (h : s.Takes req) (w : Word) :
    Finishes (.tickCommit req w) s (s.tickCommit req w) := doneWrite_takes h

/-- A commit with every scope field zero has no effect. -/
theorem State.tickCommit_empty {s : State} {req : Nat} {w : Word} (hmask : getF w F.TICK_COMMIT_CH_BY_MASK = 0)
    (hoct : getF w F.TICK_COMMIT_CH_BY_OCT = 0) (hocts : getF w F.TICK_COMMIT_OCT_MASK = 0) (hdev : getF w F.TICK_COMMIT_DEV = 0) :
    s.tickCommit req w = s := by
  simp [State.tickCommit, hmask, hoct, hocts, hdev]

/-- The mask of channels that a requester has written (R26). -/
def State.chanMask (s : State) (req : Nat) : Nat := s.rd F.TICK_COMMIT_CHM1 req * 2 ^ 32 + s.rd F.TICK_COMMIT_CHM0 req

/-- Whether a channel lies in the scope of a write of TICK_COMMIT. -/
def State.scopeHas (s : State) (req : Nat) (w : Word) (c : Nat) : Bool :=
  (getF w F.TICK_COMMIT_CH_BY_MASK != 0 && bit (s.chanMask req) c) ||
    (getF w F.TICK_COMMIT_CH_BY_OCT != 0 && bit (getF w F.TICK_COMMIT_OCT_MASK) (c / 8))

/-- The commit that a write of TICK_COMMIT captures. -/
def State.captured (s : State) (req : Nat) (w : Word) : Commit :=
  { req, wait := if s.eng.past then 2 else 1, dev := getF w F.TICK_COMMIT_DEV != 0, octs := getF w F.TICK_COMMIT_OCT_MASK,
    chs := numberOf (s.scopeHas req w) 64 }

/-- The status that a requester's commit shows, due so many boundaries on. -/
def State.commitShown (s : State) (req wait : Nat) : State :=
  ((s.wr F.TICK_COMMIT_STAT_PENDING req 1).wrB F.TICK_COMMIT_STAT_LATE req s.eng.past).wr F.TICK_COMMIT_TICK req (s.eng.tick + wait)

section
variable {s : State} {req : Nat} {w : Word}

theorem bit_of_flag (b : Bool) (m c : Nat) : bit (if b = true then m else 0) c = (b && bit m c) := by
  cases b with
  | true => rfl
  | false => simp [bit]

/-- Any other write captures its scope behind the commits that wait. -/
theorem State.tickCommit_captures (h : getF w F.TICK_COMMIT_CH_BY_MASK ≠ 0 ∨ getF w F.TICK_COMMIT_CH_BY_OCT ≠ 0 ∨
    getF w F.TICK_COMMIT_OCT_MASK ≠ 0 ∨ getF w F.TICK_COMMIT_DEV ≠ 0) :
    s.tickCommit req w =
      { s with eng := { s.eng with commits := s.eng.commits ++ [s.captured req w] } }.commitShown req (s.captured req w).wait := by
  unfold State.tickCommit
  extract_lets byMask byOct octs dev m chs wait
  have hchs : chs = numberOf (s.scopeHas req w) 64 := by
    simp only [chs, numberOf, State.scopeHas, m, bit_of_flag]
    rfl
  have hcommit : ({ req, wait, dev, octs, chs } : Commit) = s.captured req w := by rw [hchs]; rfl
  rw [if_neg]
  · show ({ s with eng := { s.eng with commits := s.eng.commits ++ [({ req, wait, dev, octs, chs } : Commit)] } } : State).commitShown
      req wait = _
    rw [hcommit]
    rfl
  · simp only [byMask, byOct, octs, dev, Bool.and_eq_true, Bool.not_eq_true', bne_eq_false_iff_eq, beq_iff_eq]
    rintro ⟨⟨⟨hm, ho⟩, hos⟩, hd⟩
    rcases h with h | h | h | h
    · exact h hm
    · exact h ho
    · exact h hos
    · exact h hd

end

section
variable (s : State) (req wait : Nat)

theorem State.commitShown_frame : { s.commitShown req wait with eff := s.eff } = s := rfl

theorem State.commitShown_pending : (s.commitShown req wait).rd F.TICK_COMMIT_STAT_PENDING req = 1 := by
  rw [State.commitShown, State.rd_wr_clear _ _ _ _ (by decide), State.wrB, State.rd_wr_clear _ _ _ _ (by decide),
    State.rd_wr_held _ _ (by decide)]

theorem State.commitShown_late : (s.commitShown req wait).rd F.TICK_COMMIT_STAT_LATE req = if s.eng.past then 1 else 0 := by
  rw [State.commitShown, State.rd_wr_clear _ _ _ _ (by decide), State.wrB, State.rd_wr_held]
  cases s.eng.past <;> decide

theorem State.commitShown_tick : (s.commitShown req wait).rd F.TICK_COMMIT_TICK req = (s.eng.tick + wait) % 2 ^ 32 :=
  State.rd_wr_same _ _ _ _ ⟨by decide, by decide⟩

theorem State.commitShown_other {k : Nat} (hs : k ≠ rkey req F.TICK_COMMIT_STAT.off) (ht : k ≠ rkey req F.TICK_COMMIT_TICK.off) :
    tget regReset (s.commitShown req wait).eff k = tget regReset s.eff k := by
  have hstat : OnlyRegs [rkey req F.TICK_COMMIT_STAT.off, rkey req F.TICK_COMMIT_TICK.off] s (s.commitShown req wait) :=
    ((s.wr_onlyRegs _ (by simp [F.TICK_COMMIT_STAT_PENDING, F.TICK_COMMIT_STAT])).trans
      (State.wr_onlyRegs _ _ (by simp [F.TICK_COMMIT_STAT_LATE, F.TICK_COMMIT_STAT]))).trans
      (State.wr_onlyRegs _ _ (by simp))
  exact hstat.2 k (by simp [hs, ht])

end

/-- Settles O14: a write by whether a scope field is set, and the masks as registers that only hold what is written. -/
theorem commitScopeCaptured : Obligations.CommitScopeCaptured := by
  intro s req w htakes
  refine ⟨fun hm ho hos hd => ?_, fun off v hoff => ?_, fun h => ?_⟩
  · have hfin := tickCommit_finishes htakes w
    rwa [State.tickCommit_empty hm ho hos hd] at hfin
  · have hmasks : ∀ o ∈ [0x104, 0x108], o ∈ plainOffs ∧ (findRow o).any (fun r => r.bank == .req && r.holdsOnly) = true := by
      decide +kernel
    obtain ⟨o, ho, rfl⟩ : ∃ o ∈ [0x104, 0x108], off = BitVec.ofNat 20 o := by simpa using hoff
    obtain ⟨hplain, hany⟩ := hmasks o ho
    obtain ⟨r, hrow, hr⟩ := Option.any_eq_true _ _ |>.mp hany
    simp only [Bool.and_eq_true, beq_iff_eq] at hr
    have hinst : s.writeInsts req r = [req.val] := by simp [State.writeInsts, hr.1]
    refine ⟨_, done_runs htakes.1, ?_⟩
    rw [State.writeAt_plain htakes hplain hrow hinst, State.writeInst_plain_eng _ _ _ hplain hr.2]
    rfl
  · have hfin := tickCommit_finishes htakes w
    rw [State.tickCommit_captures h] at hfin
    exact ⟨_, s.captured req w, hfin, rfl, rfl, rfl, rfl, rfl, fun c hc => bit_numberOf _ hc, State.commitShown_pending _ _ _,
      State.commitShown_late _ _ _, State.commitShown_tick _ _ _, rfl, fun k hs ht => State.commitShown_other _ _ _ hs ht⟩

/-! ### The cutoff (R28) -/

/-- The admin gate entries taken at the cutoff touch the gates alone. -/
theorem State.gateSnapshots_frame (s : State) (cs : List Nat) :
    cs.foldl State.gateSnapshot s = { s with egress := (cs.foldl State.gateSnapshot s).egress } := by
  induction cs generalizing s with
  | nil => rfl
  | cons c cs ih =>
    rw [List.foldl_cons, ih (s.gateSnapshot c)]
    rfl

/-- The cutoff passes once a tick. -/
theorem commitCutoff_passed {s : State} (h : s.eng.past = true) : commitCutoff s = s := if_pos h

theorem State.runCycles_frame (s : State) (n : Nat) : s.runCycles n = { s with pegs := (s.runCycles n).pegs } := rfl

/-- As the clocks run on, nothing but the pegs changes. -/
theorem State.runTo_frame (s : State) (t : Nat) : s.runTo t = { s with pegs := (s.runTo t).pegs } := s.runCycles_frame _

/-- The first cutoff of a tick comes at a time of the pegs, and takes the shadows and the gate entries of some channels. -/
theorem commitCutoff_first {s : State} (h : s.eng.past = false) : ∃ (cs : List Nat) (p : Pegs), commitCutoff s =
    cs.foldl State.gateSnapshot { s with eng := { s.eng with past := true }, snap := s.shd, pegs := p } := by
  unfold commitCutoff
  rw [if_neg (by rw [h]; exact Bool.false_ne_true), State.runTo_frame]
  generalize (s.runTo (s.eng.nextB - 1000 * unitNs)).pegs = p
  exact ⟨_, p, rfl⟩

theorem commitCutoff_finishes {s : State} (h : s.Runs) : Finishes .commitCutoff s (commitCutoff s) := done_runs h

/-- Settles O15: a cutoff that has passed does nothing, and one that comes takes the shadows and no value into effect. -/
theorem cutoffSnapshots : Obligations.CutoffSnapshots := by
  intro s hruns
  refine ⟨_, commitCutoff_finishes hruns, ?_⟩
  cases hpast : s.eng.past with
  | true =>
    rw [commitCutoff_passed hpast]
    refine ⟨fun _ => rfl, by simp, rfl, rfl, ?_, rfl, rfl, rfl, rfl⟩
    rw [← hpast]
  | false =>
    obtain ⟨cs, p, hcs⟩ := commitCutoff_first hpast
    rw [hcs, State.gateSnapshots_frame]
    exact ⟨by simp, fun _ => rfl, rfl, rfl, rfl, rfl, rfl, rfl, rfl⟩

/-! ### What a commit moves, and what becomes of a part (R24, R30, R31) -/

theorem State.commitKey_of_row (s : State) (snap : Tab Word) {k : Nat} {r : RegRow} (h : findRow (k % 0x100000) = some r) :
    s.commitKey snap k = { s with eff := tput regReset s.eff k ((tget regReset s.eff k &&& ~~~(BitVec.ofNat 32 (rwtMask r))) |||
      (tget regReset snap k &&& BitVec.ofNat 32 (rwtMask r))) } := by
  simp [State.commitKey, h]

section
variable {s : State} {due : List Commit} {o : Nat} (h : (s.partFor due o).reqs ≠ [])
include h

theorem State.fate_held (hbusy : (s.seqOf o).backlog ≠ 0 ∨ s.octRuns o = false) : s.fate due o = .hold (s.partFor due o) := by
  have htakes : s.takesPart o = false := by
    rcases hbusy with hback | hstop
    · simp [State.takesPart, hback]
    · simp [State.takesPart, hstop]
  simp [State.fate, h, htakes]

theorem State.fate_taken (hback : (s.seqOf o).backlog = 0) (hrun : s.octRuns o = true) : s.fate due o =
    if levelMax (s.octPwr o).level < s.rolesAfter o (s.partFor due o) then
      .refuse (s.partFor due o) (s.rolesAfter o (s.partFor due o)) (levelMax (s.octPwr o).level) else .apply (s.partFor due o) := by
  simp [State.fate, h, State.takesPart, hback, hrun]

end

/-- Settles O16: a register by its row, and a part by whether the octant takes it and by the roles that it would leave. -/
theorem commitParts : Obligations.CommitParts := by
  refine ⟨fun s snap k r hrow => ?_, ?_⟩
  · rw [s.commitKey_of_row snap hrow]
    exact ⟨tget_tput_same _ _ _ _, rfl, fun j hj => tget_tput_ne _ _ _ (by simpa using hj)⟩
  · rintro s due o h rfl hreqs
    refine ⟨State.fate_held hreqs, fun hback hrun => ?_⟩
    rw [State.fate_taken hreqs hback hrun]
    exact ⟨fun hlt => if_pos hlt, fun hle => if_neg (Nat.not_lt.mpr hle)⟩

end Sys2Proof.Machine
end

section
/-!
PROOF. The losses of a lane's lock (R46, R445): what a loss drops and what it counts. Settles O20.
-/

namespace Sys2Proof.Machine

/-! ### The status fields of a lane -/

section
variable (s : State) (l v : Nat) {hi lo hi' lo' : Nat}

theorem State.rdP_wrP_laneFld (h : lo ≤ hi ∧ hi < 32) :
    (s.wrP (laneFld l hi lo) v).rdP (laneFld l hi lo) = v % 2 ^ (hi + 1 - lo) := by
  unfold laneFld
  split <;> exact s.rd_wr_same _ _ _ h

/-- A write of one field of the status register leaves those beside it alone. -/
theorem State.rdP_wrP_beside (h : (lo ≤ hi ∧ hi < 32) ∧ (lo' ≤ hi' ∧ hi' < 32) ∧ (hi < lo' ∨ hi' < lo)) :
    (s.wrP (laneFld l hi lo) v).rdP (laneFld l hi' lo') = s.rdP (laneFld l hi' lo') := by
  obtain ⟨hf, hg, hd⟩ := h
  unfold laneFld
  split <;> exact s.rd_wr_fld _ _ hf hg rfl hd

theorem State.rdP_wrP_tfAlign : (s.wrP (tfAlign l) v).rdP (laneFld l hi lo) = s.rdP (laneFld l hi lo) := by
  unfold laneFld tfAlign
  split
  · exact s.rd_wr_off _ _ (by simp only [F.TWN_L_TF_STAT_ALIGN]; omega)
  · exact s.rd_wr_off _ _ (by simp [F.CH_TF_STAT_ALIGN])

/-- LOCK_LOSS counts up to the largest value of its field. -/
theorem State.rdP_incP_laneFld (h : lo ≤ hi ∧ hi < 32) :
    (s.incP (laneFld l hi lo)).rdP (laneFld l hi lo) = min (s.rdP (laneFld l hi lo) + 1) (2 ^ (hi + 1 - lo) - 1) := by
  unfold laneFld
  split <;> exact s.rd_inc_same _ h

theorem State.rdP_incP_beside (h : (lo ≤ hi ∧ hi < 32) ∧ (lo' ≤ hi' ∧ hi' < 32) ∧ (hi < lo' ∨ hi' < lo)) :
    (s.incP (laneFld l hi lo)).rdP (laneFld l hi' lo') = s.rdP (laneFld l hi' lo') := s.rdP_wrP_beside l _ h

theorem State.rdP_of_off {s : State} {p : Fld × Nat} (h : s.onP p = false) : s.rdP p = 0 := by
  simpa [State.onP, State.on, State.rdP] using h

theorem State.framerOff_rdP : (s.framerOff l).rdP (laneFld l hi lo) = s.rdP (laneFld l hi lo) := by
  have hleave : (s.leaveSync l).rdP (laneFld l hi lo) = s.rdP (laneFld l hi lo) := by
    unfold State.leaveSync
    split
    next hsync =>
      have hline : isSurok l = false := by
        simp only [Bool.and_eq_true, Bool.not_eq_true'] at hsync
        exact hsync.2
      simp only [laneFld, hline, Bool.false_eq_true, if_false]
      exact State.rd_wr_off _ _ _ (by simp [F.CH_LTICK_OFS_VALID])
    · rfl
  unfold State.framerOff
  split
  · exact ((s.leaveSync l).rdP_wrP_tfAlign l alOff).trans hleave
  · rfl

theorem State.framerOff_lanes : (s.framerOff l).lanes = s.lanes := by
  unfold State.framerOff State.leaveSync
  split
  · split <;> rfl
  · rfl

end

/-! ### A fault of a lane's lock (R404, R407) -/

/-- No action of a lost lock changes the state (Table: Fault actions). -/
theorem State.applyAction_lockLoss (s : State) (inst action : Nat) : (s.applyAction fsLockLoss inst action).1 = s := by
  unfold State.applyAction
  split
  · rfl
  · split
    · rfl
    · split <;> rfl

theorem State.watch_lockLoss_rd (s : State) (inst i : Nat) {f : Fld} (hf : f.off < 0x90000) :
    (s.watch fsLockLoss inst).rd f i = s.rd f i :=
  State.watch_keeps (fun s => s.rd f i) (fun _ _ => rfl) (fun s v => s.msix_rd v f i)
    (fun s j => s.rd_inc_apart j i (by decide) (by omega) (Nat.ne_of_lt (Nat.lt_trans hf (by decide))))
    (fun s cls idx => s.raise_rd cls idx i hf) _ _ (fun s action => by rw [State.applyAction_lockLoss]) s

theorem State.msix_lanes (s : State) (vec : Nat) : (s.msix vec).lanes = s.lanes := by
  unfold State.msix
  split
  · split <;> rfl
  · rfl

theorem State.watch_lockLoss_lanes (s : State) (inst : Nat) : (s.watch fsLockLoss inst).lanes = s.lanes :=
  State.watch_keeps State.lanes (fun _ _ => rfl) State.msix_lanes (fun _ _ => rfl)
    (State.raise_keeps State.lanes (fun _ _ _ _ _ _ => rfl) (fun _ _ => rfl)) _ _
    (fun s action => by rw [State.applyAction_lockLoss]) s

/-! ### Codeword lock lost (R46) -/

/-- A lane that has lost codeword lock, before the loss is watched. -/
def State.lockLost (s : State) (l : Nat) : State :=
  (((((s.framerOff l).wrP (laneCWL l) 0).wrP (laneFEC l) 0).incP (laneLoss l)).modLane l (fun x =>
    { x with conf := none, badHdr := 0, goodDec := 0, uncRun := 0, hunt := (x.hunt + 1) % 2720 })).modFramer l
      (fun f => { f with seen := { f.seen with noCwl := true } })

section
variable {s : State} {l : Nat}

theorem State.loseCodewordLock_unlocked (h : s.onP (laneCWL l) = false) : s.loseCodewordLock l = s := by
  unfold State.loseCodewordLock
  rw [if_pos (by rw [h]; rfl)]

theorem State.loseCodewordLock_locked (h : s.onP (laneCWL l) = true) :
    s.loseCodewordLock l = if isSurok l then s.lockLost l else (s.lockLost l).watch fsLockLoss l := by
  unfold State.loseCodewordLock
  rw [if_neg (by rw [h]; decide)]
  rfl

/-- Watching the loss leaves the status register of the lane alone. -/
theorem State.loseCodewordLock_rdP (h : s.onP (laneCWL l) = true) (hi lo : Nat) :
    (s.loseCodewordLock l).rdP (laneFld l hi lo) = (s.lockLost l).rdP (laneFld l hi lo) := by
  rw [State.loseCodewordLock_locked h]
  cases hs : isSurok l with
  | true => rfl
  | false =>
    simp only [laneFld, hs]
    exact State.watch_lockLoss_rd _ _ _ (f := ⟨0x40200, hi, lo⟩) (by decide : (0x40200 : Nat) < 0x90000)

theorem State.loseCodewordLock_hunt (h : s.onP (laneCWL l) = true) :
    ((s.loseCodewordLock l).lane l).hunt = ((s.lane l).hunt + 1) % 2720 := by
  have hlost : ((s.lockLost l).lane l).hunt = ((s.lane l).hunt + 1) % 2720 := by
    have hkept : (((s.framerOff l).wrP (laneCWL l) 0).wrP (laneFEC l) 0 |>.incP (laneLoss l)).lane l = s.lane l := by
      show tget _ (s.framerOff l).lanes l = _
      rw [State.framerOff_lanes]
      rfl
    exact (congrArg Lane.hunt (tget_tput_same _ _ _ _)).trans (by rw [hkept])
  rw [State.loseCodewordLock_locked h]
  split
  · exact hlost
  · rw [State.lane, State.watch_lockLoss_lanes]
    exact hlost

variable (s l)

theorem State.lockLost_cwl : (s.lockLost l).rdP (laneCWL l) = 0 := by
  show (((s.framerOff l).wrP (laneCWL l) 0).wrP (laneFEC l) 0 |>.incP (laneLoss l)).rdP (laneCWL l) = 0
  rw [laneLoss, laneCWL, laneFEC, State.rdP_incP_beside _ _ (by decide), State.rdP_wrP_beside _ _ _ (by decide),
    State.rdP_wrP_laneFld _ _ _ (by decide)]
  rfl

theorem State.lockLost_fec : (s.lockLost l).rdP (laneFEC l) = 0 := by
  show (((s.framerOff l).wrP (laneCWL l) 0).wrP (laneFEC l) 0 |>.incP (laneLoss l)).rdP (laneFEC l) = 0
  rw [laneLoss, laneCWL, laneFEC, State.rdP_incP_beside _ _ (by decide), State.rdP_wrP_laneFld _ _ _ (by decide)]
  rfl

theorem State.lockLost_loss : (s.lockLost l).rdP (laneLoss l) = min (s.rdP (laneLoss l) + 1) 255 := by
  show (((s.framerOff l).wrP (laneCWL l) 0).wrP (laneFEC l) 0 |>.incP (laneLoss l)).rdP (laneLoss l) = _
  rw [laneLoss, laneCWL, laneFEC, State.rdP_incP_laneFld _ _ (by decide), State.rdP_wrP_beside _ _ _ (by decide),
    State.rdP_wrP_beside _ _ _ (by decide), State.framerOff_rdP]
  norm_num

/-- Stages 0 and 1, below the lost one, stay. -/
theorem State.lockLost_below {k : Nat} (hk : k < 2) : (s.lockLost l).rdP (laneFld l k k) = s.rdP (laneFld l k k) := by
  show (((s.framerOff l).wrP (laneCWL l) 0).wrP (laneFEC l) 0 |>.incP (laneLoss l)).rdP (laneFld l k k) = _
  rw [laneLoss, laneCWL, laneFEC, State.rdP_incP_beside _ _ (by omega), State.rdP_wrP_beside _ _ _ (by omega),
    State.rdP_wrP_beside _ _ _ (by omega), State.framerOff_rdP]

end

/-! ### What each loss leaves (R46, R445) -/

section
variable (s : State) (l : Nat)

theorem State.loseCodewordLock_cwl : (s.loseCodewordLock l).rdP (laneCWL l) = 0 := by
  cases h : s.onP (laneCWL l) with
  | true => exact (State.loseCodewordLock_rdP h 2 2).trans (s.lockLost_cwl l)
  | false => rw [State.loseCodewordLock_unlocked h, State.rdP_of_off h]

theorem State.loseCodewordLock_below {k : Nat} (hk : k < 2) :
    (s.loseCodewordLock l).rdP (laneFld l k k) = s.rdP (laneFld l k k) := by
  cases h : s.onP (laneCWL l) with
  | true => exact (State.loseCodewordLock_rdP h k k).trans (s.lockLost_below l hk)
  | false => rw [State.loseCodewordLock_unlocked h]

/-- CDR_LOCK_LOSS on a lane. -/
def State.loseCdr (s : State) (l : Nat) : State :=
  (((s.loseCodewordLock l).dropCandidate l).wrP (laneCDR l) 0).modFramer l (fun f => { f with seen := { f.seen with noCwl := true } })

/-- A loss of signal, and of CDR lock, leaves the stages above and LOCK_LOSS as the loss of codeword lock does. -/
theorem State.loseSignal_above {hi lo : Nat} (h : 2 ≤ lo ∧ lo ≤ hi ∧ hi < 32) :
    (s.loseSignal l).rdP (laneFld l hi lo) = (s.loseCodewordLock l).rdP (laneFld l hi lo) := by
  show (((s.loseCodewordLock l).dropCandidate l).wrP (laneSIG l) 0 |>.wrP (laneCDR l) 0).rdP _ = _
  rw [laneCDR, laneSIG, State.rdP_wrP_beside _ _ _ (by omega), State.rdP_wrP_beside _ _ _ (by omega)]
  rfl

theorem State.loseCdr_above {hi lo : Nat} (h : 2 ≤ lo ∧ lo ≤ hi ∧ hi < 32) :
    (s.loseCdr l).rdP (laneFld l hi lo) = (s.loseCodewordLock l).rdP (laneFld l hi lo) := by
  show (((s.loseCodewordLock l).dropCandidate l).wrP (laneCDR l) 0).rdP _ = _
  rw [laneCDR, State.rdP_wrP_beside _ _ _ (by omega)]
  rfl

theorem State.loseSignal_sig : (s.loseSignal l).rdP (laneSIG l) = 0 := by
  show (((s.loseCodewordLock l).dropCandidate l).wrP (laneSIG l) 0 |>.wrP (laneCDR l) 0).rdP _ = _
  rw [laneCDR, laneSIG, State.rdP_wrP_beside _ _ _ (by decide), State.rdP_wrP_laneFld _ _ _ (by decide)]
  rfl

theorem State.loseSignal_cdr : (s.loseSignal l).rdP (laneCDR l) = 0 := by
  show (((s.loseCodewordLock l).dropCandidate l).wrP (laneSIG l) 0 |>.wrP (laneCDR l) 0).rdP _ = _
  rw [laneCDR, State.rdP_wrP_laneFld _ _ _ (by decide)]
  rfl

theorem State.loseCdr_cdr : (s.loseCdr l).rdP (laneCDR l) = 0 := by
  show (((s.loseCodewordLock l).dropCandidate l).wrP (laneCDR l) 0).rdP _ = _
  rw [laneCDR, State.rdP_wrP_laneFld _ _ _ (by decide)]
  rfl

theorem State.loseCdr_sig : (s.loseCdr l).rdP (laneSIG l) = s.rdP (laneSIG l) := by
  show (((s.loseCodewordLock l).dropCandidate l).wrP (laneCDR l) 0).rdP _ = _
  rw [laneCDR, laneSIG, State.rdP_wrP_beside _ _ _ (by decide)]
  exact s.loseCodewordLock_below l (k := 0) (by decide)

end

theorem lossOfSignal_finishes {s : State} (h : s.Runs) (l : Fin 72) : Finishes (.lossOfSignal l) s (s.loseSignal l) := done_runs h

theorem cdrLockLoss_finishes {s : State} (h : s.Runs) (l : Fin 72) : Finishes (.cdrLockLoss l) s (s.loseCdr l) := done_runs h

theorem alignmentMarkerLockLoss_finishes {s : State} (h : s.Runs) (c : Fin 64) : Finishes (.alignmentMarkerLockLoss c) s
    (if s.role c == roleClient then s.loseCodewordLock c else s) := done_runs h

/-- Settles O20: a loss of signal or of CDR lock leaves the stages above and LOCK_LOSS as the loss of codeword lock that it brings. -/
theorem laneLosses : Obligations.LaneLosses := by
  have habove : 2 ≤ 2 ∧ 2 ≤ 2 ∧ 2 < 32 := by decide
  have habove' : 2 ≤ 3 ∧ 3 ≤ 3 ∧ 3 < 32 := by decide
  have hloss : 2 ≤ 24 ∧ 24 ≤ 31 ∧ 31 < 32 := by decide
  refine ⟨fun s l hruns => ⟨⟨_, lossOfSignal_finishes hruns l, s.loseSignal_sig l, s.loseSignal_cdr l, ?_, fun hoff => ?_⟩,
    ⟨_, cdrLockLoss_finishes hruns l, s.loseCdr_cdr l, ?_, s.loseCdr_sig l, fun hoff => ?_⟩, fun c hno => ?_⟩,
    fun s l hruns hon => ⟨⟨_, lossOfSignal_finishes hruns l, s.loseSignal_sig l, s.loseSignal_cdr l, ?_, ?_, ?_⟩,
      ⟨_, cdrLockLoss_finishes hruns l, s.loseCdr_cdr l, ?_, ?_, ?_⟩, fun c hc hrole => ?_⟩⟩
  · exact (s.loseSignal_above l habove).trans (s.loseCodewordLock_cwl l)
  · exact (s.loseSignal_above l hloss).trans (by rw [State.loseCodewordLock_unlocked hoff]; rfl)
  · exact (s.loseCdr_above l habove).trans (s.loseCodewordLock_cwl l)
  · exact (s.loseCdr_above l hloss).trans (by rw [State.loseCodewordLock_unlocked hoff]; rfl)
  · have hfin := alignmentMarkerLockLoss_finishes hruns c
    rcases hno with hrole | hoff
    · rwa [if_neg (by simpa using hrole)] at hfin
    · rwa [State.loseCodewordLock_unlocked hoff, ite_self] at hfin
  · exact (s.loseSignal_above l habove).trans (s.loseCodewordLock_cwl l)
  · exact (s.loseSignal_above l habove').trans ((State.loseCodewordLock_rdP hon _ _).trans (s.lockLost_fec l))
  · exact (s.loseSignal_above l hloss).trans ((State.loseCodewordLock_rdP hon _ _).trans (s.lockLost_loss l))
  · exact (s.loseCdr_above l habove).trans (s.loseCodewordLock_cwl l)
  · exact (s.loseCdr_above l habove').trans ((State.loseCodewordLock_rdP hon _ _).trans (s.lockLost_fec l))
  · exact (s.loseCdr_above l hloss).trans ((State.loseCodewordLock_rdP hon _ _).trans (s.lockLost_loss l))
  · have hfin := alignmentMarkerLockLoss_finishes hruns c
    rw [hc] at hrole hfin
    rw [if_pos (by simpa using hrole)] at hfin
    exact ⟨_, hfin, s.loseCodewordLock_cwl l, (State.loseCodewordLock_rdP hon _ _).trans (s.lockLost_fec l),
      (State.loseCodewordLock_rdP hon _ _).trans (s.lockLost_loss l)⟩

end Sys2Proof.Machine
end

section
/-!
PROOF. How the lock stages of a lane are entered (R44, R47, R58, R61) and what its test facilities do (R63, R65, R67). Settles O19
and O22.
-/

namespace Sys2Proof.Machine

/-- A command whose effect hangs on a test, told by the proposition that the test decides. -/
theorem done_if {s t : State} (hruns : s.Runs) {b : Bool} {P : Prop} [Decidable P] (h : b = true ↔ P) :
    done s (if b = true then t else s) = .next (s.after (if P then t else s)) := by
  rw [done_runs hruns, if_congr h rfl rfl]

/-! ### The arrival times of PCS lanes -/

theorem le_foldl_max_iff (a b : Nat) (xs : List Nat) : xs.foldl max a ≤ b ↔ a ≤ b ∧ ∀ x ∈ xs, x ≤ b := by
  induction xs generalizing a with
  | nil => simp
  | cons x xs ih => simp [ih, and_assoc]

theorem le_foldl_min_iff (a b : Nat) (xs : List Nat) : b ≤ xs.foldl min a ↔ b ≤ a ∧ ∀ x ∈ xs, b ≤ x := by
  induction xs generalizing a with
  | nil => simp
  | cons x xs ih => simp [ih, and_assoc]

/-- The last arrival lies at most d behind the first exactly where no two lie more than d apart. -/
theorem skew_le_iff (xs : List Nat) (d : Nat) :
    xs.foldl max 0 ≤ xs.foldl min (xs.headD 0) + d ↔ ∀ a ∈ xs, ∀ b ∈ xs, a ≤ b + d := by
  have hfirst (m : Nat) : m ≤ xs.foldl min (xs.headD 0) ↔ (m = 0 ∨ xs ≠ []) ∧ ∀ x ∈ xs, m ≤ x := by
    rw [le_foldl_min_iff]
    cases xs <;> simp
  rw [le_foldl_max_iff]
  simp only [Nat.zero_le, true_and]
  refine forall₂_congr fun a ha => ?_
  have hne : xs ≠ [] := List.ne_nil_of_mem ha
  rw [← Nat.sub_le_iff_le_add, hfirst]
  simp only [hne, ne_eq, not_false_eq_true, or_true, true_and, Nat.sub_le_iff_le_add]

/-- Settles O19: each test of the model decides the condition that the statement names. -/
theorem laneStages : Obligations.LaneStages := by
  refine fun s l hruns => ⟨done_if hruns ?_, done_if hruns ?_, done_runs hruns, fun c arrival => done_if hruns ?_⟩
  · simp
  · simp [and_assoc]
  · simp only [Bool.and_eq_true, beq_iff_eq, decide_eq_true_eq, skew_le_iff, and_assoc]

/-! ### The test facilities -/

section
variable {s : State} (hruns : s.Runs) (l : Fin 72)
include hruns

theorem eyeScanDone_finishes (errs : Nat) : Finishes (.eyeScanDone l errs) s
    (if (s.lane l).scan = true then
      ((s.wr F.TST_EYE_SCAN_ERRORS l (min errs 65535)).wr F.TST_EYE_SCAN_DONE l 1).modLane l (fun x => { x with scan := false })
    else s) := done_runs hruns

theorem eyeMarginMeasure_finishes (v h : Byte) : Finishes (.eyeMarginMeasure l v h) s
    (if (s.onP (laneFEC l) || decide (s.laneRole l = roleHead)) = true then
      if isSurok l = true then
        (s.wr (F.TWN_L_EYE_MARGIN_V (l - 64)) 0 v.toNat).wr (F.TWN_L_EYE_MARGIN_H (l - 64)) 0 h.toNat
      else (s.wr F.CH_EYE_MARGIN_V l v.toNat).wr F.CH_EYE_MARGIN_H l h.toNat
    else s) := done_runs hruns

end

theorem isSurok_of_le {l : Nat} (h : 64 ≤ l) : isSurok l = true := decide_eq_true h

theorem isSurok_of_lt {l : Nat} (h : l < 64) : isSurok l = false := decide_eq_false (Nat.not_le.mpr h)

theorem State.laneRole_of_lt (s : State) {l : Nat} (h : l < 64) : s.laneRole l = s.role l := by
  rw [State.laneRole, isSurok_of_lt h]
  rfl

/-- Settles O22. -/
theorem testFacilities : Obligations.TestFacilities := by
  refine fun s l hruns => ⟨done_if hruns (by simp), fun errs => done_runs hruns, done_if hruns (by simp [and_assoc]),
    fun errs hscan => ?_, fun errs hscan => ?_, fun v h hfec hrole => ?_, fun v h hl hfec => ?_, fun v h hl hon => ?_⟩
  · have hfin := eyeScanDone_finishes hruns l errs
    rw [if_pos hscan] at hfin
    refine ⟨_, hfin, ?_, ?_, ?_, rfl⟩
    · rw [State.rd_of_eff (State.modLane_eff _ _ _)]
      exact State.rd_wr_held _ _ (by decide)
    · rw [State.rd_of_eff (State.modLane_eff _ _ _), State.rd_wr_clear _ _ _ _ (by decide), State.rd_wr_same _ _ _ _ ⟨by decide, by decide⟩]
      exact Nat.mod_eq_of_lt (Nat.lt_of_le_of_lt (Nat.min_le_right _ _) (by decide))
    · exact congrArg Lane.scan (tget_tput_same _ _ _ _)
  · exact (eyeScanDone_finishes hruns l errs).trans (by rw [if_neg (by simp [hscan])])
  · exact (eyeMarginMeasure_finishes hruns l v h).trans (by rw [if_neg (by simp [hfec, hrole])])
  · exact (eyeMarginMeasure_finishes hruns l v h).trans (by rw [if_pos (by simp [hfec]), if_pos (isSurok_of_le hl)])
  · refine (eyeMarginMeasure_finishes hruns l v h).trans ?_
    rw [if_pos (by simpa [s.laneRole_of_lt hl] using hon), if_neg (by simp [isSurok_of_lt hl])]

end Sys2Proof.Machine
end

section
/-!
PROOF. A codeword at a receiver (R43, R46, R47): where it goes by the lane's role, what a head end counts, and the loss of codeword
lock at the fourth bad header run. Settles O21.
-/

namespace Sys2Proof.Machine

section
variable {s : State} {l bits : Nat}

/-! ### Where a codeword goes -/

theorem codewordReceived_unpowered (h : s.rxPowered l = false) : codewordReceived l bits s = s := by
  rw [codewordReceived, if_pos (by rw [h]; rfl)]

variable (hp : s.rxPowered l = true)
include hp

theorem codewordReceived_head (hr : s.laneRole l = roleHead) : codewordReceived l bits s = s.burstCodeword l (s.polarised l bits) := by
  rw [codewordReceived, if_neg (by rw [hp]; decide)]
  exact if_pos hr

theorem codewordReceived_client (hr : s.laneRole l = roleClient) :
    codewordReceived l bits s = s.clientCodeword l (s.polarised l bits) := by
  rw [codewordReceived, if_neg (by rw [hp]; decide)]
  exact (if_neg (by rw [hr]; decide)).trans (if_pos hr)

section
variable (hh : s.laneRole l ≠ roleHead) (hc : s.laneRole l ≠ roleClient)
include hh hc

theorem codewordReceived_tree (ht : s.testable l = false) :
    codewordReceived l bits s = s.treeCodeword l (s.polarised l bits) := by
  rw [codewordReceived, if_neg (by rw [hp]; decide)]
  exact (if_neg hh).trans ((if_neg hc).trans (if_neg (by rw [ht]; decide)))

theorem codewordReceived_test (ht : s.testable l = true) : codewordReceived l bits s =
    ((s.testLoop l bits).2.checkPattern l (s.polarised l (s.testLoop l bits).1)).treeCodeword l
      (s.polarised l (s.testLoop l bits).1) := by
  rw [codewordReceived, if_neg (by rw [hp]; decide)]
  exact (if_neg hh).trans ((if_neg hc).trans (if_pos ht))

end
end

section
variable {s : State} {l bits : Nat}

theorem State.testLoop_far (hf : s.on F.TST_LOOP_FAR l = true) :
    s.testLoop l bits = (bits, s.emit (.symbols l (pam4Levels 2720 bits))) := by
  rw [State.testLoop, if_pos hf]

/-- With neither loopback nor generator a lane under test takes in what its line input carries. -/
theorem State.testLoop_line (hf : s.on F.TST_LOOP_FAR l = false) (hn : s.on F.TST_LOOP_NEAR l = false)
    (hg : s.on F.TST_PRBS_CFG_GEN_EN l = false) : s.testLoop l bits = (bits, s) := by
  rw [State.testLoop, if_neg (by rw [hf]; decide), if_pos (by rw [hn, hg]; rfl)]

/-! ### What a head end counts -/

theorem laneFecUncorr_of_lt (h : l < 64) : laneFecUncorr l = (F.CH_FEC_UNCORR, l) := by
  rw [laneFecUncorr, isSurok_of_lt h]
  rfl

theorem laneFecCorr_of_lt (h : l < 64) : laneFecCorr l = (F.CH_FEC_CORR, l) := by
  rw [laneFecCorr, isSurok_of_lt h]
  rfl

/-- Past the counting, a burst's codeword changes only the lane. -/
theorem State.burstCodeword_counted (s : State) (l cw : Nat) :
    (s.burstCodeword l cw).eff = (s.countCodeword l (rsDecode 16 (cwSymbols cw))).eff ∧
      (s.burstCodeword l cw).framers = (s.countCodeword l (rsDecode 16 (cwSymbols cw))).framers := by
  unfold State.burstCodeword
  generalize rsDecode 16 (cwSymbols cw) = dec
  dsimp only
  split <;> exact ⟨rfl, rfl⟩

theorem State.countCodeword_none (s : State) (l : Nat) : s.countCodeword l none =
    (s.incP (laneFecUncorr l)).modFramer l (fun f => { f with seen := f.seen.codeword true 0 }) := rfl

theorem State.countCodeword_some_eff (s : State) (l : Nat) (w : List Nat) (e : List (Nat × Nat)) :
    (s.countCodeword l (some (w, e))).eff = (if e = [] then s else s.incP (laneFecCorr l)).eff := rfl

theorem State.countCodeword_head_none (h : l < 64) : (s.countCodeword l none).eff = (s.inc F.CH_FEC_UNCORR l).eff := by
  show (s.incP (laneFecUncorr l)).eff = _
  rw [laneFecUncorr_of_lt h]
  rfl

theorem lt_of_laneRole_head (h : s.laneRole l = roleHead) : l < 64 := by
  by_contra hl
  rw [State.laneRole, isSurok_of_le (Nat.not_lt.mp hl), if_pos rfl] at h
  exact absurd h (by decide)

/-- An uncorrectable codeword of a burst. -/
theorem State.burstCodeword_none (hl : l < 64) {cw : Nat} (hdec : rsDecode 16 (cwSymbols cw) = none) :
    (s.burstCodeword l cw).rdP (laneFecUncorr l) = min (s.rdP (laneFecUncorr l) + 1) (2 ^ 32 - 1) ∧
      (s.burstCodeword l cw).rdP (laneFecCorr l) = s.rdP (laneFecCorr l) ∧
      (s.burstCodeword l cw).framer l = { s.framer l with seen := (s.framer l).seen.codeword true 0 } := by
  obtain ⟨heff, hframers⟩ := s.burstCodeword_counted l cw
  rw [hdec] at heff hframers
  rw [State.countCodeword_head_none hl] at heff
  rw [laneFecUncorr_of_lt hl, laneFecCorr_of_lt hl]
  dsimp only [State.rdP]
  refine ⟨(State.rd_of_eff heff _ _).trans (State.rd_inc_same _ _ ⟨by decide, by decide⟩),
    (State.rd_of_eff heff _ _).trans (State.rd_inc_clear _ _ _ (by decide)), ?_⟩
  rw [State.framer, hframers, s.countCodeword_none l]
  exact State.framer_modFramer_same _ _ _

/-- A corrected codeword of a burst counts once, whatever it took to correct. -/
theorem State.burstCodeword_some (hl : l < 64) {cw : Nat} {w : List Nat} {e : List (Nat × Nat)}
    (hdec : rsDecode 16 (cwSymbols cw) = some (w, e)) :
    (s.burstCodeword l cw).rdP (laneFecUncorr l) = s.rdP (laneFecUncorr l) ∧
      (s.burstCodeword l cw).rdP (laneFecCorr l) = min (s.rdP (laneFecCorr l) + (if e = [] then 0 else 1)) (2 ^ 32 - 1) := by
  obtain ⟨heff, -⟩ := s.burstCodeword_counted l cw
  rw [hdec, State.countCodeword_some_eff, laneFecCorr_of_lt hl] at heff
  rw [laneFecUncorr_of_lt hl, laneFecCorr_of_lt hl]
  dsimp only [State.rdP, State.incP] at heff ⊢
  split at heff
  next he =>
    have hlt : s.rd F.CH_FEC_CORR l < 2 ^ 32 := getF_lt _ F.CH_FEC_CORR
    refine ⟨State.rd_of_eff heff _ _, (State.rd_of_eff heff _ _).trans ?_⟩
    rw [if_pos he, Nat.add_zero, Nat.min_eq_left (Nat.le_sub_one_of_lt hlt)]
  next he =>
    rw [if_neg he]
    exact ⟨(State.rd_of_eff heff _ _).trans (State.rd_inc_clear _ _ _ (by decide)),
      (State.rd_of_eff heff _ _).trans (State.rd_inc_same _ _ ⟨by decide, by decide⟩)⟩

/-! ### The fourth codeword in a row with too few valid headers -/

theorem State.lockedCodeword_fourth {cw : Nat} (hbad : (s.lane l).badHdr = 3) (hv : validHeaders cw < 78) :
    s.lockedCodeword l cw = s.loseCodewordLock l := by
  unfold State.lockedCodeword
  dsimp only
  rw [if_pos hv, if_pos (by omega)]

/-- A codeword under codeword lock, at the offset of the receiver: the stream goes on besides. -/
theorem State.treeCodeword_locked (hcdr : s.onP (laneCDR l) = true) (hcwl : s.onP (laneCWL l) = true) :
    ∃ scr : Nat → Nat, s.treeCodeword l bits =
      (s.lockedCodeword l (((s.lane l).prev + bits * 2 ^ 5440) / 2 ^ (2 * (s.lane l).hunt) % 2 ^ 5440)).modLane l
        (fun y => { y with prev := bits, scr := scr y.scr }) := by
  refine ⟨fun x => scrAfter x (((s.lane l).prev + bits * 2 ^ 5440) / 2 ^ (2 * (s.lane l).hunt) % 2 ^ 5440), ?_⟩
  unfold State.treeCodeword
  dsimp only
  rw [if_neg (by rw [hcdr]; decide), if_pos hcwl]

theorem State.treeCodeword_fourth (hcdr : s.onP (laneCDR l) = true) (hcwl : s.onP (laneCWL l) = true)
    (hbad : (s.lane l).badHdr = 3)
    (hv : validHeaders (((s.lane l).prev + bits * 2 ^ 5440) / 2 ^ (2 * (s.lane l).hunt) % 2 ^ 5440) < 78) :
    (s.treeCodeword l bits).rdP (laneCWL l) = 0 ∧ (s.treeCodeword l bits).rdP (laneFEC l) = 0 ∧
      ((s.treeCodeword l bits).lane l).hunt = ((s.lane l).hunt + 1) % 2720 := by
  obtain ⟨scr, htree⟩ := State.treeCodeword_locked (bits := bits) hcdr hcwl
  rw [State.lockedCodeword_fourth hbad hv] at htree
  rw [htree]
  refine ⟨?_, ?_, ?_⟩
  · exact (State.rd_of_eff (State.modLane_eff _ _ _) _ _).trans (s.loseCodewordLock_cwl l)
  · exact (State.rd_of_eff (State.modLane_eff _ _ _) _ _).trans ((State.loseCodewordLock_rdP hcwl _ _).trans (s.lockLost_fec l))
  · exact (congrArg Lane.hunt (tget_tput_same _ _ _ _)).trans (State.loseCodewordLock_hunt hcwl)

end

theorem codewordReceived_finishes {s t : State} (hruns : s.Runs) {l : Fin 72} {bits : BitVec 5440}
    (h : codewordReceived l bits.toNat s = t) : Finishes (.codewordReceived l bits) s t := by
  rw [← h]
  exact done_runs hruns

/-- Settles O21: the role of the lane decides where the codeword goes; what it leaves is told of each receiver by itself. -/
theorem codewordReceivedByRole : Obligations.CodewordReceived := by
  refine fun s l bits hruns => ⟨fun hp => ⟨_, rfl, fun hr => ?_, fun hr => ?_, fun hh hc ht => ?_, fun hh hc ht hf => ?_,
    fun hh hc ht hf hn hg => ?_, fun hh hc ht t htl => ?_⟩, fun hp => ?_, fun hp hr => ⟨fun hdec => ?_, fun w e hdec => ?_⟩,
    fun hp hh hc hcdr hcwl hbad ht hv => ?_⟩
  · exact codewordReceived_finishes hruns (codewordReceived_head hp hr)
  · exact codewordReceived_finishes hruns (codewordReceived_client hp hr)
  · exact codewordReceived_finishes hruns (codewordReceived_tree hp hh hc ht)
  · exact codewordReceived_finishes hruns ((codewordReceived_test hp hh hc ht).trans (by rw [State.testLoop_far hf]))
  · exact codewordReceived_finishes hruns ((codewordReceived_test hp hh hc ht).trans (by rw [State.testLoop_line hf hn hg]))
  · exact codewordReceived_finishes hruns ((codewordReceived_test hp hh hc ht).trans (by rw [htl]))
  · exact codewordReceived_finishes hruns (codewordReceived_unpowered hp)
  · exact ⟨_, codewordReceived_finishes hruns (codewordReceived_head hp hr), State.burstCodeword_none (lt_of_laneRole_head hr) hdec⟩
  · exact ⟨_, codewordReceived_finishes hruns (codewordReceived_head hp hr), State.burstCodeword_some (lt_of_laneRole_head hr) hdec⟩
  · exact ⟨_, codewordReceived_finishes hruns (codewordReceived_tree hp hh hc ht), State.treeCodeword_fourth hcdr hcwl hbad hv⟩

end Sys2Proof.Machine
end

section
/-!
PROOF. Who launches a bridge, and what a Surok lane's launch leaves (R19, R327). Settles O25.
-/

namespace Sys2Proof.Machine

/-! ### The line tick that ends -/

/-- What the line tick's end sends does not hang on the twin agent. -/
theorem State.sendLineTick_withTwin (s : State) (w : Twin) (l blocks : Nat) :
    ({ s with twin := w } : State).sendLineTick l blocks = { s.sendLineTick l blocks with twin := w } := by
  by_cases h : (s.lane l).tx.items.isEmpty = true
  · rw [State.sendLineTick, State.sendLineTick, if_pos h]
    exact if_pos h
  · rw [State.sendLineTick, State.sendLineTick, if_neg h]
    exact if_neg h

/-- Once a line tick has left, none of its items waits. -/
theorem State.sendLineTick_items (s : State) (l blocks : Nat) : ((s.sendLineTick l blocks).lane l).tx.items = [] := by
  unfold State.sendLineTick
  dsimp only
  split
  next h => exact List.isEmpty_iff.mp h
  next => exact congrArg (fun x : Lane => x.tx.items) (tget_tput_same _ s.lanes l _)

/-- It changes its own lane and what is sent. -/
theorem State.sendLineTick_lane_ne (s : State) {l k : Nat} (blocks : Nat) (h : k ≠ l) :
    (s.sendLineTick l blocks).lane k = s.lane k := by
  unfold State.sendLineTick
  dsimp only
  split
  · rfl
  · exact tget_tput_ne _ _ _ h

theorem State.sendLineTick_keeps (s : State) (l blocks : Nat) : (s.sendLineTick l blocks).eff = s.eff ∧
    (s.sendLineTick l blocks).framers = s.framers ∧ (s.sendLineTick l blocks).store = s.store := by
  unfold State.sendLineTick
  dsimp only
  split <;> exact ⟨rfl, rfl, rfl⟩

/-! ### The bridge that a Surok lane launches -/

/-- The frame alignment word stands in block 0 (R70). -/
theorem BridgeFields.take_bytes (b : BridgeFields) : b.bytes.take 8 = toBytes (bytesBE 8 0xA74C1D93F05E6B28) := by
  unfold BridgeFields.bytes
  simp only [List.append_assoc]
  exact List.take_left' (by simp [toBytes, bytesBE, bytesLE])

/-- The line tick before leaves, and another begins with the bridge at its head. -/
def State.surokSent (s : State) (l launched blocks : Nat) (bytes : List Byte) (j : Nat) : State :=
  (((s.sendLineTick l (s.lane l).tx.blocks).modLane l (fun x => { x with tx := { x.tx with
    launched := launched, blocks := blocks, busyTo := 64 } })).putBridge l bytes).emit (.bridge l j bytes)

theorem surokLaunch_on {s : State} {i : Nat} (hp : s.paired = true) (hon : s.rdP (lanePWR (64 + i)) = pwrOn) :
    ∃ w launched blocks b j, surokLaunch i s =
      ({ s with twin := w } : State).surokSent (64 + i) launched blocks (BridgeFields.bytes b) j := by
  unfold surokLaunch
  rw [if_neg (by simp [hp, hon])]
  exact ⟨_, _, _, _, _, rfl⟩

theorem surokLaunch_off {s : State} {i : Nat} (h : s.paired = false ∨ s.rdP (lanePWR (64 + i)) ≠ pwrOn) : surokLaunch i s = s := by
  unfold surokLaunch
  rw [if_pos (by simpa using h)]

section
variable (s : State) (w : Twin) (l launched blocks : Nat) (bytes : List Byte) (j : Nat)

theorem State.surokSent_items :
    ((({ s with twin := w } : State).surokSent l launched blocks bytes j).lane l).tx.items = [(0, dataBlocks bytes)] := by
  show (tget _ (tput _ _ _ _) l : Lane).tx.items = _
  rw [tget_tput_same]
  show (tget _ (tput _ _ _ _) l : Lane).tx.items ++ _ = _
  rw [tget_tput_same]
  show ((({ s with twin := w } : State).sendLineTick l _).lane l).tx.items ++ _ = _
  rw [State.sendLineTick_items, List.nil_append]

theorem State.surokSent_lane_ne {k : Nat} (h : k ≠ l) :
    (({ s with twin := w } : State).surokSent l launched blocks bytes j).lane k = s.lane k := by
  refine (tget_tput_ne _ _ _ h).trans ((tget_tput_ne _ _ _ h).trans ?_)
  exact State.sendLineTick_lane_ne _ _ h

theorem State.surokSent_out : (({ s with twin := w } : State).surokSent l launched blocks bytes j).out =
    .bridge l j bytes :: (s.sendLineTick l (s.lane l).tx.blocks).out := by
  have hout := congrArg State.out (s.sendLineTick_withTwin w l (s.lane l).tx.blocks)
  exact congrArg (List.cons (Out.bridge l j bytes)) hout

end

theorem bridgeLaunch_line {s : State} (hruns : s.Runs) {l : Fin 72} (hl : l.val < 64) :
    Finishes (.bridgeLaunch l) s (if s.role l = roleHead ∧ s.octRuns (octOf l) = true then s.headBridge l else s) := by
  refine (done_runs hruns).trans ?_
  rw [if_pos hl, treeBridgeLaunch]
  simp only [Bool.and_eq_true, beq_iff_eq]

theorem bridgeLaunch_surok {s : State} (hruns : s.Runs) {l : Fin 72} (hl : 64 ≤ l.val) :
    Finishes (.bridgeLaunch l) s (surokLaunch (l.val - 64) s) := by
  refine (done_runs hruns).trans ?_
  rw [if_neg (Nat.not_lt.mpr hl)]

/-- Settles O25. -/
theorem bridgeLaunch : Obligations.BridgeLaunch := by
  refine fun s l hruns => ⟨fun hl hno => ?_, fun hl hrole hoct => ?_, fun hl hp hon => ?_, fun hl hoff => ?_⟩
  · have hfin := bridgeLaunch_line hruns hl
    rwa [if_neg (by rintro ⟨hrole, hoct⟩; simp_all)] at hfin
  · have hfin := bridgeLaunch_line hruns hl
    rwa [if_pos ⟨hrole, hoct⟩] at hfin
  · have hfin := bridgeLaunch_surok hruns hl
    have hsum : 64 + (l.val - 64) = l.val := Nat.add_sub_of_le hl
    rw [← hsum] at hon
    obtain ⟨w, launched, blocks, b, j, hsent⟩ := surokLaunch_on hp hon
    rw [hsent, hsum] at hfin
    obtain ⟨heff, hframers, hstore⟩ := ({ s with twin := w } : State).sendLineTick_keeps l (s.lane l).tx.blocks
    exact ⟨_, j, b.bytes, hfin, s.surokSent_out w l launched blocks b.bytes j, s.surokSent_items w l launched blocks b.bytes j,
      b.take_bytes, fun k hk => s.surokSent_lane_ne w l launched blocks b.bytes j hk, heff, hframers, hstore⟩
  · have hfin := bridgeLaunch_surok hruns hl
    rwa [surokLaunch_off (by rwa [Nat.add_sub_of_le hl])] at hfin

end Sys2Proof.Machine
end

section
/-!
PROOF. The clamps of a commit: the sideband fields (R52) and the transmit taps (R56). Settles O24.
-/

namespace Sys2Proof.Machine

/-! ### The sideband fields -/

section
variable (s : State) (c : Nat)

/-- What the clamps bring each sideband field to. -/
def State.sbLead : Nat := min (s.rd F.CH_SB_CFG_EN_LEAD c) 48
def State.sbLag : Nat := min (s.rd F.CH_SB_CFG_EN_LAG c) 32
def State.sbLen : Nat := max 4 (min (s.rd F.CH_SB_CFG_RST_LEN c) 48)
def State.sbOfs : Nat := min (s.rd F.CH_SB_CFG_RST_OFS c) (64 - s.sbLen c)

/-- Whether a clamp changes a field. -/
def State.sbClamped : Bool :=
  s.sbLead c != s.rd F.CH_SB_CFG_EN_LEAD c || s.sbLag c != s.rd F.CH_SB_CFG_EN_LAG c ||
    s.sbLen c != s.rd F.CH_SB_CFG_RST_LEN c || s.sbOfs c != s.rd F.CH_SB_CFG_RST_OFS c

theorem State.clampSideband_eq : s.clampSideband c =
    ((((s.wr F.CH_SB_CFG_EN_LEAD c (s.sbLead c)).wr F.CH_SB_CFG_EN_LAG c (s.sbLag c)).wr F.CH_SB_CFG_RST_LEN c (s.sbLen c)).wr
      F.CH_SB_CFG_RST_OFS c (s.sbOfs c)).wr F.CH_LANE_STAT_SB_CLAMP c (if s.sbClamped c then 1 else 0) := rfl

theorem State.clampSideband_lead : (s.clampSideband c).rd F.CH_SB_CFG_EN_LEAD c = s.sbLead c := by
  have hlt : s.sbLead c < 2 ^ F.CH_SB_CFG_EN_LEAD.width := Nat.lt_of_le_of_lt (Nat.min_le_right _ _) (by decide)
  rw [State.clampSideband_eq, State.rd_wr_clear _ _ _ _ (by decide), State.rd_wr_clear _ _ _ _ (by decide),
    State.rd_wr_clear _ _ _ _ (by decide), State.rd_wr_clear _ _ _ _ (by decide), State.rd_wr_same _ _ _ _ ⟨by decide, by decide⟩,
    Nat.mod_eq_of_lt hlt]

theorem State.clampSideband_lag : (s.clampSideband c).rd F.CH_SB_CFG_EN_LAG c = s.sbLag c := by
  have hlt : s.sbLag c < 2 ^ F.CH_SB_CFG_EN_LAG.width := Nat.lt_of_le_of_lt (Nat.min_le_right _ _) (by decide)
  rw [State.clampSideband_eq, State.rd_wr_clear _ _ _ _ (by decide), State.rd_wr_clear _ _ _ _ (by decide),
    State.rd_wr_clear _ _ _ _ (by decide), State.rd_wr_same _ _ _ _ ⟨by decide, by decide⟩, Nat.mod_eq_of_lt hlt]

theorem State.clampSideband_len : (s.clampSideband c).rd F.CH_SB_CFG_RST_LEN c = s.sbLen c := by
  have hlt : s.sbLen c < 2 ^ F.CH_SB_CFG_RST_LEN.width :=
    Nat.lt_of_le_of_lt (Nat.max_le.mpr ⟨by decide, Nat.min_le_right _ _⟩ : s.sbLen c ≤ 48) (by decide)
  rw [State.clampSideband_eq, State.rd_wr_clear _ _ _ _ (by decide), State.rd_wr_clear _ _ _ _ (by decide),
    State.rd_wr_same _ _ _ _ ⟨by decide, by decide⟩, Nat.mod_eq_of_lt hlt]

theorem State.clampSideband_ofs : (s.clampSideband c).rd F.CH_SB_CFG_RST_OFS c = s.sbOfs c := by
  have hlt : s.sbOfs c < 2 ^ F.CH_SB_CFG_RST_OFS.width := Nat.lt_of_le_of_lt (Nat.min_le_left _ _) (getF_lt _ _)
  rw [State.clampSideband_eq, State.rd_wr_clear _ _ _ _ (by decide), State.rd_wr_same _ _ _ _ ⟨by decide, by decide⟩,
    Nat.mod_eq_of_lt hlt]

theorem State.clampSideband_shows : (s.clampSideband c).rd F.CH_LANE_STAT_SB_CLAMP c = 1 ↔ s.sbClamped c = true := by
  rw [State.clampSideband_eq, State.rd_wr_same _ _ _ _ ⟨by decide, by decide⟩]
  cases s.sbClamped c <;> decide

theorem State.clampSideband_onlyRegs : OnlyRegs [rkey c 0x40214, rkey c 0x40200] s (s.clampSideband c) := by
  have hcfg (t : State) {f : Fld} (v : Nat) (hf : f.off = 0x40214) : OnlyRegs [rkey c 0x40214, rkey c 0x40200] t (t.wr f c v) :=
    t.wr_onlyRegs v (by rw [hf]; exact List.mem_cons_self)
  rw [State.clampSideband_eq]
  refine OnlyRegs.trans ?_ (State.wr_onlyRegs _ _ (List.mem_cons_of_mem _ List.mem_cons_self))
  exact (((hcfg _ _ rfl).trans (hcfg _ _ rfl)).trans (hcfg _ _ rfl)).trans (hcfg _ _ rfl)

end

/-! ### Two's-complement fields of eight bits -/

section
variable (s : State) {f : Fld} (i : Nat)

theorem State.rdInt_range (h : f.width = 8) : -128 ≤ s.rdInt f i ∧ s.rdInt f i < 128 := by
  have hlt : s.rd f i < 2 ^ f.width := getF_lt _ _
  unfold State.rdInt
  rw [h] at hlt ⊢
  dsimp only
  split <;> omega

theorem State.rdInt_wr_codeInt (hok : f.ok) (hw : f.width = 8) {v : Int} (h : -128 ≤ v ∧ v < 128) :
    (s.wr f i (codeInt 8 v)).rdInt f i = v := by
  unfold State.rdInt
  rw [State.rd_wr_same _ _ _ _ hok, hw]
  dsimp only [codeInt]
  split <;> omega

theorem State.rdInt_wr_clear {g : Fld} (v : Nat) (h : f.clearOf g = true) : (s.wr f i v).rdInt g i = s.rdInt g i := by
  unfold State.rdInt
  rw [State.rd_wr_clear _ _ _ _ h]

end

/-! ### Taps reduced -/

section
variable (v : Int) (e : Nat)

theorem reduceTap_natAbs : (reduceTap v e).1.natAbs = v.natAbs - e := by
  unfold reduceTap
  dsimp only
  split <;> omega

theorem reduceTap_excess : (reduceTap v e).2 = e - v.natAbs := by
  unfold reduceTap
  dsimp only
  omega

/-- A tap keeps its sign, or becomes 0. -/
theorem reduceTap_between : (0 ≤ v → 0 ≤ (reduceTap v e).1 ∧ (reduceTap v e).1 ≤ v) ∧
    (v < 0 → v ≤ (reduceTap v e).1 ∧ (reduceTap v e).1 ≤ 0) := by
  unfold reduceTap
  dsimp only
  split <;> omega

theorem reduceTap_zero : (reduceTap v 0).1 = v := by
  unfold reduceTap
  dsimp only
  split <;> omega

/-- What is left of a tap stays in eight bits. -/
theorem reduceTap_range {v : Int} (h : -128 ≤ v ∧ v < 128) (e : Nat) : -128 ≤ (reduceTap v e).1 ∧ (reduceTap v e).1 < 128 := by
  obtain ⟨hpos, hneg⟩ := reduceTap_between v e
  rcases lt_or_ge v 0 with hv | hv
  · have := hneg hv
    omega
  · have := hpos hv
    omega

end

/-! ### The taps of a line lane -/

section
variable (s : State) (c : Nat)

/-- By how much the magnitudes of the taps together pass 127. -/
def State.tapExcess : Nat :=
  (s.rdInt F.CH_EQ_TX_PRE2 c).natAbs + (s.rdInt F.CH_EQ_TX_PRE1 c).natAbs + s.rd F.CH_EQ_TX_MAIN c +
    (s.rdInt F.CH_EQ_TX_POST1 c).natAbs - 127

/-- The taps after the clamp, each beside the excess that it leaves for the next. -/
def State.mainTap : Int × Nat := reduceTap (s.rd F.CH_EQ_TX_MAIN c) (s.tapExcess c)
def State.post1Tap : Int × Nat := reduceTap (s.rdInt F.CH_EQ_TX_POST1 c) (s.mainTap c).2
def State.pre1Tap : Int × Nat := reduceTap (s.rdInt F.CH_EQ_TX_PRE1 c) (s.post1Tap c).2
def State.pre2Tap : Int × Nat := reduceTap (s.rdInt F.CH_EQ_TX_PRE2 c) (s.pre1Tap c).2

theorem State.clampTaps_eq : ∃ v, s.clampTaps c =
    ((((s.wr F.CH_EQ_TX_MAIN c (s.mainTap c).1.toNat).wr F.CH_EQ_TX_POST1 c (codeInt 8 (s.post1Tap c).1)).wr F.CH_EQ_TX_PRE1 c
      (codeInt 8 (s.pre1Tap c).1)).wr F.CH_EQ_TX_PRE2 c (codeInt 8 (s.pre2Tap c).1)).wr F.CH_LANE_STAT_EQ_CLAMP c v := by
  unfold State.pre2Tap State.pre1Tap State.post1Tap State.mainTap State.tapExcess State.clampTaps State.clampEq
  exact ⟨_, rfl⟩

theorem State.mainTap_toNat : (s.mainTap c).1.toNat = s.rd F.CH_EQ_TX_MAIN c - s.tapExcess c := by
  have habs := reduceTap_natAbs (s.rd F.CH_EQ_TX_MAIN c) (s.tapExcess c)
  have hpos := ((reduceTap_between (s.rd F.CH_EQ_TX_MAIN c) (s.tapExcess c)).1 (Int.natCast_nonneg _)).1
  unfold State.mainTap
  omega

theorem State.clampTaps_main : (s.clampTaps c).rd F.CH_EQ_TX_MAIN c = s.rd F.CH_EQ_TX_MAIN c - s.tapExcess c := by
  have hlt : s.rd F.CH_EQ_TX_MAIN c - s.tapExcess c < 2 ^ F.CH_EQ_TX_MAIN.width := Nat.lt_of_le_of_lt (Nat.sub_le _ _) (getF_lt _ _)
  obtain ⟨v, heq⟩ := s.clampTaps_eq c
  rw [heq, State.rd_wr_clear _ _ _ _ (by decide), State.rd_wr_clear _ _ _ _ (by decide), State.rd_wr_clear _ _ _ _ (by decide),
    State.rd_wr_clear _ _ _ _ (by decide), State.rd_wr_same _ _ _ _ ⟨by decide, by decide⟩, s.mainTap_toNat, Nat.mod_eq_of_lt hlt]

theorem State.clampTaps_post1 : (s.clampTaps c).rdInt F.CH_EQ_TX_POST1 c = (s.post1Tap c).1 := by
  obtain ⟨v, heq⟩ := s.clampTaps_eq c
  rw [heq, State.rdInt_wr_clear _ _ _ (by decide), State.rdInt_wr_clear _ _ _ (by decide), State.rdInt_wr_clear _ _ _ (by decide)]
  exact State.rdInt_wr_codeInt _ _ ⟨by decide, by decide⟩ rfl (reduceTap_range (s.rdInt_range c rfl) _)

theorem State.clampTaps_pre1 : (s.clampTaps c).rdInt F.CH_EQ_TX_PRE1 c = (s.pre1Tap c).1 := by
  obtain ⟨v, heq⟩ := s.clampTaps_eq c
  rw [heq, State.rdInt_wr_clear _ _ _ (by decide), State.rdInt_wr_clear _ _ _ (by decide)]
  exact State.rdInt_wr_codeInt _ _ ⟨by decide, by decide⟩ rfl (reduceTap_range (s.rdInt_range c rfl) _)

theorem State.clampTaps_pre2 : (s.clampTaps c).rdInt F.CH_EQ_TX_PRE2 c = (s.pre2Tap c).1 := by
  obtain ⟨v, heq⟩ := s.clampTaps_eq c
  rw [heq, State.rdInt_wr_clear _ _ _ (by decide)]
  exact State.rdInt_wr_codeInt _ _ ⟨by decide, by decide⟩ rfl (reduceTap_range (s.rdInt_range c rfl) _)

/-- The main tap gives way first: what it leaves of the excess. -/
theorem State.mainTap_excess : (s.mainTap c).2 = s.tapExcess c - s.rd F.CH_EQ_TX_MAIN c := reduceTap_excess _ _

/-- Four magnitudes, of which an excess above 127 is taken one after the other, the third first and the first last. -/
theorem taps_sum (p q m r : Nat) : (p - (p + q + m + r - 127 - m - r - q)) + (q - (p + q + m + r - 127 - m - r)) +
    (m - (p + q + m + r - 127)) + (r - (p + q + m + r - 127 - m)) = min 127 (p + q + m + r) := by
  omega

/-- Together the taps give way by the excess. -/
theorem State.clampTaps_sum :
    ((s.clampTaps c).rdInt F.CH_EQ_TX_PRE2 c).natAbs + ((s.clampTaps c).rdInt F.CH_EQ_TX_PRE1 c).natAbs +
        (s.clampTaps c).rd F.CH_EQ_TX_MAIN c + ((s.clampTaps c).rdInt F.CH_EQ_TX_POST1 c).natAbs =
      min 127 ((s.rdInt F.CH_EQ_TX_PRE2 c).natAbs + (s.rdInt F.CH_EQ_TX_PRE1 c).natAbs + s.rd F.CH_EQ_TX_MAIN c +
        (s.rdInt F.CH_EQ_TX_POST1 c).natAbs) := by
  have hpost : (s.post1Tap c).1.natAbs = (s.rdInt F.CH_EQ_TX_POST1 c).natAbs - (s.mainTap c).2 := reduceTap_natAbs _ _
  have hpost' : (s.post1Tap c).2 = (s.mainTap c).2 - (s.rdInt F.CH_EQ_TX_POST1 c).natAbs := reduceTap_excess _ _
  have hpre1 : (s.pre1Tap c).1.natAbs = (s.rdInt F.CH_EQ_TX_PRE1 c).natAbs - (s.post1Tap c).2 := reduceTap_natAbs _ _
  have hpre1' : (s.pre1Tap c).2 = (s.post1Tap c).2 - (s.rdInt F.CH_EQ_TX_PRE1 c).natAbs := reduceTap_excess _ _
  have hpre2 : (s.pre2Tap c).1.natAbs = (s.rdInt F.CH_EQ_TX_PRE2 c).natAbs - (s.pre1Tap c).2 := reduceTap_natAbs _ _
  rw [s.clampTaps_main, s.clampTaps_post1, s.clampTaps_pre1, s.clampTaps_pre2, hpre2, hpre1, hpost, hpre1', hpost', s.mainTap_excess]
  exact taps_sum _ _ _ _

/-- Where the main tap has taken the whole excess, the other taps stay. -/
theorem State.clampTaps_others (h : (s.clampTaps c).rd F.CH_EQ_TX_MAIN c ≠ 0) :
    (s.clampTaps c).rdInt F.CH_EQ_TX_POST1 c = s.rdInt F.CH_EQ_TX_POST1 c ∧
      (s.clampTaps c).rdInt F.CH_EQ_TX_PRE1 c = s.rdInt F.CH_EQ_TX_PRE1 c ∧
      (s.clampTaps c).rdInt F.CH_EQ_TX_PRE2 c = s.rdInt F.CH_EQ_TX_PRE2 c := by
  rw [s.clampTaps_main] at h
  have hmain : (s.mainTap c).2 = 0 := by rw [s.mainTap_excess]; omega
  have hpost : (s.post1Tap c).2 = 0 := by rw [State.post1Tap, reduceTap_excess, hmain, Nat.zero_sub]
  have hpre : (s.pre1Tap c).2 = 0 := by rw [State.pre1Tap, reduceTap_excess, hpost, Nat.zero_sub]
  refine ⟨(s.clampTaps_post1 c).trans ?_, (s.clampTaps_pre1 c).trans ?_, (s.clampTaps_pre2 c).trans ?_⟩
  · rw [State.post1Tap, hmain, reduceTap_zero]
  · rw [State.pre1Tap, hpost, reduceTap_zero]
  · rw [State.pre2Tap, hpre, reduceTap_zero]

end

/-- Settles O24. -/
theorem clamps : Obligations.Clamps := by
  refine ⟨fun s c => ?_, fun s c => ⟨s.clampTaps_sum c, ?_, s.clampTaps_others c, ?_⟩⟩
  · rw [s.clampSideband_lead, s.clampSideband_lag, s.clampSideband_len, s.clampSideband_ofs, s.clampSideband_shows]
    exact ⟨rfl, rfl, rfl, rfl, by simp [State.sbClamped, or_assoc], s.clampSideband_onlyRegs c⟩
  · rw [s.clampTaps_main]
    exact Nat.sub_le _ _
  · obtain ⟨v, heq⟩ := s.clampTaps_eq c
    rw [heq]
    rfl

end Sys2Proof.Machine
end

section
/-!
PROOF. A frame on a tree (R43, R83, R84, R86, R371): what discards it, what is counted, and what goes on to the pipes. Settles O28.
-/

namespace Sys2Proof.Machine

section
variable {s : State} {c : Nat} {f : List Byte} {ltn block ago : Nat}

/-! ### The checks of R86, one after the other -/

theorem State.takeTreeFrame_off (h : s.takesFrames c = false) (spoilt : Nat) : s.takeTreeFrame c f ltn block spoilt ago = s := by
  rw [State.takeTreeFrame, if_pos (by rw [h]; rfl)]

theorem State.takeTreeFrame_badBlock (ht : s.takesFrames c = true) : s.takeTreeFrame c f ltn block 2 ago = s.inc F.CH_TF_BADBLK c := by
  rw [State.takeTreeFrame, if_neg (by rw [ht]; decide), if_pos rfl]

/-- A frame whose link header fails its check. -/
def State.badHeader (s : State) (c : Nat) : State :=
  ((s.inc F.CH_TF_LHDR_ERR c).frmDisc c).modFramer c (fun x => { x with seen := { x.seen with errored := true } })

section
variable (ht : s.takesFrames c = true) {spoilt : Nat} (hsp : spoilt ≠ 2)
include ht hsp

theorem State.takeTreeFrame_badHeader (hcrc : fieldBE f 6 2 ≠ crc16 (f.take 6)) :
    s.takeTreeFrame c f ltn block spoilt ago = s.badHeader c := by
  rw [State.takeTreeFrame, if_neg (by rw [ht]; decide), if_neg hsp, if_pos (by simpa using hcrc)]
  rfl

variable (hcrc : fieldBE f 6 2 = crc16 (f.take 6))
include hcrc

theorem State.takeTreeFrame_badLength
    (hlen : hdrLen f < 64 ∨ s.rd F.CH_TF_CFG_MAX_LEN c < hdrLen f ∨ f.length ≠ 8 + hdrLen f ∨ spoilt ≠ 0) :
    s.takeTreeFrame c f ltn block spoilt ago = s.inc F.CH_TF_FRM_DISC c := by
  rw [State.takeTreeFrame, if_neg (by rw [ht]; decide), if_neg hsp, if_neg (by simp [hcrc]), if_pos (by simpa [or_assoc] using hlen)]
  rfl

end

/-- A frame that passes the checks of its header, its length and its codewords. -/
structure TreeFrameSound (s : State) (c : Nat) (f : List Byte) : Prop where
  takes : s.takesFrames c = true
  crc : fieldBE f 6 2 = crc16 (f.take 6)
  least : 64 ≤ hdrLen f
  most : hdrLen f ≤ s.rd F.CH_TF_CFG_MAX_LEN c
  whole : f.length = 8 + hdrLen f

/-- What the receiver does with a sound frame. -/
def State.takeSound (s : State) (c : Nat) (f : List Byte) (ltn block ago : Nat) : State :=
  if s.role c == roleHead && (s.grantedAt c ltn block != some (hdrTid f) || s.recState c (hdrTid f) != hOperate) then s.frmDisc c
  else if s.role c == roleTerm && !hdrBc f && (!s.on F.CH_TF_CFG_TID_VALID c || s.rd F.CH_TF_CFG_TID c != hdrTid f) then s
  else
    match (s.openFrame c ltn block f).1 with
    | none => (s.openFrame c ltn block f).2
    | some bytes => (s.openFrame c ltn block f).2.lineFrame c bytes (hdrTid f) (hdrBc f) (hdrProt f) ago

section
variable (h : TreeFrameSound s c f)
include h

theorem State.takeTreeFrame_sound : s.takeTreeFrame c f ltn block 0 ago = s.takeSound c f ltn block ago := by
  obtain ⟨ht, hcrc, hleast, hmost, hwhole⟩ := h
  rw [State.takeTreeFrame, if_neg (by rw [ht]; decide), if_neg (by decide), if_neg (by simp [hcrc]),
    if_neg (by simp [hwhole, hleast, hmost])]
  rfl

theorem State.takeTreeFrame_spoilt : s.takeTreeFrame c f ltn block 1 ago = s.inc F.CH_TF_FRM_DISC c :=
  State.takeTreeFrame_badLength h.takes (by decide) h.crc (.inr (.inr (.inr (by decide))))

end

/-! ### A sound frame: whose it is -/

theorem State.takeSound_notGranted (hrole : s.role c = roleHead)
    (h : s.grantedAt c ltn block ≠ some (hdrTid f) ∨ s.recState c (hdrTid f) ≠ hOperate) :
    s.takeSound c f ltn block ago = s.inc F.CH_TF_FRM_DISC c := by
  rw [State.takeSound, if_pos (by simpa [hrole] using h)]
  rfl

theorem State.takeSound_forOthers (hrole : s.role c = roleTerm) (hbc : hdrBc f = false)
    (h : s.on F.CH_TF_CFG_TID_VALID c = false ∨ s.rd F.CH_TF_CFG_TID c ≠ hdrTid f) : s.takeSound c f ltn block ago = s := by
  rw [State.takeSound, if_neg (by rw [hrole]; simp [roleTerm, roleHead]), if_pos (by simpa [hrole, hbc] using h)]

/-- The frame is for this receiver, under record t of keys in a direction. -/
def State.framesOwn (s : State) (c : Nat) (f : List Byte) (ltn block t dir : Nat) : Prop :=
  (s.role c = roleHead ∧ s.grantedAt c ltn block = some (hdrTid f) ∧ s.recState c (hdrTid f) = hOperate ∧ t = hdrTid f ∧ dir = 1) ∨
    (s.role c = roleTerm ∧ (hdrBc f = true ∨ (s.on F.CH_TF_CFG_TID_VALID c = true ∧ s.rd F.CH_TF_CFG_TID c = hdrTid f)) ∧
      t = 0 ∧ dir = 0)

section
variable {t dir : Nat} (hown : s.framesOwn c f ltn block t dir)
include hown

theorem State.takeSound_own : s.takeSound c f ltn block ago =
    match (s.openFrame c ltn block f).1 with
    | none => (s.openFrame c ltn block f).2
    | some bytes => (s.openFrame c ltn block f).2.lineFrame c bytes (hdrTid f) (hdrBc f) (hdrProt f) ago := by
  rcases hown with ⟨hrole, hgrant, hrec, -, -⟩ | ⟨hrole, hfor, -, -⟩
  · rw [State.takeSound, if_neg (by simp [hgrant, hrec]), if_neg (by rw [hrole]; simp [roleTerm, roleHead])]
  · rw [State.takeSound, if_neg (by rw [hrole]; simp [roleTerm, roleHead]), if_neg ?_]
    rcases hfor with hbc | ⟨hvalid, htid⟩
    · simp [hbc]
    · simp [hvalid, htid]

/-- The keys and the direction that the receiver opens the frame by. -/
theorem State.framesOwn_keys : (if (s.role c == roleHead) = true then hdrTid f else 0) = t ∧
    (if (s.role c == roleHead) = true then 1 else 0) = dir := by
  rcases hown with ⟨hrole, -, -, ht, hdir⟩ | ⟨hrole, -, ht, hdir⟩
  · simp [hrole, ht, hdir]
  · simp [hrole, ht, hdir, roleTerm, roleHead]

/-! ### Its protection (R371) -/

theorem State.openFrame_own : s.openFrame c ltn block f =
    if hdrProt f then
      if hdrBc f then (none, s.inc F.CH_PP_BCDROP c)
      else if s.payKey c t (hdrKey f) dir = [] then (none, s.inc F.CH_PP_NOKEY c)
      else match Config.gcmOpen (s.payKey c t (hdrKey f) dir) (ppNonce dir (hdrTid f) ltn block) (f.take 6) (slice f 8 (hdrLen f)) with
        | none => (none, s.inc F.CH_PP_AUTH_FAIL c)
        | some p => (some p, s)
    else if !hdrBc f && s.on (F.CH_PP_REQUIRE t) c then (none, s.inc F.CH_PP_CLEAR_DROP c)
    else (some (slice f 8 (hdrLen f)), s) := by
  obtain ⟨ht, hdir⟩ := State.framesOwn_keys hown
  unfold State.openFrame
  dsimp only
  rw [ht, hdir] <;> rfl

theorem State.takeSound_clear (hprot : hdrProt f = false) (h : hdrBc f = true ∨ s.on (F.CH_PP_REQUIRE t) c = false) :
    s.takeSound c f ltn block ago = s.lineFrame c (slice f 8 (hdrLen f)) (hdrTid f) (hdrBc f) false ago := by
  rw [State.takeSound_own hown, State.openFrame_own hown, if_neg (by rw [hprot]; decide), if_neg (by rcases h with h | h <;> simp [h])]
  rw [hprot]

theorem State.takeSound_clearDrop (hprot : hdrProt f = false) (hbc : hdrBc f = false) (hreq : s.on (F.CH_PP_REQUIRE t) c = true) :
    s.takeSound c f ltn block ago = s.inc F.CH_PP_CLEAR_DROP c := by
  rw [State.takeSound_own hown, State.openFrame_own hown, if_neg (by rw [hprot]; decide), if_pos (by simp [hbc, hreq])]

theorem State.takeSound_broadcast (hprot : hdrProt f = true) (hbc : hdrBc f = true) :
    s.takeSound c f ltn block ago = s.inc F.CH_PP_BCDROP c := by
  rw [State.takeSound_own hown, State.openFrame_own hown, if_pos hprot, if_pos hbc]

section
variable (hprot : hdrProt f = true) (hbc : hdrBc f = false)
include hprot hbc

theorem State.takeSound_noKey (hkey : s.payKey c t (hdrKey f) dir = []) :
    s.takeSound c f ltn block ago = s.inc F.CH_PP_NOKEY c := by
  rw [State.takeSound_own hown, State.openFrame_own hown, if_pos hprot, if_neg (by rw [hbc]; decide), if_pos hkey]

theorem State.takeSound_opened (hkey : s.payKey c t (hdrKey f) dir ≠ []) :
    s.takeSound c f ltn block ago =
      (match Config.gcmOpen (s.payKey c t (hdrKey f) dir) (ppNonce dir (hdrTid f) ltn block) (f.take 6) (slice f 8 (hdrLen f)) with
        | none => s.inc F.CH_PP_AUTH_FAIL c
        | some p => s.lineFrame c p (hdrTid f) false true ago) := by
  rw [State.takeSound_own hown, State.openFrame_own hown, if_pos hprot, if_neg (by rw [hbc]; decide), if_neg hkey, hbc, hprot]
  cases Config.gcmOpen (s.payKey c t (hdrKey f) dir) (ppNonce dir (hdrTid f) ltn block) (f.take 6) (slice f 8 (hdrLen f)) <;> rfl

end
end

/-! ### The frame as it is read -/

theorem treeFrameReceived_congr {rx rx' : TreeRx} {spoilt : Nat} (h : treeRead rx = treeRead rx') :
    treeFrameReceived c rx ltn block spoilt ago s = treeFrameReceived c rx' ltn block spoilt ago s := by
  unfold treeFrameReceived
  rw [h]

theorem treeFrameReceived_cut (spoilt : Nat) : treeFrameReceived c (.cut f) ltn block spoilt ago s =
    s.takeTreeFrame c f ltn block (if spoilt = 0 && s.inBadCodeword c ltn block (frameBlocks (f.length - 8)) then 1 else spoilt) ago := by
  have hsp : (if spoilt = 0 then 0 else spoilt) = spoilt := by split <;> simp_all
  show s.takeTreeFrame c f ltn block (if (if spoilt = 0 then 0 else spoilt) = 0 && _ then 1 else if spoilt = 0 then 0 else spoilt) ago = _
  rw [hsp]
  rfl

/-- A frame of which nothing is told that spoils it, may lie in an uncorrectable codeword; an invalid control block it has not. -/
theorem treeFrameReceived_clean : ∃ sp, sp ≠ 2 ∧ treeFrameReceived c (.cut f) ltn block 0 ago s = s.takeTreeFrame c f ltn block sp ago := by
  refine ⟨_, ?_, treeFrameReceived_cut 0⟩
  split <;> decide

theorem treeFrameReceived_off (rx : TreeRx) (spoilt : Nat) (h : s.takesFrames c = false) :
    treeFrameReceived c rx ltn block spoilt ago s = s := State.takeTreeFrame_off h _

theorem treeFrameReceived_badHeader (ht : s.takesFrames c = true) (hcrc : fieldBE f 6 2 ≠ crc16 (f.take 6)) :
    treeFrameReceived c (.cut f) ltn block 0 ago s = s.badHeader c := by
  obtain ⟨sp, hsp, hread⟩ := treeFrameReceived_clean (s := s) (c := c) (f := f) (ltn := ltn) (block := block) (ago := ago)
  rw [hread, State.takeTreeFrame_badHeader ht hsp hcrc]

theorem treeFrameReceived_badLength (ht : s.takesFrames c = true) (hcrc : fieldBE f 6 2 = crc16 (f.take 6))
    (hlen : hdrLen f < 64 ∨ s.rd F.CH_TF_CFG_MAX_LEN c < hdrLen f ∨ f.length ≠ 8 + hdrLen f) :
    treeFrameReceived c (.cut f) ltn block 0 ago s = s.inc F.CH_TF_FRM_DISC c := by
  obtain ⟨sp, hsp, hread⟩ := treeFrameReceived_clean (s := s) (c := c) (f := f) (ltn := ltn) (block := block) (ago := ago)
  rw [hread, State.takeTreeFrame_badLength ht hsp hcrc (by rcases hlen with h | h | h <;> simp [h])]

section
variable (h : TreeFrameSound s c f)
include h

theorem treeFrameReceived_sound (spoilt : Nat) : treeFrameReceived c (.cut f) ltn block spoilt ago s =
    s.takeTreeFrame c f ltn block (if spoilt = 0 && s.inBadCodeword c ltn block (frameBlocks (hdrLen f)) then 1 else spoilt) ago := by
  rw [treeFrameReceived_cut, h.whole, Nat.add_sub_cancel_left]

theorem treeFrameReceived_spoilt : treeFrameReceived c (.cut f) ltn block 1 ago s = s.inc F.CH_TF_FRM_DISC c := by
  rw [treeFrameReceived_sound h]
  exact State.takeTreeFrame_spoilt h

theorem treeFrameReceived_inBad (hbad : s.inBadCodeword c ltn block (frameBlocks (hdrLen f)) = true) :
    treeFrameReceived c (.cut f) ltn block 0 ago s = s.inc F.CH_TF_FRM_DISC c := by
  rw [treeFrameReceived_sound h, if_pos (by rw [hbad]; rfl), State.takeTreeFrame_spoilt h]

theorem treeFrameReceived_good (hbad : s.inBadCodeword c ltn block (frameBlocks (hdrLen f)) = false) :
    treeFrameReceived c (.cut f) ltn block 0 ago s = s.takeSound c f ltn block ago := by
  rw [treeFrameReceived_sound h, if_neg (by rw [hbad]; decide), State.takeTreeFrame_sound h]

end
end

theorem State.badHeader_counts (s : State) (c : Nat) :
    (s.badHeader c).rd F.CH_TF_LHDR_ERR c = min (s.rd F.CH_TF_LHDR_ERR c + 1) (2 ^ 32 - 1) ∧
      (s.badHeader c).rd F.CH_TF_FRM_DISC c = min (s.rd F.CH_TF_FRM_DISC c + 1) (2 ^ 32 - 1) := by
  have heff : (s.badHeader c).eff = ((s.inc F.CH_TF_LHDR_ERR c).inc F.CH_TF_FRM_DISC c).eff := rfl
  rw [State.rd_of_eff heff, State.rd_of_eff heff]
  refine ⟨?_, ?_⟩
  · exact (State.rd_inc_clear _ _ _ (by decide)).trans (State.rd_inc_same _ _ ⟨by decide, by decide⟩)
  · refine (State.rd_inc_same _ _ ⟨by decide, by decide⟩).trans ?_
    rw [State.rd_inc_clear _ _ _ (by decide)]
    rfl

theorem treeFrameReceived_finishes {s t : State} (hruns : s.Runs) {c : Fin 64} {rx : TreeRx} {ltn block : BitVec 32} {m : TreeMark}
    (h : treeFrameReceived c rx ltn.toNat block.toNat m.spoilt m.ago s = t) : Finishes (.treeFrameReceived c rx ltn block m) s t := by
  rw [← h]
  exact done_runs hruns

/-- Settles O28: the checks of R86 in their order, then whose frame it is, then its protection. -/
theorem treeFrames : Obligations.TreeFrames := by
  refine fun s c f ltn block ago hruns => ⟨fun rx m => treeFrameReceived_finishes hruns rfl,
    fun rx m hoff => treeFrameReceived_finishes hruns (treeFrameReceived_off rx _ hoff), fun hlen => ?_,
    fun ht => ⟨treeFrameReceived_finishes hruns (State.takeTreeFrame_badBlock ht), fun hcrc => ?_, fun hcrc hlen => ?_,
      fun hcrc hleast hmost hwhole => ?_⟩⟩
  · exact congrArg (done s) (treeFrameReceived_congr (treeRead_blocks hlen))
  · obtain ⟨hlhdr, hdisc⟩ := s.badHeader_counts c
    exact ⟨_, treeFrameReceived_finishes hruns (treeFrameReceived_badHeader ht hcrc), hlhdr, hdisc, rfl, rfl⟩
  · exact treeFrameReceived_finishes hruns (treeFrameReceived_badLength ht hcrc hlen)
  · have hsound : TreeFrameSound s c f := ⟨ht, hcrc, hleast, hmost, hwhole⟩
    refine ⟨treeFrameReceived_finishes hruns (treeFrameReceived_spoilt hsound),
      fun hbad => treeFrameReceived_finishes hruns (treeFrameReceived_inBad hsound hbad), fun hbad => ?_⟩
    have hgood {t : State} (ht : s.takeSound c f ltn.toNat block.toNat ago = t) :
        Finishes (.treeFrameReceived c (.cut f) ltn block { spoilt := 0, ago }) s t :=
      treeFrameReceived_finishes hruns ((treeFrameReceived_good hsound hbad).trans ht)
    refine ⟨fun hrole hno => hgood (State.takeSound_notGranted hrole hno),
      fun hrole hbc hno => hgood (State.takeSound_forOthers hrole hbc hno), fun t dir hown => ?_⟩
    exact ⟨fun hprot hclear => hgood (State.takeSound_clear hown hprot hclear),
      fun hprot hbc hreq => hgood (State.takeSound_clearDrop hown hprot hbc hreq),
      fun hprot hbc => hgood (State.takeSound_broadcast hown hprot hbc),
      fun hprot hbc hkey => hgood (State.takeSound_noKey hown hprot hbc hkey),
      fun hprot hbc hkey => hgood (State.takeSound_opened hown hprot hbc hkey)⟩

end Sys2Proof.Machine
end

section
/-!
PROOF. What starts the test facilities (R62, R65, R67, R417): FIRE and START on a lane, and a write of TST_PRBS_CFG that enables
its generator or checker. Settles O23.
-/

namespace Sys2Proof.Machine

/-! ### FIRE and START on one lane -/

section
variable {s : State} {l : Nat}

theorem State.fire_cont (h : s.on F.TST_INJ_CONT l = true) : s.fire l = s := by rw [State.fire, if_pos h]

theorem State.fire_term (hl : l < 64) (h : s.on F.TST_INJ_CONT l = false) (hr : s.role l = roleTerm) :
    s.fire l = s.modLane l (fun x => { x with inj := true }) := by
  rw [State.fire, if_neg (by rw [h]; decide), if_pos (by rw [s.laneRole_of_lt hl, hr, isSurok_of_lt hl]; rfl)]

theorem State.fire_now (hl : l < 64) (h : s.on F.TST_INJ_CONT l = false) (hr : s.role l ≠ roleTerm) : s.fire l = s.injectNext l := by
  rw [State.fire, if_neg (by rw [h]; decide), if_neg (by rw [s.laneRole_of_lt hl]; simp [hr])]

/-- A line lane may run the test facilities where its channel has no active role and its lane is ON. -/
theorem State.testable_line (hl : l < 64) :
    s.testable l = true ↔ s.role l = roleOff ∧ s.rd F.CH_LANE_STAT_PWR l = pwrOn := by
  rw [State.testable, if_neg (by rw [isSurok_of_lt hl]; decide), Bool.and_eq_true, beq_iff_eq, beq_iff_eq]

theorem State.not_testable (hl : l < 64) (hr : s.role l ≠ roleOff) : s.testable l = false := by
  rw [Bool.eq_false_iff, ne_eq, State.testable_line hl]
  exact fun h => hr h.1

/-- The record of the cycle's writes has no say in it. -/
theorem State.testable_noted (s : State) (req r key mask l : Nat) :
    ((s.newAccess req).noteWrite r key mask).testable l = s.testable l := rfl

theorem State.eyeScanStart_refused (h : s.testable l = false) : s.eyeScanStart l = s.wr F.TST_PRBS_STAT_REFUSED l 1 := by
  rw [State.eyeScanStart, if_neg (by rw [h]; decide)]

theorem State.eyeScanStart_runs (h : s.testable l = true) : ((s.eyeScanStart l).lane l).scan = true ∧
    (s.eyeScanStart l).rd F.TST_PRBS_STAT_REFUSED l = 0 := by
  rw [State.eyeScanStart, if_pos h]
  exact ⟨congrArg Lane.scan (tget_tput_same _ s.lanes l _), State.rd_wr_held _ _ (by decide)⟩

end

/-! ### A write of TST_PRBS_CFG -/

theorem prbsCfg_row : ∃ r, findRow 0xD0100 = some r ∧ r.bank = .lane ∧ r.holdsOnly = true ∧
    accMask r.flds (· == .rw) = 0xF0333 :=
  ⟨reg1 "TST_PRBS_CFG" 0xD0100 .lane 0x70000 [(19, 16, .rw), (9, 8, .rw), (5, 4, .rw), (1, 1, .rw), (0, 0, .rw)], by decide +kernel⟩

/-- What the register of a lane holds after a write of a word, where the write is taken. -/
def State.prbsWord (s : State) (l : Nat) (w : Word) : Word := mixWord (s.reg l 0xD0100) w 0xF0333

section
variable (s : State) (l : Nat) (w : Word)

theorem State.prbsWord_genEn : getF (s.prbsWord l w) F.TST_PRBS_CFG_GEN_EN = getF w F.TST_PRBS_CFG_GEN_EN :=
  getF_mixWord _ _ (by decide)

theorem State.prbsWord_chkEn : getF (s.prbsWord l w) F.TST_PRBS_CFG_CHK_EN = getF w F.TST_PRBS_CFG_CHK_EN :=
  getF_mixWord _ _ (by decide)

end

/-- A word that holds GEN_EN or CHK_EN enables. -/
theorem tstEnables_prbs {w : Word} (h : getF w F.TST_PRBS_CFG_GEN_EN ≠ 0 ∨ getF w F.TST_PRBS_CFG_CHK_EN ≠ 0) :
    tstEnables 0xD0100 w 0xFFFFFFFF = true := by
  have hgen : getF w F.TST_PRBS_CFG_GEN_EN = w.toNat / 1 % 2 := rfl
  have hchk : getF w F.TST_PRBS_CFG_CHK_EN = w.toNat / 2 % 2 := rfl
  have hlow : w.toNat &&& 3 = w.toNat % 4 := Nat.and_two_pow_sub_one_eq_mod w.toNat 2
  have hall : w.toNat % 4 &&& 0xFFFFFFFF = w.toNat % 4 % 4294967296 := Nat.and_two_pow_sub_one_eq_mod (w.toNat % 4) 32
  have hbits : w.toNat &&& tstEnableBits 0xD0100 &&& 0xFFFFFFFF = w.toNat % 4 % 4294967296 := by
    rw [← hall, ← hlow]
    rfl
  rw [hgen, hchk] at h
  rw [tstEnables, hbits, bne_iff_ne]
  omega

/-- The register takes a word; a checker that is not enabled starts from the beginning. -/
def State.takePrbs (s : State) (l : Nat) (w : Word) : State :=
  if getF w F.TST_PRBS_CFG_CHK_EN = 0 then
    ((s.setReg l 0xD0100 w).wr F.TST_PRBS_STAT_CHK_LOCK l 0).modLane l (fun x => { x with chk := .reset })
  else s.setReg l 0xD0100 w

section
variable (s : State) (l : Nat) (w : Word)

theorem State.takePrbs_reg : (s.takePrbs l w).reg l 0xD0100 = w := by
  unfold State.takePrbs
  split
  · rw [State.reg, State.modLane_eff, ← State.reg, State.reg_wr_ne _ _ (rkey_ne_of_off (by decide) (by decide) (by decide)),
      State.reg_setReg_same]
  · exact State.reg_setReg_same _ _ _ _

/-- It leaves alone the fields of other registers that lie beside CHK_LOCK or elsewhere. -/
theorem State.takePrbs_rd {f : Fld} (j : Nat) (hf : f.off < 0x100000 ∧ f.off ≠ 0xD0100)
    (hclear : F.TST_PRBS_STAT_CHK_LOCK.clearOf f = true) : (s.takePrbs l w).rd f j = s.rd f j := by
  have hset : (s.setReg l 0xD0100 w).rd f j = s.rd f j := by
    rw [State.rd, State.reg_setReg_ne _ _ (rkey_ne_of_off hf.1 (by decide) hf.2), ← State.rd]
  unfold State.takePrbs
  split
  · rw [State.rd_of_eff (State.modLane_eff _ _ _), State.rd_wr_clear _ _ _ _ hclear, hset]
  · exact hset

theorem State.tstWrite_prbs (m : Nat) : s.tstWrite l 0xD0100 w m =
    if s.tstRefused l 0xD0100 w m then s.wr F.TST_PRBS_STAT_REFUSED l 1
    else (if tstEnables 0xD0100 w m then s.wr F.TST_PRBS_STAT_REFUSED l 0 else s).takePrbs l w := by
  unfold State.tstWrite
  dsimp only
  rw [if_neg (by decide : ¬ (0xD0100 : Nat) = 0xD0114)]
  simp only [State.takePrbs, decide_true, Bool.true_and, decide_eq_true_eq]

/-- Such a write leaves the registers of other regions alone. -/
theorem State.tstWrite_rd (m : Nat) {f : Fld} (j : Nat) (hf : f.off < 0xD0000) :
    (s.tstWrite l 0xD0100 w m).rd f j = s.rd f j := by
  have hrefused (v : Nat) : (s.wr F.TST_PRBS_STAT_REFUSED l v).rd f j = s.rd f j :=
    s.rd_wr_apart l j v (by decide) (by omega) (Nat.ne_of_lt (Nat.lt_trans hf (by decide)))
  have hclear : F.TST_PRBS_STAT_CHK_LOCK.clearOf f = true :=
    Fld.clearOf_of_off (by decide) (by omega) (Nat.ne_of_lt (Nat.lt_trans hf (by decide)))
  rw [State.tstWrite_prbs]
  split
  · exact hrefused 1
  · rw [State.takePrbs_rd _ _ _ _ (by omega) hclear]
    split
    · exact hrefused 0
    · rfl

end

section
variable {s : State} {l : Nat} {w : Word}

theorem State.tstRefused_prbs (hen : tstEnables 0xD0100 w 0xFFFFFFFF = true) :
    s.tstRefused l 0xD0100 w 0xFFFFFFFF = !s.testable l := by
  rw [State.tstRefused, hen]
  rfl

/-- On a lane that may not run it, a write that would enable a facility shows as REFUSED and does nothing else. -/
theorem State.tstWrite_refused (hen : tstEnables 0xD0100 w 0xFFFFFFFF = true) (ht : s.testable l = false) :
    s.tstWrite l 0xD0100 w 0xFFFFFFFF = s.wr F.TST_PRBS_STAT_REFUSED l 1 := by
  rw [State.tstWrite_prbs, if_pos (by rw [State.tstRefused_prbs hen, ht]; rfl)]

/-- Elsewhere the register takes the word and REFUSED ends. -/
theorem State.tstWrite_taken (hen : tstEnables 0xD0100 w 0xFFFFFFFF = true) (ht : s.testable l = true) :
    (s.tstWrite l 0xD0100 w 0xFFFFFFFF).rd F.TST_PRBS_STAT_REFUSED l = 0 ∧
      (s.tstWrite l 0xD0100 w 0xFFFFFFFF).reg l 0xD0100 = w := by
  rw [State.tstWrite_prbs, if_neg (by rw [State.tstRefused_prbs hen, ht]; decide), if_pos hen]
  exact ⟨(State.takePrbs_rd _ _ _ _ (by decide) (by decide)).trans (State.rd_wr_held _ _ (by decide)), State.takePrbs_reg _ _ _⟩

end

/-- Whether a register sleeps hangs on the power states of the octants alone. -/
theorem State.keySleeps_congr {s t : State} (h : ∀ o, t.octState o = s.octState o) (k : Nat) : t.keySleeps k = s.keySleeps k := by
  simp only [State.keySleeps, h]

theorem State.noteWrite_keySleeps (s : State) (req key mask k : Nat) : (s.noteWrite req key mask).keySleeps k = s.keySleeps k :=
  State.keySleeps_congr (fun o => State.rd_of_eff (s.noteWrite_eff req key mask) F.OCT_PWR_STAT_STATE o) k

theorem State.tstWrite_keySleeps (s : State) (l : Nat) (w : Word) (m k : Nat) :
    (s.tstWrite l 0xD0100 w m).keySleeps k = s.keySleeps k :=
  State.keySleeps_congr (fun o => s.tstWrite_rd l w m (f := F.OCT_PWR_STAT_STATE) o (by decide)) k

theorem State.noteWrite_prbsWord (s : State) (req key mask l : Nat) (w : Word) :
    (s.noteWrite req key mask).prbsWord l w = s.prbsWord l w := by
  rw [State.prbsWord, State.reg, State.noteWrite_eff, ← State.reg, ← State.prbsWord]

section
variable (s : State) (req l : Nat) {r : RegRow} (w : Word) (hholds : r.holdsOnly = true) (hmask : accMask r.flds (· == .rw) = 0xF0333)

include hmask in
theorem State.newFields_prbs : s.newFields 0xD0100 l r (wholeWord w) = s.prbsWord l w := by
  have hall : 0xF0333 &&& 0xFFFFFFFF = 0xF0333 := by decide
  rw [State.newFields, if_neg (by decide), State.merged, byteValue_wholeWord, byteMask_wholeWord, hmask, hall, BitVec.ofNat_toNat,
    BitVec.setWidth_eq, State.prbsWord]

theorem State.writeFields_prbs (d : List (Option Byte)) (hawake : s.keySleeps (rkey l 0xD0100) = false) :
    s.writeFields req 0xD0100 l r d = s.tstWrite l 0xD0100 (s.newFields 0xD0100 l r d) (byteMask d) := by
  simp [State.writeFields, hawake]

theorem State.afterWrite_prbs (full : Bool) : s.afterWrite req 0xD0100 l full = s := by
  simp [State.afterWrite]

theorem State.openBits_prbs : s.openBits req 0xD0100 l = 0xFFFFFFFF := by simp [State.openBits]

theorem State.goOutRefused_prbs (d : List (Option Byte)) : s.goOutRefused 0xD0100 d = false := by
  simp [State.goOutRefused, F.MEM_MAPOUT_GO_OUT]

variable (hc : s.claimed req (rkey l 0xD0100) = 0) (hawake : s.keySleeps (rkey l 0xD0100) = false)
include hholds hmask hc hawake

/-- A write of it on one lane of an octant that serves: what the rule of R62 makes of it. -/
theorem State.writeInst_prbs : (s.writeInst req 0xD0100 l r (wholeWord w)).eff =
    ((s.noteWrite req (rkey l 0xD0100) 0xFFFFFFFF).tstWrite l 0xD0100 (s.prbsWord l w) 0xFFFFFFFF).eff := by
  obtain ⟨hrw, hall, hw1c, hw1s, hrwt⟩ := r.holdsOnly_iff.mp hholds
  have hnoted : (s.noteWrite req (rkey l 0xD0100) 0xFFFFFFFF).keySleeps (rkey l 0xD0100) = false :=
    (State.noteWrite_keySleeps _ _ _ _ _).trans hawake
  have hafter : ((s.noteWrite req (rkey l 0xD0100) 0xFFFFFFFF).tstWrite l 0xD0100 (s.prbsWord l w) 0xFFFFFFFF).keySleeps
      (rkey l 0xD0100) = false := (State.tstWrite_keySleeps _ _ _ _ _).trans hnoted
  simp only [State.writeInst, hc, unclaimed_zero, byteMask_wholeWord, State.openBits_prbs, State.goOutRefused_prbs, hall,
    bne_iff_ne.mpr hrw, Bool.not_false, Bool.and_true, if_true, State.writeFields_prbs _ _ _ _ hnoted,
    State.newFields_prbs _ _ _ hmask, State.noteWrite_prbsWord, State.afterWrite_prbs, hafter, State.writeRest_none _ _ _ _ _ hw1c hw1s hrwt, hnoted]
  simp only [ite_self, fullWord_wholeWord, Bool.false_eq_true, if_false, hafter, Bool.false_and, Bool.or_false,
    apply_ite State.eff, State.foldWrite_eff, State.foldValue_eff]

end

theorem rkey_inst {i off : Nat} (h : off < 0x100000) : rkey i off / 0x100000 = i := by
  unfold rkey
  omega

/-- The octant of a register of a line lane. -/
theorem keyOctant_lane {k : Nat} {r : RegRow} (hrow : findRow (k % 0x100000) = some r) (hbank : r.bank = .lane)
    (h : k / 0x100000 < 64) : keyOctant k = some (octOf (k / 0x100000)) := by
  simp only [keyOctant, hrow, hbank, octOf, if_pos h]

/-- A register of a line lane of an octant that serves is awake. -/
theorem State.lane_awake {s : State} {k : Nat} {r : RegRow} (hrow : findRow (k % 0x100000) = some r) (hbank : r.bank = .lane)
    (h : k / 0x100000 < 64) (ho : s.octServes (octOf (k / 0x100000)) = true) : s.keySleeps k = false := by
  simp only [State.octServes, Bool.and_eq_true, bne_iff_ne] at ho
  obtain ⟨hs2, hs3⟩ := ho
  simp [State.keySleeps, keyOctant_lane hrow hbank h, hs2, hs3]

section
variable {s : State} {req : Fin 19} {c : Nat} {w : Word} (htakes : s.Takes req) (halone : s.Alone req)
  (hsurok : s.on F.TST_TARGET_SUROK req = false) (hb : s.rd F.CHSEL_BCAST req ∉ [1, 2]) (hch : s.rd F.CHSEL_CH req = c)

include hsurok hb hch in
theorem State.tstLanes_one : s.tstLanes req = [c] := by
  simp only [List.mem_cons, List.not_mem_nil, or_false, not_or] at hb
  rw [State.tstLanes, if_neg (by rw [hsurok]; decide)]
  dsimp only
  split
  next h => exact absurd h hb.1
  next h => exact absurd h hb.2
  next => rw [hch]

include hch in
theorem State.chsel_lt : c < 64 := by
  have hlt : s.rd F.CHSEL_CH req < 2 ^ 6 := getF_lt _ F.CHSEL_CH
  omega

theorem State.prbs_awake (hc : c < 64) (ho : s.octServes (octOf c) = true) : s.keySleeps (rkey c 0xD0100) = false := by
  obtain ⟨r, hrow, hbank, -⟩ := prbsCfg_row
  have hinst : rkey c 0xD0100 / 0x100000 = c := rkey_inst (by decide)
  exact State.lane_awake (by rwa [rkey_offset (by decide)]) hbank (by rwa [hinst]) (by rwa [hinst])

include htakes halone hsurok hb hch

/-- A write of TST_PRBS_CFG that selects one line lane of an octant that serves. -/
theorem State.writePrbs (ho : s.octServes (octOf c) = true) :
    ((s.newAccess req).writeRegister req 0xD0100 (wholeWord w)).eff =
      (((s.newAccess req).noteWrite req (rkey c 0xD0100) 0xFFFFFFFF).tstWrite c 0xD0100 (s.prbsWord c w) 0xFFFFFFFF).eff := by
  obtain ⟨r, hrow, hbank, hholds, hmask⟩ := prbsCfg_row
  have htake : (s.newAccess req).takesWrite req 0xD0100 = true := by
    simp only [State.takesWrite, Bool.or_eq_true, beq_iff_eq]
    exact .inl htakes.2
  have hinst : (s.newAccess req).writeInsts req r = [c] := by
    have hkept (f : Fld) : (s.newAccess req).rd f req = s.rd f req := State.rd_of_eff (s.newAccess_eff req) _ _
    rw [State.writeInsts, hbank]
    dsimp only
    refine State.tstLanes_one ?_ ?_ ?_
    · rwa [State.on, hkept, ← State.on]
    · rwa [hkept]
    · rwa [hkept]
  have hstart (t : State) (v : Word) : t.start req 0xD0100 v = t := by simp [State.start, State.startChannels]
  have hawake : (s.newAccess req).keySleeps (rkey c 0xD0100) = false :=
    (State.keySleeps_congr (fun o => State.rd_of_eff (s.newAccess_eff req) F.OCT_PWR_STAT_STATE o) _).trans
      (State.prbs_awake (State.chsel_lt hch) ho)
  have hword : (s.newAccess req).prbsWord c w = s.prbsWord c w := by
    rw [State.prbsWord, State.reg, State.newAccess_eff, ← State.reg, ← State.prbsWord]
  rw [State.writeRegister, if_neg (by rw [htake]; decide), if_neg (by decide), hrow]
  dsimp only
  rw [hinst, List.foldl_cons, List.foldl_nil, hstart, ite_self,
    State.writeInst_prbs _ _ _ _ hholds hmask (State.claimed_alone (State.newAccess_alone halone) _) hawake, hword]

end

section
variable {s : State} {req : Fin 19} {c : Nat} {w : Word} (htakes : s.Takes req) (halone : s.Alone req)
  (hsurok : s.on F.TST_TARGET_SUROK req = false) (hb : s.rd F.CHSEL_BCAST req ∉ [1, 2]) (hch : s.rd F.CHSEL_CH req = c)
  (ho : s.octServes (octOf c) = true) (hen : getF w F.TST_PRBS_CFG_GEN_EN ≠ 0 ∨ getF w F.TST_PRBS_CFG_CHK_EN ≠ 0)
include htakes halone hsurok hb hch ho hen

/-- On a channel in an active role such a write is refused, and the register stays. -/
theorem State.writePrbs_refused (hr : s.role c ≠ roleOff) :
    ((s.newAccess req).writeRegister req 0xD0100 (wholeWord w)).rd F.TST_PRBS_STAT_REFUSED c = 1 ∧
      ((s.newAccess req).writeRegister req 0xD0100 (wholeWord w)).reg c 0xD0100 = s.reg c 0xD0100 := by
  have hen' : tstEnables 0xD0100 (s.prbsWord c w) 0xFFFFFFFF = true :=
    tstEnables_prbs (by rwa [s.prbsWord_genEn, s.prbsWord_chkEn])
  have heff := State.writePrbs (w := w) htakes halone hsurok hb hch ho
  have hnoted : ((s.newAccess req).noteWrite req (rkey c 0xD0100) 0xFFFFFFFF).testable c = false := by
    rw [State.testable_noted]
    exact State.not_testable (State.chsel_lt hch) hr
  rw [State.tstWrite_refused hen' hnoted] at heff
  rw [State.rd_of_eff heff, State.reg, heff, ← State.reg, State.reg_wr_ne _ _ (rkey_ne_of_off (by decide) (by decide) (by decide))]
  exact ⟨State.rd_wr_held _ _ (by decide), rfl⟩

/-- On one without, whose lane is ON, it is taken. -/
theorem State.writePrbs_taken (hr : s.role c = roleOff) (hp : s.rd F.CH_LANE_STAT_PWR c = pwrOn) :
    ((s.newAccess req).writeRegister req 0xD0100 (wholeWord w)).rd F.TST_PRBS_STAT_REFUSED c = 0 ∧
      ((s.newAccess req).writeRegister req 0xD0100 (wholeWord w)).reg c 0xD0100 = s.prbsWord c w := by
  have hen' : tstEnables 0xD0100 (s.prbsWord c w) 0xFFFFFFFF = true :=
    tstEnables_prbs (by rwa [s.prbsWord_genEn, s.prbsWord_chkEn])
  have heff := State.writePrbs (w := w) htakes halone hsurok hb hch ho
  have hnoted : ((s.newAccess req).noteWrite req (rkey c 0xD0100) 0xFFFFFFFF).testable c = true := by
    rw [State.testable_noted]
    exact (State.testable_line (State.chsel_lt hch)).mpr ⟨hr, hp⟩
  obtain ⟨hshown, hheld⟩ := State.tstWrite_taken hen' hnoted
  rw [State.rd_of_eff heff, State.reg, heff, ← State.reg]
  exact ⟨hshown, hheld⟩

end

/-- Settles O23: FIRE and START lane by lane, and the enabling write by the rule of R62. -/
theorem testStarts : Obligations.TestStarts := by
  refine ⟨fun s req htakes => ⟨doneWrite_takes htakes, doneWrite_takes htakes, fun l hcont => State.fire_cont hcont,
    fun l hl hcont hr => State.fire_term hl hcont hr, fun l hl hcont hr => State.fire_now hl hcont hr,
    fun l hl hr => State.eyeScanStart_refused (State.not_testable hl hr),
    fun l hl hr hp => State.eyeScanStart_runs ((State.testable_line hl).mpr ⟨hr, hp⟩)⟩, fun s req k w htakes => ?_,
    fun s req w c htakes halone hsurok hb hch ho hen => ⟨_, doneWrite_takes htakes, fun hr => ?_, fun hr hp => ?_⟩⟩
  · have hoff : (if k = 0 then 0xD0100 else if k = 1 then 0xD0110 else 0xD0114) = tstEnableOff k := by fin_cases k <;> rfl
    rw [hoff]
    exact doneWrite_takes htakes
  · exact State.writePrbs_refused htakes halone hsurok hb hch ho hen hr
  · obtain ⟨hshown, hheld⟩ := State.writePrbs_taken htakes halone hsurok hb hch ho hen hr hp
    exact ⟨hshown, (congrArg (getF · F.TST_PRBS_CFG_GEN_EN) hheld).trans (s.prbsWord_genEn c w),
      (congrArg (getF · F.TST_PRBS_CFG_CHK_EN) hheld).trans (s.prbsWord_chkEn c w)⟩

end Sys2Proof.Machine
end

section
/-!
PROOF. What leaves the count of the steps of peg 0 (DEV_TICK_STEPS, R18) alone: events raised and faults watched, frames that leave
the stores, bursts on their way, the steps and rates of the pegs, and the gates that follow them.
-/

namespace Sys2Proof.Machine

/-- The steps of peg 0 counted. -/
def State.tickSteps (s : State) : Nat := s.rd F.DEV_TICK_STEPS 0

/-! ### The updates of the state -/

theorem State.tickSteps_of_eff {s t : State} (h : t.eff = s.eff) : t.tickSteps = s.tickSteps := State.rd_of_eff h _ _

section
variable (s : State)

@[simp] theorem State.tickSteps_wr {f : Fld} (i v : Nat) (h : f.clearOf F.DEV_TICK_STEPS = true) :
    (s.wr f i v).tickSteps = s.tickSteps := s.rd_wr_clear i 0 v h
@[simp] theorem State.tickSteps_wrB {f : Fld} (i : Nat) (b : Bool) (h : f.clearOf F.DEV_TICK_STEPS = true) :
    (s.wrB f i b).tickSteps = s.tickSteps := s.rd_wr_clear i 0 _ h
@[simp] theorem State.tickSteps_inc {f : Fld} (i : Nat) (h : f.clearOf F.DEV_TICK_STEPS = true) :
    (s.inc f i).tickSteps = s.tickSteps := s.rd_inc_clear i 0 h
@[simp] theorem State.tickSteps_addN {f : Fld} (i n : Nat) (h : f.clearOf F.DEV_TICK_STEPS = true) :
    (s.addN f i n).tickSteps = s.tickSteps := s.rd_addN_clear i 0 n h

@[simp] theorem State.tickSteps_emit (o : Out) : (s.emit o).tickSteps = s.tickSteps := rfl
@[simp] theorem State.tickSteps_log (code req index : Nat) (data : List Nat) : (s.log code req index data).tickSteps = s.tickSteps := rfl
@[simp] theorem State.tickSteps_setWatch (src inst : Nat) (w : Watch) : (s.setWatch src inst w).tickSteps = s.tickSteps := rfl
@[simp] theorem State.tickSteps_modLane (l : Nat) (f : Lane → Lane) : (s.modLane l f).tickSteps = s.tickSteps := rfl
@[simp] theorem State.tickSteps_modTree (c : Nat) (f : Tree → Tree) : (s.modTree c f).tickSteps = s.tickSteps := rfl
@[simp] theorem State.tickSteps_setQueue (q : Nat) (l : List QEnt) : (s.setQueue q l).tickSteps = s.tickSteps := rfl
@[simp] theorem State.tickSteps_countDrain (q n : Nat) : (s.countDrain q n).tickSteps = s.tickSteps := rfl
@[simp] theorem State.tickSteps_freeCells (xs : List Nat) : (s.freeCells xs).tickSteps = s.tickSteps := rfl
@[simp] theorem State.tickSteps_setDeepFr (id : Nat) (x : DeepFr) : (s.setDeepFr id x).tickSteps = s.tickSteps := rfl
@[simp] theorem State.tickSteps_setStq (c : Nat) (l : List (List Byte)) : (s.setStq c l).tickSteps = s.tickSteps := rfl
@[simp] theorem State.tickSteps_setRet (k : Nat) (v : Int) : (s.setRet k v).tickSteps = s.tickSteps := rfl
@[simp] theorem State.tickSteps_putFrame (l block : Nat) (bytes : List Byte) : (s.putFrame l block bytes).tickSteps = s.tickSteps := rfl
@[simp] theorem State.tickSteps_setHeadPlan (c : Nat) (p : Option Plan) : (s.setHeadPlan c p).tickSteps = s.tickSteps := rfl
@[simp] theorem State.tickSteps_sendBurstLine (c payload k : Nat) : (s.sendBurstLine c payload k).tickSteps = s.tickSteps := rfl
@[simp] theorem State.tickSteps_setServo (p : Nat) (x : Servo) : (s.setServo p x).tickSteps = s.tickSteps := rfl
@[simp] theorem State.tickSteps_modServo (p : Nat) (f : Servo → Servo) : (s.modServo p f).tickSteps = s.tickSteps := rfl
@[simp] theorem State.tickSteps_setPegTime (p t : Nat) : (s.setPegTime p t).tickSteps = s.tickSteps := rfl
@[simp] theorem State.tickSteps_setGate (c : Nat) (x : Gate) : (s.setGate c x).tickSteps = s.tickSteps := rfl
@[simp] theorem State.tickSteps_ppsDrive (o : Nat) (active : Bool) : (s.ppsDrive o active).tickSteps = s.tickSteps := rfl

theorem State.tickSteps_withFlt (x : Flt) : ({ s with flt := x } : State).tickSteps = s.tickSteps := rfl
theorem State.tickSteps_withStore (x : Store) : ({ s with store := x } : State).tickSteps = s.tickSteps := rfl

end

/-! ### Events raised and faults watched (R320, R400, R404, R405) -/

section
variable (s : State)

@[simp] theorem State.tickSteps_raise (cls idx : Nat) : (s.raise cls idx).tickSteps = s.tickSteps := s.raise_rd cls idx 0 (by decide)

@[simp] theorem State.tickSteps_msix (vec : Nat) : (s.msix vec).tickSteps = s.tickSteps := s.msix_rd vec _ _

@[simp] theorem State.tickSteps_retireRow (o row : Nat) : (s.retireRow o row).1.tickSteps = s.tickSteps := by
  unfold State.retireRow
  split
  · rfl
  · split
    · rfl
    · simp (disch := decide) [State.tickSteps_withFlt]

/-- The faults that a burst on its way can meet: a corrected and an uncorrectable word of the frame store. -/
theorem State.tickSteps_applyAction {src : Nat} (h : src = fsCorr ∨ src = fsUnc) (inst action : Nat) :
    (s.applyAction src inst action).1.tickSteps = s.tickSteps := by
  rcases h with rfl | rfl
  · unfold State.applyAction
    split
    · exact s.tickSteps_retireRow _ _
    · split
      · rfl
      · split <;> rfl
  · unfold State.applyAction
    split
    · rfl
    · split
      · rfl
      · split <;> rfl

theorem State.tickSteps_countEvent {src : Nat} (h : src = fsCorr ∨ src = fsUnc) (inst : Nat) :
    (s.countEvent src inst).tickSteps = s.tickSteps :=
  State.countEvent_keeps State.tickSteps State.tickSteps_withFlt State.tickSteps_msix State.tickSteps_raise src inst
    (fun s action => s.tickSteps_applyAction h inst action) s

theorem State.tickSteps_watch {src : Nat} (h : src = fsCorr ∨ src = fsUnc) (inst : Nat) :
    (s.watch src inst).tickSteps = s.tickSteps :=
  State.watch_keeps State.tickSteps State.tickSteps_withFlt State.tickSteps_msix
    (fun s i => s.tickSteps_inc (f := F.FLT_INST_TOTAL) i (by decide)) State.tickSteps_raise src inst
    (fun s action => s.tickSteps_applyAction h inst action) s

@[simp] theorem State.tickSteps_watchRow (o row : Nat) : (s.watchRow o row).tickSteps = s.tickSteps := by
  have hcount (t : State) (i : Nat) : (t.countEvent fsCorr i).tickSteps = t.tickSteps := t.tickSteps_countEvent (.inl rfl) i
  unfold State.watchRow
  dsimp only
  split
  · simp (disch := decide)
  · split
    · simp (disch := decide) [hcount]
    · split
      · simp (disch := decide)
      · split <;> simp (disch := decide) [hcount]

end

/-! ### Frames that leave the frame store and the deep store (R186, R192) -/

section
variable (s : State)

@[simp] theorem State.tickSteps_freeFs (xs : List Nat) : (s.freeFs xs).tickSteps = s.tickSteps := by
  unfold State.freeFs
  exact foldl_keeps State.tickSteps (fun s x => s.tickSteps_inc (f := F.OCT_STORE_RETIRED) (x / 98304) (by decide)) _ _

@[simp] theorem State.tickSteps_noteUse (o : Nat) : (s.noteUse o).tickSteps = s.tickSteps := by
  unfold State.noteUse
  dsimp only
  split <;> simp (disch := decide)

@[simp] theorem State.tickSteps_setHeld (o n : Nat) : (s.setHeld o n).tickSteps = s.tickSteps := State.tickSteps_noteUse _ _
@[simp] theorem State.tickSteps_setPool (o n : Nat) : (s.setPool o n).tickSteps = s.tickSteps := State.tickSteps_noteUse _ _

@[simp] theorem State.tickSteps_showStaged (c : Nat) : (s.showStaged c).tickSteps = s.tickSteps := by
  unfold State.showStaged
  simp (disch := decide)

@[simp] theorem State.tickSteps_chUse (x : QFrame) (n : Nat) : (s.chUse x n).tickSteps = s.tickSteps := by
  unfold State.chUse
  split
  · simp (disch := decide)
  · rfl

@[simp] theorem State.tickSteps_reclaimLost : s.reclaimLost.tickSteps = s.tickSteps := by
  unfold State.reclaimLost
  split <;> rfl

@[simp] theorem State.tickSteps_clearDeep (id : Nat) : (s.clearDeep id).tickSteps = s.tickSteps := by
  unfold State.clearDeep
  dsimp only
  rw [State.tickSteps_setDeepFr, State.tickSteps_freeFs]
  split <;> rfl

@[simp] theorem State.tickSteps_dropDeep (id : Nat) (withAdv : Bool) : (s.dropDeep id withAdv).tickSteps = s.tickSteps := by
  simp [State.dropDeep]

@[simp] theorem State.tickSteps_release (x : QFrame) : (s.release x).tickSteps = s.tickSteps := by
  unfold State.release
  split
  · simp
  · split <;> simp

@[simp] theorem State.tickSteps_dropDeficit (q : Nat) : (s.dropDeficit q).tickSteps = s.tickSteps := by
  unfold State.dropDeficit
  split
  · rfl
  · dsimp only
    split <;> rfl

@[simp] theorem State.tickSteps_pull (q i : Nat) : (s.pull q i).tickSteps = s.tickSteps := by
  unfold State.pull
  dsimp only
  split
  · split <;> rfl
  · rfl

end

/-! ### Bursts on their way (R138, R152) -/

section
variable (s : State)

@[simp] theorem State.tickSteps_noteSent (q : Nat) (x : QFrame) : (s.noteSent q x).tickSteps = s.tickSteps := by
  unfold State.noteSent
  simp (disch := decide) [State.tickSteps_withStore]

@[simp] theorem State.tickSteps_readWords (r : FsRead) (i o : Nat) : (s.readWords r i o).1.tickSteps = s.tickSteps := by
  unfold State.readWords
  extract_lets rows
  have hrows : rows.tickSteps = s.tickSteps := by
    simp only [rows]
    exact foldl_keeps State.tickSteps (fun s _ => s.tickSteps_watchRow o _) _ _
  split
  · simpa (disch := decide) [State.tickSteps_watch _ (src := fsUnc) (.inr rfl)] using hrows
  · exact hrows

@[simp] theorem State.tickSteps_bowTake (c : Nat) (f : PFrame) (x : QFrame) (t16 : Nat) (r : FsRead) (i : Nat) :
    (s.bowTake c f x t16 r i).1.tickSteps = s.tickSteps := by
  unfold State.bowTake
  dsimp only
  rw [State.tickSteps_readWords]
  split <;> simp (disch := decide)

/-- What drops a frame that is to be protected is counted in a register of its channel. -/
theorem State.sealDrop_clear {c dir tid : Nat} {bc asks : Bool} {fld : Fld} (h : s.sealDrop c dir tid bc asks = some fld) :
    fld.clearOf F.DEV_TICK_STEPS = true := by
  unfold State.sealDrop at h
  extract_lets t at h
  split at h
  · cases h
    decide
  · split at h
    · cases h
      decide
    · cases h

@[simp] theorem State.tickSteps_sealFrame (c dir tid : Nat) (bc asks : Bool) (ltn idx : Nat) (bytes : List Byte) :
    (s.sealFrame c dir tid bc asks ltn idx bytes).2.tickSteps = s.tickSteps := by
  unfold State.sealFrame
  extract_lets t
  split
  next hdrop => exact s.tickSteps_inc c (s.sealDrop_clear hdrop)
  · split <;> rfl

@[simp] theorem State.tickSteps_stampRecord (c stamp : Nat) (tx tc : Bool) (added : Nat) (frame : List Byte) (ofs : Nat) :
    (s.stampRecord c stamp tx tc added frame ofs).tickSteps = s.tickSteps := by
  unfold State.stampRecord
  dsimp only
  split <;> simp (disch := decide)

@[simp] theorem State.tickSteps_takeFree : s.takeFree.2.tickSteps = s.tickSteps := rfl

@[simp] theorem State.tickSteps_ptpCorrect (c : Nat) (f : Frame) (p : PtpAt) (body : List Byte) (exit : Nat) :
    (s.ptpCorrect c f p body exit).2.2.2.tickSteps = s.tickSteps := by
  unfold State.ptpCorrect
  split
  · rfl
  · dsimp only
    split
    · dsimp only
      split <;> simp (disch := decide)
    · simp (disch := decide)

@[simp] theorem State.tickSteps_ptpExit (c : Nat) (f : Frame) (body : List Byte) (exit : Nat) :
    (s.ptpExit c f body exit).2.2.tickSteps = s.tickSteps := by
  unfold State.ptpExit
  split
  · rfl
  · dsimp only
    split <;> simp

@[simp] theorem State.tickSteps_treeOut (c dir tid : Nat) (bc asks : Bool) (ltn block exit : Nat) (x : QFrame) (lob : Bool) :
    (s.treeOut c dir tid bc asks ltn block exit x lob).2.tickSteps = s.tickSteps := by
  unfold State.treeOut
  split
  next hdrop => exact s.tickSteps_inc c (s.sealDrop_clear hdrop)
  · simp

@[simp] theorem State.tickSteps_bowEmit (c u pos : Nat) (a : Arr) (prot : Bool) (x : QFrame) (lob : Bool) :
    (s.bowEmit c u pos a prot x lob).tickSteps = s.tickSteps := by
  unfold State.bowEmit
  dsimp only
  split <;> simp

@[simp] theorem State.tickSteps_bowKeeps (c : Nat) (p : Plan) (chs : List Nat) (o : Nat) :
    (s.bowKeeps c p chs o).tickSteps = s.tickSteps := by
  induction chs generalizing s o with
  | nil => rfl
  | cons ch chs ih =>
    unfold State.bowKeeps
    dsimp only
    rw [ih]
    split <;> simp

@[simp] theorem State.tickSteps_shpReturn (k bytes : Nat) : (s.shpReturn k bytes).tickSteps = s.tickSteps := by
  unfold State.shpReturn
  split <;> rfl

@[simp] theorem State.tickSteps_unplanned (c : Nat) (prot : Bool) (fs : List PFrame) : (s.unplanned c prot fs).tickSteps = s.tickSteps := by
  refine foldl_keeps State.tickSteps (fun s f => ?_) _ _
  split
  · rfl
  · exact foldl_keeps State.tickSteps (fun s k => s.tickSteps_shpReturn k _) _ _

@[simp] theorem State.tickSteps_panicSettle (c : Nat) : (s.panicSettle c).tickSteps = s.tickSteps := by
  unfold State.panicSettle State.panic
  split
  · simp (disch := decide)
  · rfl

@[simp] theorem State.tickSteps_burstDone (c : Nat) (p : Plan) : (s.burstDone c p).tickSteps = s.tickSteps := by
  unfold State.burstDone
  dsimp only
  rw [State.tickSteps_panicSettle]
  split <;> simp

@[simp] theorem State.tickSteps_underrun (c : Nat) (p : Plan) : (s.underrun c p).tickSteps = s.tickSteps := by
  simp (disch := decide) [State.underrun]

@[simp] theorem State.tickSteps_burstFrame (c : Nat) (p : Plan) (r : BurstRun) (f : PFrame) (x : QFrame) :
    (s.burstFrame c p r f x).tickSteps = s.tickSteps := by
  unfold State.burstFrame
  dsimp only
  rw [State.tickSteps_modTree]
  split <;> simp

@[simp] theorem State.tickSteps_burstMove (c : Nat) (last : Bool) (n : Nat) : (s.burstMove c last n).tickSteps = s.tickSteps := by
  induction n generalizing s with
  | zero => rfl
  | succ n ih =>
    unfold State.burstMove
    split
    · rfl
    · split
      · rfl
      · simp
      · split
        · simp [ih]
        · split
          · simp [ih]
          · split <;> simp

@[simp] theorem State.tickSteps_burstRun (c : Nat) : (s.burstRun c).tickSteps = s.tickSteps := by simp [State.burstRun]

@[simp] theorem State.tickSteps_burstsRun : s.burstsRun.tickSteps = s.tickSteps := by
  refine foldl_keeps State.tickSteps (fun s c => ?_) _ _
  rw [apply_ite State.tickSteps, State.tickSteps_burstRun, ite_self]

end

/-! ### The pegs at a boundary (R228, R238, R240) -/

section
variable (s : State)

@[simp] theorem State.tickSteps_showGate (c : Nat) : (s.showGate c).tickSteps = s.tickSteps := by
  unfold State.showGate
  simp (disch := decide)

@[simp] theorem State.tickSteps_gateListStart (c : Nat) : (gateListStart c s).tickSteps = s.tickSteps := by
  unfold gateListStart
  split
  · rfl
  · split <;> simp

@[simp] theorem State.tickSteps_servoState (p st : Nat) : (s.servoState p st).tickSteps = s.tickSteps :=
  State.servoState_keeps State.tickSteps p
    (fun s f v hf => s.tickSteps_wr p v (Fld.clearOf_of_off (hf ▸ (by decide)) (by decide) (hf ▸ (by decide))))
    State.tickSteps_ppsDrive State.tickSteps_log State.tickSteps_raise s st

@[simp] theorem State.tickSteps_applyStep (p : Nat) : (s.applyStep p).tickSteps = s.tickSteps := by
  cases h : s.stepSize p with
  | none =>
    rw [State.applyStep, h]
    rfl
  | some d =>
    rw [State.applyStep_keeps State.tickSteps h (fun s => s.tickSteps_servoState p svAcquire)]
    have hcounted (t : State) : (t.inc F.PEG_SRV_STEPS p).tickSteps = t.tickSteps := t.tickSteps_inc p (by decide)
    unfold State.movePeg State.keepStep
    split <;> exact hcounted _

@[simp] theorem State.tickSteps_boundaryStep (p : Nat) : (s.boundaryStep p).tickSteps = s.tickSteps := by
  unfold State.boundaryStep
  dsimp only
  split
  · refine (foldl_keeps State.tickSteps (fun s c => ?_) _ _).trans (s.tickSteps_applyStep p)
    split <;> simp
  · exact s.tickSteps_applyStep p

@[simp] theorem State.tickSteps_applyRate (p : Nat) : (s.applyRate p).tickSteps = s.tickSteps := by
  unfold State.applyRate
  split
  · simp (disch := decide)
  · split
    · rfl
    · simp (disch := decide)

end

end Sys2Proof.Machine
end

section
/-!
PROOF. How a core tick begins (R17, R18): its number and the next boundary, with and without a step of peg 0. Settles O17.
-/

namespace Sys2Proof.Machine

/-! ### The next multiple -/

theorem ceilDiv_mul_bounds (a : Nat) {b : Nat} (hb : 0 < b) : a ≤ ceilDiv a b * b ∧ ceilDiv a b * b < a + b := by
  have hdiv := Nat.div_add_mod (a + b - 1) b
  have hlt := Nat.mod_lt (a + b - 1) hb
  rw [Nat.mul_comm] at hdiv
  unfold ceilDiv
  omega

/-- Where a tick's boundary lies on its multiple, the number behind it is one more than the number of multiples. -/
theorem tickNumber {n u : Nat} (hu : 0 < u) (hn : n + 1 < 2 ^ 48) : (((n + 1) * u + u) / u - 1) % 2 ^ 48 = n + 1 := by
  rw [← Nat.succ_mul, Nat.mul_div_cancel _ hu, Nat.succ_sub_one, Nat.mod_eq_of_lt hn]

theorem unitTick_pos : 0 < unitTick := by decide

/-! ### The tick begun -/

/-- The pegs at the boundary, and what follows them: the bursts on their way, the steps and the rates. -/
def State.pegsBegun (s : State) : State :=
  (List.range 16).foldl State.applyRate ((List.range 16).foldl State.boundaryStep (s.runTo s.eng.nextB).burstsRun)

theorem State.pegsBegun_tickSteps (s : State) : s.pegsBegun.tickSteps = s.tickSteps := by
  have hclock : (s.runTo s.eng.nextB).tickSteps = s.tickSteps := State.tickSteps_of_eff (by rw [State.runTo_frame])
  calc s.pegsBegun.tickSteps
    _ = ((List.range 16).foldl State.boundaryStep (s.runTo s.eng.nextB).burstsRun).tickSteps :=
      foldl_keeps State.tickSteps State.tickSteps_applyRate _ _
    _ = (s.runTo s.eng.nextB).burstsRun.tickSteps := foldl_keeps State.tickSteps State.tickSteps_boundaryStep _ _
    _ = s.tickSteps := (State.tickSteps_burstsRun _).trans hclock

section
variable (s : State)

theorem State.beginTick_unstepped (h : s.stepSize 0 = none) : s.beginTick = { s.pegsBegun with eng := { s.pegsBegun.eng with
    tick := ((s.eng.nextB + unitTick) / unitTick - 1) % 2 ^ 48, lastB := s.eng.nextB, nextB := s.eng.nextB + unitTick,
    past := false } } := by
  rw [State.beginTick, h, State.pegsBegun]

theorem State.beginTick_stepped {d : Int} (h : s.stepSize 0 = some d) : s.beginTick =
    ({ s.pegsBegun with eng := { s.pegsBegun.eng with lastB := s.pegsBegun.pegTime 0, past := false } } : State).placeNext.inc
      F.DEV_TICK_STEPS 0 := by
  rw [State.beginTick, h, State.pegsBegun]

end

/-- How far a peg runs on in a device cycle is told by its rate register. -/
theorem State.pegInc_of_rd {s t : State} {p : Nat} (h : t.rd F.PEG_RATE_NOW p = s.rd F.PEG_RATE_NOW p) : t.pegInc p = s.pegInc p := by
  simp only [State.pegInc, State.rate, State.rdInt, h]

section
variable (t : State)

/-- The number and the boundary placed, told by themselves: nothing else changes. -/
theorem State.placeNext_frame : ∃ n b, b = ceilDiv (t.eng.lastB + 32000 * t.pegInc 0) unitTick * unitTick ∧
    t.placeNext = { t with eng := { t.eng with tick := n, nextB := b } } := ⟨_, _, rfl, rfl⟩

theorem State.placeNext_eff : t.placeNext.eff = t.eff := by
  obtain ⟨n, b, -, hplaced⟩ := t.placeNext_frame
  rw [hplaced]

theorem State.placeNext_nextB : t.placeNext.eng.nextB = ceilDiv (t.eng.lastB + 32000 * t.pegInc 0) unitTick * unitTick := by
  obtain ⟨n, b, hb, hplaced⟩ := t.placeNext_frame
  rw [hplaced, ← hb]

theorem State.placeNext_lastB : t.placeNext.eng.lastB = t.eng.lastB := by
  obtain ⟨n, b, -, hplaced⟩ := t.placeNext_frame
  rw [hplaced]

/-- The step of peg 0 counted. -/
def State.stepCounted : State := t.placeNext.inc F.DEV_TICK_STEPS 0

theorem State.stepCounted_eng : t.stepCounted.eng = t.placeNext.eng := by
  rw [State.stepCounted, State.inc_eng]

theorem State.stepCounted_pegInc : t.stepCounted.pegInc 0 = t.pegInc 0 := by
  refine State.pegInc_of_rd ?_
  rw [State.stepCounted, State.rd_inc_clear _ _ _ (by decide), State.rd_of_eff t.placeNext_eff]

theorem State.stepCounted_tickSteps : t.stepCounted.rd F.DEV_TICK_STEPS 0 = min (t.tickSteps + 1) 65535 := by
  have hok : F.DEV_TICK_STEPS.ok := ⟨by decide, by decide⟩
  have hmax : 2 ^ F.DEV_TICK_STEPS.width - 1 = 65535 := by decide
  rw [State.stepCounted, State.rd_inc_same _ _ hok, State.rd_of_eff t.placeNext_eff, hmax, State.tickSteps]

end

/-- Settles O17. -/
theorem coreTickBegins : Obligations.CoreTickBegins := by
  refine fun s hruns => ⟨fun bad regs => done_runs hruns, fun hnone hnext hlt => ?_, fun hsome => ?_⟩
  · rw [s.beginTick_unstepped hnone]
    refine ⟨?_, rfl, rfl, rfl⟩
    show ((s.eng.nextB + unitTick) / unitTick - 1) % 2 ^ 48 = s.eng.tick + 1
    rw [hnext, tickNumber unitTick_pos hlt]
  · obtain ⟨d, hd⟩ := Option.ne_none_iff_exists'.mp hsome
    rw [s.beginTick_stepped hd]
    generalize hbegun : ({ s.pegsBegun with eng := { s.pegsBegun.eng with lastB := s.pegsBegun.pegTime 0, past := false } } : State) = t
    have hsteps : t.tickSteps = s.rd F.DEV_TICK_STEPS 0 := by
      rw [← State.tickSteps, ← s.pegsBegun_tickSteps, ← hbegun]
      exact State.tickSteps_of_eff rfl
    show t.stepCounted.eng.nextB % unitTick = 0 ∧ t.stepCounted.eng.lastB + 32000 * t.stepCounted.pegInc 0 ≤ t.stepCounted.eng.nextB ∧
      t.stepCounted.eng.nextB < t.stepCounted.eng.lastB + 32000 * t.stepCounted.pegInc 0 + unitTick ∧
      t.stepCounted.rd F.DEV_TICK_STEPS 0 = _
    rw [t.stepCounted_eng, t.stepCounted_pegInc, t.placeNext_nextB, t.placeNext_lastB, t.stepCounted_tickSteps, hsteps]
    obtain ⟨hle, hlt⟩ := ceilDiv_mul_bounds (t.eng.lastB + 32000 * t.pegInc 0) unitTick_pos
    exact ⟨Nat.mul_mod_left _ _, hle, hlt, rfl⟩

end Sys2Proof.Machine
end
